-- ==== Sys2Proof/Word.lean ====
section
/-! DEFINITION. The word types of the module and the plain data of its sparse tables. -/

namespace Sys2Proof

/-- A register word (chapter "Scope and conventions", Registers and their access codes). -/
abbrev Word := BitVec 32

/-- A byte of a memory, a buffer or a packet body. -/
abbrev Byte := BitVec 8

/-- A point value as Pliak carries it (R97, R271). -/
abbrev Val := BitVec 64

/-- A sparse table: pairs of a key and a value, keys strictly rising, no value equal to what an unlisted key reads
as. `Tab Byte` is a list of `Host.Cell`. -/
abbrev Tab (α : Type) := List (Nat × α)

end Sys2Proof
end

