-- ==== Sys2Proof/Syntax.lean ====
section
/-! DEFINITION. The commands the module takes: one constructor for each row of the table of operations and events, with
the operands the rules of the spec give it, and the plain data of those operands. -/

namespace Sys2Proof

/-- A lane, half of the module's computing (R19). -/
inductive Lane | a | b
deriving DecidableEq, Repr

/-- The other lane. -/
def Lane.other : Lane → Lane
  | .a => .b
  | .b => .a

/-- The lane as its bit in a data word: 0 A, 1 B. -/
def Lane.num : Lane → Nat
  | .a => 0
  | .b => 1

/-- A DC supply (R47). -/
inductive Bus | a | b
deriving DecidableEq, Repr

/-- A port Pnn, held as nn − 1. -/
abbrev PortNo := Fin 64

/-- A pair-set of a port (R142). -/
inductive PairSet | a | b
deriving DecidableEq, Repr

/-- The address and the UDP port a datagram came from; an IPv4 address is held as the IPv6 address that maps it. -/
structure Peer where
  addr : BitVec 128
  port : BitVec 16
deriving DecidableEq, Repr

/-- The way a Pliak packet reached the module, and where its reply goes (R76). -/
inductive Transport
  | uplinkA (peer : Peer)
  | uplinkB (peer : Peer)
  | service (peer : Peer)
  | doorbell
deriving DecidableEq, Repr

/-- The header of an authenticated request of an open session, as its datagram carries it (R78); `length` is LENGTH. -/
structure Req where
  session : BitVec 32
  seq : BitVec 64
  tag : BitVec 16
  length : BitVec 16
  transport : Transport
deriving DecidableEq, Repr

/-- A shared or lane reset domain that resets by itself (R19, R441). -/
inductive Dom | switch | meter | aio | can | laneA | laneB
deriving DecidableEq, Repr

/-- The domain's bit in `SYS_DOMAINS.IN_RESET` (R41). -/
def Dom.bit : Dom → Nat
  | .switch => 2
  | .meter => 3
  | .aio => 4
  | .can => 5
  | .laneA => 6
  | .laneB => 7

/-- The domain of a lane. -/
def Lane.dom : Lane → Dom
  | .a => .laneA
  | .b => .laneB

/-- What a point-table entry of an image is bound to (R289): a program variable of a task, or an item of a
resource. Loop items: 0 SP, 1 PV, 2 OUT. -/
inductive Binding
  | prog
  | loop (slot : Fin 1024) (item : Fin 3)
  | aio (ch : Fin 16)
  | can (ctl : Fin 4) (obj : Fin 128) (sig : Fin 512)
  | meterIn (inp : Fin 48) (item : Nat)
  | meterPort (port : PortNo) (item : Nat)
  | port (p : PortNo)
  | node (n : Fin 256)
  | group (g : Fin 256)
deriving DecidableEq, Repr

/-- A point-table entry as a program image defines it (R125, R271, R299). `writer` is the logical cell that writes
the entry's output, when it has one; `read` tells that the task only reads a SHARED point (R124). -/
structure PointDesc where
  entry : Fin 8192
  ptype : BitVec 5
  bind : Binding
  task : Fin 64
  dtype : BitVec 4
  retain : Bool
  shared : Bool
  writable : Bool
  init : BitVec 64
  writer : Option (Fin 256)
deriving DecidableEq, Repr

/-- A program language element (R270). Those from `ld` on are not supported. -/
inductive Element
  | st | fbd | sfc | program | functionBlock | function | cyclicTask | elementary | array | struct | enumeration | subrange
  | varSection | varGlobal | retain | nonRetain | constant | atLocation | boundedLoop | sfcQualifier | library
  | ld | il | class | interface | method | property | extends | implements | secondResource | singleTask | wstring | wchar
  | refTo | pointer | dynamicAllocation | persistent | varAccess | varConfig | sharedGlobal | recursion | otherFunction
deriving DecidableEq, Repr

/-- An elementary type: a data type code of R271, or a STRING of a declared length (R270). -/
inductive ElemTy
  | num (code : BitVec 4)
  | str (max : BitVec 8)
deriving DecidableEq, Repr

/-- Where a program's variable lies (R267, R268, R288): at an offset in its partition's data, at an offset in its task's shared data,
in a point-table entry, or at an offset in its cluster's shared memory. -/
inductive Place
  | data (off : BitVec 17)
  | task (off : BitVec 20)
  | point (e : Fin 8192)
  | shared (off : BitVec 20)
deriving DecidableEq, Repr

/-- Functions of one operand (R270). -/
inductive UnOp | neg | not | abs | sqrt | trunc | ln | log | exp | sin | cos | tan | asin | acos | atan
deriving DecidableEq, Repr

/-- Operators and functions of two operands (R270). -/
inductive BinOp | add | sub | mul | div | mod | expt | and | or | xor | eq | ne | lt | le | gt | ge | min | max | shl | shr | rol | ror
deriving DecidableEq, Repr

/-- String functions (R270). -/
inductive StrOp | len | left | right | mid | concat | insert | delete | replace | find
deriving DecidableEq, Repr

/-- System variables (R276). -/
inductive SysVar | cycNumber | cycTime | cycPeriod | cycFirst | cycStart | cycLate | cycLane
deriving DecidableEq, Repr

/-- Standard function blocks (R270). -/
inductive FbKind | ton | tof | tp | ctu | ctd | ctud | rTrig | fTrig | sr | rs
deriving DecidableEq, Repr

/-- SFC action qualifiers (R270). -/
inductive Qual | n | r | s | p | p0 | p1 | l | d | sd | ds | sl
deriving DecidableEq, Repr

/-- An SFC chart (R270): where its data lie, its number of steps, its transitions (the steps before and after each), the actions of
its steps (step, qualifier, time in ns, action), and its number of actions. -/
structure Chart where
  place : Place
  steps : Nat
  trans : List (List Nat × List Nat)
  assoc : List (Nat × Qual × BitVec 64 × Nat)
  actions : Nat
deriving DecidableEq, Repr

/-- One step of a compiled partition, on a stack of values. `unless` jumps when the value taken is FALSE; `loopEnter`, `loopNext` and
`loopLeave` frame a WHILE or REPEAT with its bound (R273); `barrier` meets the task's other cells (R275). -/
inductive Step
  | push (v : BitVec 64)
  | pushStr (cs : List Byte)
  | load (t : ElemTy) (p : Place)
  | store (t : ElemTy) (p : Place)
  | storeIn (t : BitVec 4) (p : Place) (lo hi : Int)
  | loadAt (t : ElemTy) (p : Place) (dims : List (Int × Int))
  | storeAt (t : ElemTy) (p : Place) (dims : List (Int × Int))
  | un (op : UnOp) (t : BitVec 4)
  | bin (op : BinOp) (t : BitVec 4)
  | select
  | mux (n : Nat)
  | limit (t : BitVec 4)
  | string (op : StrOp)
  | convert (t u : ElemTy)
  | system (v : SysVar)
  | block (k : FbKind) (p : Place)
  | chart (c : Chart)
  | jump (dest : Nat)
  | unless (dest : Nat)
  | loopEnter (bound : Nat)
  | loopNext (exit : Nat)
  | loopLeave
  | barrier
  | send (cell : Fin 256) (box : Fin 16) (p : Place) (len : BitVec 16)
  | receive (box : Fin 16) (p : Place) (room : BitVec 8)
deriving DecidableEq, Repr

/-- A task of a program image (R274): INTERVAL in ns, and its part of its cluster's task shared data (R268) with its initial bytes. -/
structure TaskDesc where
  task : Fin 64
  gallery : Fin 64
  interval : Nat
  phase : Nat
  prio : BitVec 8
  sharedBase : Nat
  sharedSize : Nat
  sharedInit : List Byte
deriving DecidableEq, Repr

/-- A takeover placement of a partition (R410): the cell and the base of its data there. -/
structure TakePlace where
  cell : Fin 256
  base : Nat
deriving DecidableEq, Repr

/-- A partition of a task, as the image's load table gives it (R267, R274, R277, R306): its logical cell, the base and the size of its
data, the size of its code, its takeover placement (R410), Kwewick's estimate of its execution time in ns, its initial data, its RETAIN
variables (offset in its data, length, RETAIN byte of the image) and its steps. -/
structure PartDesc where
  task : Fin 64
  cell : Fin 256
  base : Nat
  size : Nat
  codeSize : Nat
  take : Option TakePlace
  est : Nat
  init : List Byte
  retain : List (Nat × Nat × Nat)
  steps : List Step
deriving DecidableEq, Repr

/-- The code of a logical cell (R267): CODE_END in units of 4 KiB, and the code's bytes. -/
structure CellDesc where
  cell : Fin 256
  codeEnd : BitVec 5
  code : List Byte
deriving DecidableEq, Repr

/-- A mailbox of a program image (R292). -/
structure MailboxDesc where
  cell : Fin 256
  box : Fin 16
  sender : Fin 64
  receiver : Fin 64
  epoch : BitVec 16
deriving DecidableEq, Repr

/-- A decoded program image (R267–R277, R289, R292, R410). `base` and `commit` are in µs. `loops` gives the sixteen
words of each loop slot's descriptor (R334), `regs` the words the image lays at other register addresses (CAN signal
tables and headers, loop schedule tables). `uses` names the language elements its programs use (R270). -/
structure ProgImage where
  id : BitVec 32
  wide : Bool
  base : Nat
  commit : Nat
  layout : BitVec 32
  retainBytes : Nat
  uses : List Element
  takeoverA : List (Fin 64)
  takeoverB : List (Fin 64)
  tasks : List TaskDesc
  parts : List PartDesc
  cells : List CellDesc
  points : List PointDesc
  boxes : List MailboxDesc
  loops : List (Fin 1024 × List (BitVec 32))
  regs : List (Nat × BitVec 32)
deriving DecidableEq, Repr

/-- The IPv4 address of the management VID, with its prefix and gateway (R244). -/
structure MgmtIp4 where
  addr : BitVec 32
  prefixLen : Fin 33
  gateway : BitVec 32
deriving DecidableEq, Repr

/-- A decoded settings image (R529, R538): register words by address, the owners of the luminaire groups, each node's
safe level and groups, each port's MAX_NODES, the module's system address, the addresses of its management interface on the management VID
and on the galleries' (R244), the blocks replaced by their defaults (TYPE and the
FORMAT refused) and the number of blocks of a TYPE the firmware does not know. -/
structure SettingsImage where
  id : BitVec 32
  regs : List (Nat × BitVec 32)
  groupOwner : List (Fin 256 × Fin 64)
  nodeSafe : List (Fin 256 × BitVec 16)
  nodeGroups : List (Fin 256 × List (Fin 256))
  maxNodes : List (Fin 64 × BitVec 3)
  address : Option (BitVec 8 × BitVec 8)
  mgmt4 : Option MgmtIp4
  mgmt6 : List (BitVec 128)
  gal4 : List (Fin 64 × BitVec 32)
  gal6 : List (Fin 64 × BitVec 128)
  system : BitVec 32
  defaulted : List (BitVec 16 × BitVec 16)
  unknown : Nat
deriving DecidableEq, Repr

/-- What an SFP28 module's SFF-8472 identification says it is (R61): an optic, a passive direct-attach cable of a length in m, or another type. -/
inductive SfpKind
  | sr25
  | lr25
  | sr10
  | lr10
  | dac (metres : BitVec 8)
  | other
deriving DecidableEq, Repr

/-- The 1 ms means of a port (R177): pair-set voltages in mV, currents in mA, PSE power and weir 3 s mean in mW, and a valid MPS
in the last 350 ms. -/
structure PortMeas where
  port : PortNo
  va : BitVec 16
  vb : BitVec 16
  ia : BitVec 16
  ib : BitVec 16
  power : BitVec 32
  avg3s : BitVec 32
  mps : Bool
deriving DecidableEq, Repr

/-- The 1 ms means of the power entry, the sluice and the fans (R53, R205), in the units of their registers; `self` is
the measured self-dissipation in mW (R191), `atLimit` that the converter has been at its discharge limit for 1 ms. -/
structure EntryMeas where
  va : BitVec 16
  vb : BitVec 16
  ia : BitVec 16
  ib : BitVec 16
  rail : BitVec 16
  input : BitVec 32
  hotspot : BitVec 16
  inlet : BitVec 16
  duty : BitVec 8
  fanOk : BitVec 4
  fans : BitVec 64
  bankV : BitVec 16
  bankI : BitVec 16
  cellMax : BitVec 16
  cellMin : BitVec 16
  bankT : BitVec 16
  self : BitVec 32
  atLimit : Bool
deriving DecidableEq, Repr

/-- What a detection pass measures on a pair-set (R144): its open-circuit voltage in mV, and its signature's resistance in Ω and parallel
capacitance in pF. -/
structure Signature where
  open_ : BitVec 16
  ohms : BitVec 32
  pf : BitVec 32
deriving DecidableEq, Repr

/-- A sample of a loop-resistance measurement (R165): voltages in mV, currents in µA. -/
structure LoopSample where
  va : BitVec 32
  vb : BitVec 32
  ia : BitVec 32
  ib : BitVec 32
deriving DecidableEq, Repr

/-- A node's status entry in a LUM_LEVEL reply (R210, R211). -/
structure LumStatus where
  actual : BitVec 16
  lux : BitVec 16
  temp : BitVec 16
  power : BitVec 16
  flags : BitVec 16
deriving DecidableEq, Repr

/-- A frame as it arrives on a switch port: its bytes from the destination address on, without the FCS; whether the FCS fails, and whether
the PHY reported a symbol error in it. -/
structure Frame where
  bytes : List Byte
  fcsBad : Bool
  symErr : Bool
deriving DecidableEq, Repr

/-- What a port's PHY has seen since the last frame (R254, R260): entries of its partner into low-power idle, whether it is there after this
frame, and corrected FEC codewords or false carriers. -/
structure PhySeen where
  lpi : BitVec 16
  inLpi : Bool
  errors : BitVec 16
deriving DecidableEq, Repr

/-- What the management interface is asked (R244): ARP or neighbour solicitation for an address, or an echo sent to one. -/
inductive MgmtAsk
  | arp (target : BitVec 32)
  | solicit (target : BitVec 128)
  | echo4 (target : BitVec 32)
  | echo6 (target : BitVec 128)
deriving DecidableEq, Repr

/-- What the best announce message of an uplink says of its grandmaster (R256). -/
structure Announce where
  priority1 : BitVec 8
  cls : BitVec 8
  accuracy : BitVec 8
  variance : BitVec 16
  priority2 : BitVec 8
  gm : BitVec 64
  steps : BitVec 8
deriving DecidableEq, Repr

/-- A switch port k (R239), held as k − 1: 1–64 the jacks, 65 and 66 the uplinks, 67 and 68 the lanes. -/
abbrev EthPort := Fin 68

/-- One 16 ksps sample of the metering block (R339): for the voltage lines VA_L1–VA_L3, VB_L1–VB_L3 the voltage after steps 1–5, in µV; for I01–I48 the sample after steps 1–3 and 5 and the interpolation of R338, as a share of the
full scale of the range in force, 2^-23 per unit. All signed. -/
structure MeterSample where
  volts : List (BitVec 32)
  raw : List (BitVec 24)
deriving DecidableEq, Repr

/-- What a verified firmware image tells the module beside its header (R518, R522, R455): VERSION and STATE_FORMAT, the versions of the
parts for the sequencers, the metering DSP, the CAN controllers and the switch, and the identity of its signatures. -/
structure FwImage where
  version : BitVec 24
  stateFormat : BitVec 32
  seq : BitVec 16
  mtr : BitVec 16
  can : BitVec 16
  sw : BitVec 16
  sigId : BitVec 32
deriving DecidableEq, Repr

/-- What the bytes of an image decode to (R518, R529). -/
inductive ImageBody
  | firmware (f : FwImage)
  | program (p : ProgImage)
  | settings (x : SettingsImage)
deriving DecidableEq, Repr

/-- What a start-up self-test found (R452, R453, R469): the image that verifies in each bank, `BIST_REPORT.PARTS` with its firmware bit
left out of account, the datapaths and the positions of the lane that failed (17 × lane-local cluster + position), rows repaired, and its
length in 10 ms. -/
structure SelfTest where
  bank0 : Option FwImage
  bank1 : Option FwImage
  parts : BitVec 8
  dpOk : BitVec 4
  cells : List (Fin 136)
  rows : BitVec 16
  duration : BitVec 16
deriving DecidableEq, Repr

/-- What the SYSTEM area of the retention store holds (R530), by item. -/
inductive SysItem | cells | failures | seal | prevCause | cap | banks
deriving DecidableEq, Repr

/-- What the stores answer at a power-on (R487, R496, R504, R533): whether the fuse check passes; slots both of whose key copies fail, with
the highest generation readable in them; recorder slots that fail their check (0–383 histograms, then extremes); retention copies that
are not good; whether the RETAIN and the ENERGY set are invalid, and SYSTEM items without a good copy. -/
structure PowerReads where
  fuseOk : Bool
  keysBad : List (Fin 128 × Option (BitVec 32))
  recordsBad : List (Fin 1408)
  copiesBad : BitVec 32
  retainBad : Bool
  energyBad : Bool
  systemBad : List SysItem
deriving DecidableEq, Repr

/-- A flash page of a lane that was under program when power failed (R534): its address and length. -/
structure FlashPage where
  lane : Lane
  addr : BitVec 26
  len : BitVec 26
deriving DecidableEq, Repr

/-- A path of a lane's heartbeats (R418), or an input of the partner module's (R420). -/
inductive HbPath
  | wire (l : Lane)
  | culvert (l : Lane)
  | partnerA
  | partnerB
deriving DecidableEq, Repr

/-- One of the two headgate copies. -/
inductive HgCopy | hg0 | hg1
deriving DecidableEq, Repr


/-- A command: an operation of a supervisor, a bus cycle, a pin, a timer or another event, as
spec/opcode_table.json lists them. -/
inductive Instr
  /-- `MAIN_POWER_VALID_ASSERTED` (R34): Main-power-valid asserts after its 50 µs filter and the power-on reset release sequence starts at t0. -/
  | mainPowerValidAsserted
  /-- `REFCLK_STABLE` (R34): REFCLK has been stable for 1,024 periods, so AON is released and the PLL is enabled (t1). `slot`: the slot identity pins. -/
  | refclkStable (slot : BitVec 8)
  /-- `HEADGATE_START_COMPARE_DONE` (R34): HG0 and HG1 finish their start-up cross-compare; if they agree PORTPWR is released (t2), otherwise R36 applies. `agree`: HG0 and HG1 agree. -/
  | headgateStartCompareDone (agree : Bool)
  /-- `PLL_LOCKED` (R34): The PLL reports lock during a power-on (t3) or during a relock. -/
  | pllLocked
  /-- `DOMAIN_RELEASE_STEP` (R34): The 20 µs spacing expires and the next reset domain of t4–t8 is released; at t8 both lanes are released and event 0 is raised. `reads`: what the stores answer, used at t8 of a power-on. -/
  | domainReleaseStep (reads : PowerReads)
  /-- `MAIN_POWER_LOST_BEFORE_T8` (R35): Main-power-valid deasserts before t8, so every domain except backup is reset and the sequence waits to restart. -/
  | mainPowerLostBeforeT8
  /-- `PLL_LOSS_OF_LOCK` (R28): The PLL loses lock for more than 1 µs: the shared and lane domains are reset, the loss is counted and a relock starts. -/
  | pllLossOfLock
  /-- `PLL_LOCK_ATTEMPT_TIMEOUT` (R29): A lock attempt has not locked within 500 µs and counts as a failed attempt; a third consecutive failure leads to SAFE. -/
  | pllLockAttemptTimeout
  /-- `REFCLK_LOST` (R30): The RTC-clocked monitor sees no REFCLK edge for 61 µs: domains are held in reset, regulators go to analogue hold, and AON and PORTPWR freeze. -/
  | refclkLost
  /-- `REFCLK_RETURNED` (R31): REFCLK runs for 1,024 periods: AON and PORTPWR resume, the PLL relocks, domains are released and event 2 is raised. -/
  | refclkReturned
  /-- `MATE_N_LOW_FILTERED` (R46): MATE_N has been low for 100 ms, so the input switches close with inrush current limited. -/
  | mateNLowFiltered
  /-- `MATE_N_HIGH` (R46): MATE_N goes high with main power present: both input switches open within 10 µs and power-fail warning asserts. -/
  | mateNHigh
  /-- `BUS_PRESENT` (R47): A bus has been at or above 55.0 V with its switch closed for 100 ms, so it is marked present and joins sharing. -/
  | busPresent (bus : Bus) (mv : BitVec 16)
  /-- `BUS_LOST` (R47): A bus has been below 52.0 V for 50 µs: it is judged lost and event 32 or 33 is raised. -/
  | busLost (bus : Bus) (mv : BitVec 16)
  /-- `BUS_OVERVOLTAGE` (R47): A bus has been above 61.5 V for 10 µs: its input switch opens and event 34 or 35 is raised. -/
  | busOvervoltage (bus : Bus) (mv : BitVec 16)
  /-- `BUS_OVERVOLTAGE_CLEARED` (R47): A bus has been at or below 60.5 V for 100 ms, so its input switch closes again. -/
  | busOvervoltageCleared (bus : Bus)
  /-- `BUS_REVERSED` (R47): A bus has been reversed by more than 2.0 V for 1 ms: its switch opens or stays open and event 36 or 37 is raised. -/
  | busReversed (bus : Bus)
  /-- `BUS_REVERSAL_CLEARED` (R47): A reversal has been absent for 100 ms, so the switch closes and the bus rejoins through the present rule. -/
  | busReversalCleared (bus : Bus)
  /-- `POWER_FAIL_WARNING` (R197): Both buses have been below 52.0 V for 50 µs: the power-fail steps run (shedding, ride admission, save start). -/
  | powerFailWarning
  /-- `POWER_FAIL_WARNING_CLEARED` (R202): A bus meets the present row during hold-up: the ride ends, fans and PHYs return and event 41 is raised. -/
  | powerFailWarningCleared
  /-- `THERMAL_DERATE_CHANGE` (R71): The inlet temperature or the fan count changes the derating percent, and event 38 is raised when it falls. `inlet`: inlet temperature, signed, 0.01 °C. -/
  | thermalDerateChange (inlet : BitVec 16)
  /-- `FAN_FAIL` (R70): A fan leaves 15 % of its commanded speed: its FAN_OK bit clears and event 39 is raised. -/
  | fanFail (fan : Fin 4)
  /-- `HOTSPOT_OVERTEMP` (R71): The hottest internal sensor has been at 110 °C for 1 s, so the module enters SAFE. -/
  | hotspotOvertemp
  /-- `PLIAK_DATAGRAM_DROPPED` (R79): A malformed datagram arrives and is silently dropped and counted. -/
  | pliakDatagramDropped (transport : Transport) (datagram : List Byte)
  /-- `PLIAK_AUTH_FAIL` (R86): A secure packet names no open session or fails its ICV; it is dropped, counted, and event 504 is raised. -/
  | pliakAuthFail (transport : Transport) (datagram : List Byte)
  /-- `SESSION_OPEN` (R81): A SESSION_OPEN request is checked against the gallery key slot and limits, and a new session in OPENING is created. `vid` is the VLAN tag of the datagram's frame, if it had one. -/
  | sessionOpen (gallery : BitVec 8) (nonceS : BitVec 128) (tag : BitVec 16) (length : BitVec 16) (transport : Transport) (vid : Option (BitVec 12))
  /-- `SESSION_CONFIRM` (R85): An authenticated SESSION_CONFIRM sets the idle time and moves the session to ESTABLISHED. -/
  | sessionConfirm (r : Req) (idle : BitVec 16)
  /-- `SESSION_CLOSE` (R84): SESSION_CLOSE is answered and the session closes once its operations in flight complete. -/
  | sessionClose (r : Req)
  /-- `SESSION_OPEN_TIMEOUT` (R84): A session that has stayed in OPENING for 5 s without a SESSION_CONFIRM closes. -/
  | sessionOpenTimeout (session : BitVec 32)
  /-- `SESSION_IDLE_TIMEOUT` (R84): An established session that receives no authenticated packet for its idle time closes. -/
  | sessionIdleTimeout (session : BitVec 32)
  /-- `NOP` (R97): NOP returns STATUS and the current cycle number. `opcode` is 0x0004; a packet whose opcode R97 does not list is this row too, and is answered BAD_OPCODE. -/
  | nop (r : Req) (opcode : BitVec 16)
  /-- `ABORT` (R94): ABORT cancels an accepted but not yet started operation of the same session. -/
  | abort (r : Req) (target : BitVec 16)
  /-- `IDENTIFY` (R97): IDENTIFY returns the identity, revision, serial, slot and address words. -/
  | identify (r : Req)
  /-- `REG_READ` (R98): REG_READ returns COUNT consecutive register words without interleaving. -/
  | regRead (r : Req) (addr : BitVec 32) (count : BitVec 16)
  /-- `REG_WRITE` (R98): REG_WRITE writes COUNT words in ascending order to registers that have no row of their own, applying their access codes. -/
  | regWrite (r : Req) (addr : BitVec 32) (count : BitVec 16) (words : List (BitVec 32))
  /-- `REG_MODIFY` (R98): REG_MODIFY atomically replaces the masked bits of one register and returns the old value. -/
  | regModify (r : Req) (addr mask value : BitVec 32)
  /-- `RL_REGISTER_READ` (R17): A read of an RL low word returns it and latches the paired high word, shared by all sessions. -/
  | rlRegisterRead (r : Req) (addr : BitVec 32)
  /-- `POINT_READ` (R101): POINT_READ judges a handle and returns its value from one completed cycle image. -/
  | pointRead (r : Req) (handle : BitVec 32)
  /-- `POINT_WRITE` (R100): POINT_WRITE judges a handle and value and takes effect at the first tick at least 20 µs after acceptance. -/
  | pointWrite (r : Req) (handle : BitVec 32) (value : BitVec 64)
  /-- `GATHER` (R102): GATHER reads up to 16 handles from one cycle image, with a status for each element. -/
  | gather (r : Req) (count : BitVec 8) (handles : List (BitVec 32))
  /-- `SCATTER` (R102): SCATTER writes up to 16 handles, effective at one tick, with a status for each element. -/
  | scatter (r : Req) (count : BitVec 8) (elems : List (BitVec 32 × BitVec 64))
  /-- `FORCE` (R297): FORCE adds or replaces an entry in the force table, effective at the tick R101 selects. -/
  | force (r : Req) (handle : BitVec 32) (value : BitVec 64)
  /-- `UNFORCE` (R297): UNFORCE releases one force, or all forces, and returns the number released. -/
  | unforce (r : Req) (handle : BitVec 32)
  /-- `POINT_INFO` (R299): POINT_INFO returns the type, flags and owning task of a point. -/
  | pointInfo (r : Req) (handle : BitVec 32)
  /-- `EVENT_READ` (R106): EVENT_READ returns the visible queue entries from FROM onward, optionally only the unacknowledged ones. -/
  | eventRead (r : Req) (start : BitVec 32) (max : BitVec 8) (opt : BitVec 8)
  /-- `EVENT_ACK` (R107): EVENT_ACK sets the session's acknowledgement mark on the listed entries. -/
  | eventAck (r : Req) (count : BitVec 8) (seqs : List (BitVec 32))
  /-- `MODE_SET_ENTER_SERVICE` (R429): MODE_SET 0x04 from gallery 0 enters SERVICE at the next tick, and the lanes run SERVICE_TEST. `mode` is 0x04; a MODE other than 0x04 and 0x00 is this row too. -/
  | modeSetEnterService (r : Req) (mode : BitVec 8)
  /-- `MODE_SET_LEAVE_SERVICE` (R429): MODE_SET 0x00 in SERVICE leaves it once the passes under way end, with a WARM start in PAIRED or WIDE. -/
  | modeSetLeaveService (r : Req)
  /-- `EXERCISE` (R430): EXERCISE starts a self-test and handover of each lane in turn, in PAIRED with a current standby. -/
  | exercise (r : Req)
  /-- `SNAPSHOT_ARM` (R540): SNAPSHOT_ARM sets a gPTP instant and ID for a snapshot capture, replacing any pending arm. -/
  | snapshotArm (r : Req) (instant : BitVec 64) (id : BitVec 32)
  /-- `IMAGE_BEGIN` (R521): IMAGE_BEGIN opens a transfer and erases the target bank or slot on both lanes. -/
  | imageBegin (r : Req) (kind : BitVec 8) (size : BitVec 32)
  /-- `IMAGE_DATA` (R521): IMAGE_DATA writes a block at OFFSET to both lanes' flash. -/
  | imageData (r : Req) (offset : BitVec 32) (data : List Byte)
  /-- `IMAGE_COMMIT` (R521): IMAGE_COMMIT verifies both copies and brings the image into service (siphon, program start or settings start). `body`: what the image's bytes decode to. -/
  | imageCommit (r : Req) (body : Option ImageBody)
  /-- `UPDATE_CONFIRM` (R525): UPDATE_CONFIRM marks the first lane's new bank CONFIRMED and proceeds to the second stage of the siphon. -/
  | updateConfirm (r : Req)
  /-- `KEY_LOAD` (R499): KEY_LOAD unwraps or derives a key into a slot from its parent, after the checks of R499. `wrapped`: the 40 bytes of WRAPPED. -/
  | keyLoad (r : Req) (slot parent : BitVec 8) (attr : BitVec 32) (wrapped : List Byte)
  /-- `KEY_INVALIDATE` (R499): KEY_INVALIDATE empties a slot, advances its generation and orphans its descendants. -/
  | keyInvalidate (r : Req) (slot : BitVec 8)
  /-- `KEY_INFO` (R498): KEY_INFO returns a slot's attributes, generation and parent. -/
  | keyInfo (r : Req) (slot : BitVec 8)
  /-- `METER_READ` (R348): METER_READ returns one published set for a current input, a port meter or a gallery total. -/
  | meterRead (r : Req) (select : BitVec 16)
  /-- `LOOP_TEST` (R327): LOOP_TEST arms a test signal on a slot and capture buffers for its response. -/
  | loopTest (r : Req) (slot : BitVec 16) (signal buffer : BitVec 8) (amplitude arg : BitVec 32)
  /-- `LOOP_TEST_STOP` (R329): LOOP_TEST with kind 0xF stops a running test, which ends as STOPPED. the kind in SIGNAL [3:0] is 0xF. -/
  | loopTestStop (r : Req) (slot : BitVec 16) (point : BitVec 4) (buffer : BitVec 8) (amplitude arg : BitVec 32)
  /-- `CAPTURE_READ` (R330): CAPTURE_READ returns entries of a capture buffer of the answering lane. -/
  | captureRead (r : Req) (buffer : BitVec 8) (start count : BitVec 16)
  /-- `RECORDER_FREEZE` (R488): RECORDER_FREEZE with ON = 1 flushes pending increments and stops sampling and store writes. `on` is 1; an ON other than 0 and 1 is this row too. -/
  | recorderFreeze (r : Req) (on : BitVec 8)
  /-- `RECORDER_RELEASE` (R488): RECORDER_FREEZE with ON = 0 releases the freeze; pending closes and descriptor changes then apply. -/
  | recorderRelease (r : Req)
  /-- `OPERATION_TIMEOUT` (R112): An operation that has not completed by its bound is answered with TIMEOUT. -/
  | operationTimeout (session : BitVec 32) (tag : BitVec 16)
  /-- `RATE_LIMIT_WINDOW_END` (R549): A rate-limit window of a counting source ends, and the event is raised with the count for the window. -/
  | rateLimitWindowEnd (source : Fin 640) (obj : Nat)
  /-- `CABINET_BUS_READ` (R56): A cabinet-bus read cycle returns one word of the mirror or doorbell region. -/
  | cabinetBusRead (w : BitVec 12)
  /-- `CABINET_BUS_WRITE` (R57): A cabinet-bus write cycle is latched into the doorbell region, and writes to the mirror are ignored. -/
  | cabinetBusWrite (w : BitVec 12) (v : BitVec 16)
  /-- `MIRROR_PIN_TIMEOUT` (R115): A mirror pin ends 100 µs after it began. -/
  | mirrorPinTimeout
  /-- `DOORBELL_RING` (R118): A write of a valid length to word 0xFFE rings the doorbell and the request is taken. -/
  | doorbellRing (len : BitVec 16)
  /-- `DOORBELL_REPLY_READY` (R118): The reply is written to the reply buffer and the doorbell moves to DONE. -/
  | doorbellReplyReady
  /-- `DOORBELL_RELEASE` (R118): A write of 0 to word 0xFFE in DONE returns the doorbell to IDLE. -/
  | doorbellRelease
  /-- `DOORBELL_WRITE_WHILE_BUSY` (R118): A write to the request buffer or word 0xFFE while BUSY is ignored and counted. -/
  | doorbellWriteWhileBusy
  /-- `HG_OWN_APPLY` (R129): A write of 1 to HG_OWN_APPLY.GO checks the pending gallery configuration and schedules the apply. -/
  | hgOwnApply (r : Req)
  /-- `OWNERSHIP_APPLY_TICK` (R132): At the apply tick pending ownership becomes live, points are re-roled, forces released and event 4 is raised. -/
  | ownershipApplyTick
  /-- `PORT_DETECT_PASS` (R144): A detection pass runs on a port: the foreign voltage check and the signature measurement. `a`, `b`: what the pass measures on each pair-set. -/
  | portDetectPass (port : PortNo) (a b : Signature)
  /-- `PORT_CONNECTION_CHECK_DONE` (R145): The 20 ms connection check ends and the port is classed single- or dual-signature. `single`: one input bridge seen across both pair-sets. -/
  | portConnectionCheckDone (port : PortNo) (single : Bool)
  /-- `PORT_CLASSIFY_DONE` (R146): The last class event ends, the class is decoded and demoted, and a grant is requested. The class each pair-set's signature currents give, none where they are invalid or inconsistent; a single-signature port has its class in `clsA`. `auto`: the PD requested autoclass. -/
  | portClassifyDone (port : PortNo) (clsA clsB : Option (Fin 16)) (auto : Bool)
  /-- `PORT_GRANT_RECEIVED` (R150): The allocator grant reaches the sequencer and inrush starts. -/
  | portGrantReceived (port : PortNo)
  /-- `PORT_GRANT_TIMEOUT` (R150): No grant arrives within 150 ms of the last class event, so the port goes to PENDING. -/
  | portGrantTimeout (port : PortNo)
  /-- `PORT_INRUSH_COMPLETE` (R151): The voltage is within 0.5 V of the setting after at least 50 ms, so the port goes ON. -/
  | portInrushComplete (port : PortNo) (ps : PairSet)
  /-- `PORT_INRUSH_TIMEOUT` (R151): Inrush is not complete at 75 ms, so the port is removed with REASON INRUSH. -/
  | portInrushTimeout (port : PortNo) (ps : PairSet)
  /-- `PORT_MPS_LOST` (R153): No valid MPS for 350 ms, so the port or pair-set is removed with REASON MPS_LOST. -/
  | portMpsLost (port : PortNo) (ps : PairSet)
  /-- `PORT_OVERLOAD` (R154): PSE power above 1.05 × the class power for 60 ms, so the port is removed with REASON OVERLOAD. -/
  | portOverload (port : PortNo) (ps : PairSet)
  /-- `PORT_SHORT` (R154): A pair-set held at ILIM for 10 ms, so the port is removed with REASON SHORT. `energy`: let through since the clamp engaged, µJ. -/
  | portShort (port : PortNo) (ps : PairSet) (energy : BitVec 32)
  /-- `PORT_REG_FAULT` (R155): Regulator overtemperature or a voltage error held long enough, so the port is removed with REASON REG_FAULT. -/
  | portRegFault (port : PortNo) (ps : PairSet)
  /-- `PORT_BACKOFF_EXPIRED` (R156): 1.0 s after a removal the port leaves BACKOFF for DETECT. -/
  | portBackoffExpired (port : PortNo) (ps : PairSet)
  /-- `PORT_RESTART` (R176): A write of 1 to PORT_CMD.RESTART moves a port in LOCKOUT, PENDING or BACKOFF toward DETECT, or is ignored. -/
  | portRestart (r : Req) (port : PortNo)
  /-- `PORT_CTRL_WRITE` (R178): A write to PORT_CTRL or PORT_VSET from the granted lane takes effect at the sequencer's next REFCLK period. `vset`: PORT_VSET is written instead of PORT_CTRL. -/
  | portCtrlWrite (r : Req) (port : PortNo) (vset : Bool) (value : BitVec 32)
  /-- `AUTOCLASS_WINDOW_END` (R149): 3.0 s after t4 the autoclass power is recorded and offered to the allocator. `peak`: the highest 1 ms mean PSE power in the window, mW. -/
  | autoclassWindowEnd (port : PortNo) (peak : BitVec 32)
  /-- `LOOP_R_MEASURE_DUE` (R164): A loop-resistance measurement falls due (t8 or the 600 s schedule) and starts if its conditions hold. -/
  | loopRMeasureDue (port : PortNo)
  /-- `PORT_REMEASURE` (R164): A write of 1 to PORT_CMD.REMEASURE starts a measurement within 1 s. -/
  | portRemeasure (r : Req) (port : PortNo)
  /-- `LOOP_R_MEASURE_RETRY` (R164): 60 s after a skipped measurement the measurement is tried again. -/
  | loopRMeasureRetry (port : PortNo)
  /-- `LOOP_R_MEASURE_COMPLETE` (R166): The step samples end, loop resistances are computed and validated, and the target and trim are set. -/
  | loopRMeasureComplete (port : PortNo) (base stepA stepB : LoopSample)
  /-- `VOLTAGE_RAMP_STEP` (R169): Each 1 ms the regulator moves a pair-set by at most 25 mV toward its new setting. -/
  | voltageRampStep (port : PortNo)
  /-- `WEIR_CLAMP_ENGAGE` (R159): Pair-set current reaches 1.00 A, so the weir clamp engages and a fault event opens or continues. -/
  | weirClampEngage (port : PortNo) (ps : PairSet)
  /-- `WEIR_CLAMP_RELEASE` (R159): The clamped current falls below 1.00 A and the clamp releases. `energy`: let through since the clamp engaged, µJ. -/
  | weirClampRelease (port : PortNo) (ps : PairSet) (energy : BitVec 32)
  /-- `WEIR_ENERGY_TRIP` (R160): The fault event integral reaches 1.35 J or 12 ms, so the weir opens both pair-set switches. `energy`: let through since the clamp engaged, µJ. -/
  | weirEnergyTrip (port : PortNo) (energy : BitVec 32)
  /-- `WEIR_FAULT_EVENT_END` (R160): The clamp has stayed released for 100 ms, so the fault event ends and its sums reset. -/
  | weirFaultEventEnd (port : PortNo)
  /-- `WEIR_3S_TRIP` (R161): The 3 s mean power reaches 99.0 W, so the weir removes the port with REASON WEIR_3S. -/
  | weir3sTrip (port : PortNo)
  /-- `WEIR_OVERVOLTAGE` (R162): A pair-set exceeds 59.0 V for 10 µs, so the weir opens its switch with REASON REG_FAULT. -/
  | weirOvervoltage (port : PortNo) (ps : PairSet)
  /-- `WEIR_REFUSAL_END` (R160): The weir's own 1.0 s refusal of power after a weir removal ends. -/
  | weirRefusalEnd (port : PortNo)
  /-- `ALLOC_TICK` (R184): The 1 ms allocator tick computes budget, reservations and demand, sheds or grants, and sets the charge limit. The means sampled at the tick (R189, t0). -/
  | allocTick (m : EntryMeas) (ports : List PortMeas)
  /-- `DIP_RIDE_EXPIRED` (R184): A dip has lasted DIP_RIDE, or E_peak or the converter limit forces it, so ports must be shed. `cause`: 1 DIP_RIDE, 2 E_peak low, 3 converter limit; 0 acts as 1. -/
  | dipRideExpired (cause : Fin 4)
  /-- `EARMARK_EXPIRED` (R187): An earmark lapses after 500 ms without the port's request. -/
  | earmarkExpired (port : PortNo)
  /-- `SHED_RESTORE_WAIT_EXPIRED` (R186): The allocator has been out of a dip for 5 s, so shed ports become candidates for grants. -/
  | shedRestoreWaitExpired
  /-- `ALLOC_RESTORE` (R186): A write of 1 to ALLOC_CMD.RESTORE waives the 5 s wait once. -/
  | allocRestore (r : Req)
  /-- `SLUICE_DISCHARGE_START` (R190): A bus at its current limit or a rail sag starts the converter discharging into the rail. -/
  | sluiceDischargeStart
  /-- `SLUICE_DISCHARGE_STOP` (R190): Neither discharge condition holds any longer, so the converter stops discharging. -/
  | sluiceDischargeStop
  /-- `SLUICE_FULL` (R191): The bank reaches V_MAX, so charging stops and FULL is set. -/
  | sluiceFull
  /-- `SLUICE_CHARGE_RESUME` (R191): The bank falls 0.2 V below V_MAX, so charging resumes. -/
  | sluiceChargeResume
  /-- `RESERVE_OK_SET` (R196): The bank reaches V_RESERVE + 0.5 V, so RESERVE_OK is set. -/
  | reserveOkSet
  /-- `RESERVE_LOST` (R196): The bank falls below V_RESERVE, so RESERVE_OK clears and event 46 is raised outside PFW. -/
  | reserveLost
  /-- `RESERVE_GRANT_TIMEOUT` (R196): RESERVE_OK is still 0 five seconds after the port configuration loaded, so the allocator grants anyway and raises event 49. -/
  | reserveGrantTimeout
  /-- `SLUICE_CAP_MEASURED` (R194): A charge from below 28.0 V to 32.0 V measures C, updates V_RESERVE, and may set WORN. `c`: the charge delivered divided by the voltage rise, mF. -/
  | sluiceCapMeasured (c : BitVec 16)
  /-- `SLUICE_HOT` (R195): The bank temperature crosses 55 °C, so V_MAX changes and HOT is set or cleared. `temp`: the bank temperature, 0.01 °C, signed. -/
  | sluiceHot (temp : BitVec 16)
  /-- `SLUICE_CELL_FAULT` (R195): A cell fault is detected, so V_MAX is lowered and FAILED may be set with event 48. `vmax`: the highest V_MAX, mV, at which the highest cell stays at or below 2.70 V. -/
  | sluiceCellFault (present : Bool) (vmax : BitVec 16)
  /-- `RIDE_END` (R199): RIDE_TIME elapses or the bank reaches V_RESERVE, so the admitted ports are shed. -/
  | rideEnd
  /-- `PFW_SAVE_COMPLETE` (R200): The power-fail save of energy, recorder state and RETAIN data completes, and event 42 is raised if it was late. -/
  | pfwSaveComplete (us : BitVec 16) (ok : Bool)
  /-- `HOLDUP_LOST` (R201): The bank reaches V_FLOOR and every domain except backup loses power. `torn`: flash pages under program. -/
  | holdupLost (torn : List FlashPage)
  /-- `LUM_HELLO` (R214): A valid LUM_HELLO binds the port to the source MAC, is answered with ACCEPT, and the device enters CONFIG. -/
  | lumHello (port : PortNo) (src : BitVec 48) (linkLocal : Bool) (seq : BitVec 64) (tag : BitVec 16) (nodes : BitVec 8) (cold : Bool) (vendor : BitVec 32)
  /-- `LUM_BAD_DATAGRAM` (R208): A luminaire datagram that breaks R208 or R214 is dropped and counted. -/
  | lumBadDatagram (lane : Lane)
  /-- `LUM_HELLO_TIMEOUT` (R213): 30 s after link up without a valid LUM_HELLO the port goes to PLAIN. -/
  | lumHelloTimeout (port : PortNo)
  /-- `LUM_CONFIG_REPLY` (R215): A node answers LUM_CONFIG; when every accepted node has answered OK the device becomes LINKED. -/
  | lumConfigReply (port : PortNo) (src : BitVec 48) (node : Fin 4) (result : BitVec 16)
  /-- `LUM_CONFIG_RESEND` (R215): Every 100 ms LUM_CONFIG is sent again to each node that has not answered OK. -/
  | lumConfigResend (port : PortNo)
  /-- `LIGHT_TICK` (R217): At a light tick scene multicasts and one LUM_LEVEL per LINKED or LOST port are sent. -/
  | lightTick
  /-- `LUM_LEVEL_REPLY` (R218): A node's LUM_LEVEL reply is received and judged for validity. -/
  | lumLevelReply (port : PortNo) (src : BitVec 48) (seq : BitVec 64) (tag : BitVec 16) (result : BitVec 16) (entries : List LumStatus)
  /-- `LUM_LATE_REPLY` (R217): A reply arriving after the window closes is discarded and counted. -/
  | lumLateReply (port : PortNo)
  /-- `LUM_REPLY_WINDOW_CLOSE` (R217): 3 ms after the light tick the reply window closes and misses are counted. -/
  | lumReplyWindowClose
  /-- `LUM_IDENTIFY` (R238): A write to LUM_IDENT sends LUM_IDENTIFY to an accepted node. -/
  | lumIdentify (r : Req) (node : BitVec 8) (seconds : BitVec 16)
  /-- `FRAME_RECEIVED` (R246): A frame received on a switch port is charged, filtered by VLAN and forwarded or dropped. -/
  | frameReceived (k : EthPort) (f : Frame) (phy : PhySeen)
  /-- `PAUSE_REFRESH` (R248): Half of the pause time elapses with use above LOW, so the PAUSE is sent again. -/
  | pauseRefresh (k : EthPort)
  /-- `PAUSE_SEND_LOW` (R248): Ingress use falls to LOW, so a PAUSE with pause_time 0 is sent. -/
  | pauseSendLow (k : EthPort)
  /-- `PAUSE_RECEIVED` (R248): A received PAUSE frame holds or releases the port's transmit. -/
  | pauseReceived (k : EthPort) (quanta : BitVec 16)
  /-- `EGRESS_QUEUE_AGE_DROP` (R247): A frame that has waited 500 ms in an egress queue is dropped and counted. -/
  | egressQueueAgeDrop (k : EthPort) (queue : Fin 4)
  /-- `PORT_LINK_CHANGE` (R243): A switch port's link goes up or down, with uplink events and luminaire consequences. `speed` as ETH_PORT_STATUS.SPEED; `half`: the link resolved to half duplex; `eee`: the partner advertises low-power idle. -/
  | portLinkChange (k : EthPort) (up : Bool) (speed : BitVec 3) (half mdix eee : Bool)
  /-- `DUPLEX_RETRY` (R240): 2 s after a half-duplex refusal the link is tried again. -/
  | duplexRetry (k : EthPort)
  /-- `RATE_LOWER_DECISION` (R251): A quiet copper port meets the lowering conditions and auto-negotiation restarts at 100BASE-TX. -/
  | rateLowerDecision (k : PortNo)
  /-- `RATE_RAISE_DECISION` (R251): Traffic or a queue above threshold raises a lowered port to 1000BASE-T. -/
  | rateRaiseDecision (k : PortNo)
  /-- `RATE_CHANGE_LINK_UP` (R251): The link comes up at the new rate and the held frames are sent. -/
  | rateChangeLinkUp (k : PortNo)
  /-- `RATE_CHANGE_FAILED` (R251): No link 900 ms after restart, so the change is abandoned and event 461 is raised. -/
  | rateChangeFailed (k : PortNo)
  /-- `ETH_PORT_RAISE` (R265): A write of 1 to ETH_PORT_CMD.RAISE raises a lowered port. -/
  | ethPortRaise (r : Req) (k : EthPort)
  /-- `ETH_PORT_RELINK` (R265): A write of 1 to ETH_PORT_CMD.RELINK restarts auto-negotiation at the full rate. -/
  | ethPortRelink (r : Req) (k : EthPort)
  /-- `ETH_PORT_SNAP` (R262): A write of 1 to ETH_PORT_SNAP.GO copies all 48 counters in one clock. -/
  | ethPortSnap (r : Req) (k : EthPort)
  /-- `MGMT_VID_WRITE` (R264): A write to ETH_MGMT_VID is applied, or refused with RANGE when it names an enabled gallery's VID. -/
  | mgmtVidWrite (r : Req) (value : BitVec 32)
  /-- `MGMT_INTERFACE_REQUEST` (R244): The management interface answers ARP, neighbour solicitation or echo on an uplink VLAN. `uplink`: a for UPLINK-A; `vid`: the frame's tag, if it had one. -/
  | mgmtInterfaceRequest (uplink : Bus) (vid : Option (BitVec 12)) (ask : MgmtAsk)
  /-- `SFP_INSERTED` (R255): An SFP28 module is inserted, identified, and accepted or refused. `level`: the power level the module declares. -/
  | sfpInserted (cage : Bus) (level : BitVec 8) (kind : SfpKind)
  /-- `SFP_REMOVED` (R255): An SFP28 module is removed and event 450 or 451 is raised. -/
  | sfpRemoved (cage : Bus)
  /-- `SFP_ALARM_POLL` (R255): The 1 s poll reads SFF-8472 alarm flags and raises the cage event for new faults. `los`: the signal has been lost for 100 ms; `ddm`: the alarm flags of SFF-8472. -/
  | sfpAlarmPoll (cage : Bus) (txFault los : Bool) (ddm : BitVec 16)
  /-- `PTP_SYNC_RECEIVED` (R258): A gPTP sync corrects the rate and phase of the time counter. `offset` from the grandmaster, signed, ns; `rate`: REFCLK's offset as CLK_REF_OFFSET; `delayA`, `delayB`: link delays, ns. -/
  | ptpSyncReceived (offset : BitVec 64) (rate : BitVec 32) (steps : BitVec 8) (delayA delayB : BitVec 32)
  /-- `PTP_GM_SELECTED` (R257): A grandmaster is selected, moving LISTENING to SYNCING or GRANDMASTER. `best`: the best announce received, and the uplink it came through. -/
  | ptpGmSelected (best : Option (Bus × Announce))
  /-- `PTP_LOCK_ACHIEVED` (R257): The offset has been within 250 ns for 10 s, so the state becomes LOCKED. -/
  | ptpLockAchieved
  /-- `PTP_OFFSET_EXCEEDED` (R257): The offset has been above 1 µs for 1 s, so LOCKED falls to SYNCING and event 459 is raised. -/
  | ptpOffsetExceeded (offset : BitVec 32)
  /-- `PTP_SYNC_LOST` (R257): Sync or announce times out, so the state goes to HOLDOVER. -/
  | ptpSyncLost
  /-- `PTP_SYNC_RESUMED` (R257): Sync resumes in HOLDOVER, so the state returns to SYNCING. -/
  | ptpSyncResumed
  /-- `PTP_HOLDOVER_EXPIRED` (R257): 60 s in HOLDOVER ends, so the state returns to LISTENING. -/
  | ptpHoldoverExpired
  /-- `PTP_BETTER_GM` (R257): A better grandmaster is announced while this module is grandmaster, so it goes to SYNCING. -/
  | ptpBetterGm (uplink : Bus) (announce : Announce)
  /-- `PTP_ENABLE_CHANGE` (R257): ETH_PTP_CTRL.EN is set or cleared, moving the state to LISTENING or DISABLED. A write of `value` to ETH_PTP_CTRL. -/
  | ptpEnableChange (r : Req) (value : BitVec 32)
  /-- `CYCLE_TICK` (R279): The headgate's cycle tick latches the input image and applies grant, ownership, force and write changes in order. -/
  | cycleTick
  /-- `COMPUTE_START` (R279): All cells of the lane are released at S(n), after the image is complete and the previous cycle has ended. -/
  | computeStart (lane : Lane)
  /-- `CELLS_DONE` (R279): The last cell with partitions due signals done at D(n). `exec`: how long each task's execution took, in µs. -/
  | cellsDone (lane : Lane) (exec : List (Fin 64 × BitVec 32))
  /-- `COMMIT_START` (R280): At C(n) the commit ring commits each cell's staged outputs in slot order. -/
  | commitStart (lane : Lane)
  /-- `OUTPUT_RELEASE` (R281): At Rel(n) analogue outputs, port requests, CYCLIC CAN objects, light ticks and loop setpoints take effect. -/
  | outputRelease (lane : Lane)
  /-- `END_OF_CYCLE` (R282): RETAIN staging and the PAIRED state copy complete at E(n), and background work begins. -/
  | endOfCycle (lane : Lane)
  /-- `CYCLE_OVERRUN` (R284): E(n) has not come by the next tick plus 2 µs, so OVERRUN is set and event 512 is raised. -/
  | cycleOverrun (lane : Lane)
  /-- `LANE_WATCHDOG` (R285): Cycle n has not released by tick n + 4, so the lane stops and event 513 is raised. -/
  | laneWatchdog (lane : Lane)
  /-- `RETAIN_SET_COMMIT` (R302): The changed RETAIN pages and the set record are written, committing the set. -/
  | retainSetCommit (lane : Lane)
  /-- `RETAIN_LAG_DETECTED` (R303): The newest committed set becomes older than 8 cycles and 50 ms, so RETAIN_LAG is set and event 520 is raised. -/
  | retainLagDetected (lane : Lane)
  /-- `CELL_FAULT` (R305): A cell fault maps the cell out and moves its logical cell to the spare, with event 517. `readable`: its local memory can be read without an uncorrectable error. -/
  | cellFault (cell : Fin 272) (readable : Bool)
  /-- `COLD_NEXT_WRITE` (R309): A write to CYC_CMD.COLD_NEXT sets or clears the bit in both lanes. -/
  | coldNextWrite (r : Req) (on : Bool)
  /-- `CYC_CLR_STATS` (R309): A write of 1 to CYC_CMD.CLR_STATS clears the executor's counters. -/
  | cycClrStats (r : Req)
  /-- `LOOP_SUBFRAME_START` (R312): At a sub-frame start the engine latches the sources of every slot that samples there and queues them on the datapaths. -/
  | loopSubframeStart (lane : Lane)
  /-- `LOOP_COMPUTATION_DONE` (R313): A datapath finishes a slot's computation and writes the output to its destination. -/
  | loopComputationDone (lane : Lane) (slot : Fin 1024)
  /-- `LOOP_DATAPATH_CHECK` (R456): Once per second each datapath computes a known-answer descriptor; a wrong answer takes it out of service. -/
  | loopDatapathCheck (lane : Lane) (dp : Fin 4) (right : Bool)
  /-- `LOOP_CAPTURE_CLEAR` (R330): A write of 1 to LOOP_CAPb_CMD.CLEAR returns an idle or done buffer to IDLE. -/
  | loopCaptureClear (r : Req) (buffer : Fin 4)
  /-- `LOOP_CLR_STATS` (R333): A write of 1 to LOOP_CTRL.CLR_STATS clears the engine's and slots' maxima and counters. -/
  | loopClrStats (r : Req)
  /-- `METER_SAMPLE` (R339): Each 16 ksps sample is decimated, calibrated, filtered, phase-corrected and multiplied into power. -/
  | meterSample (x : MeterSample)
  /-- `PORT_METER_SAMPLE` (R351): Each 10 ksps port-meter increment is added and credited to the port's owner. PSE power in mW, the higher pair-set's voltage in mV, total current in mA. -/
  | portMeterSample (port : PortNo) (power volts amps : BitVec 32)
  /-- `LINE_CYCLE_END` (R344): At the end of a line cycle the energy registers increase and the gallery totals are credited. set A, set B or a nominal cycle; the crossing lies at this share of the latest sample. -/
  | lineCycleEnd (base : Fin 3) (frac : Fin 256)
  /-- `PULSE_START` (R354): A scheduled or pending pulse turns the output ON. -/
  | pulseStart (k : Fin 8)
  /-- `PULSE_END` (R354): A pulse's WIDTH expires and the output turns OFF for at least WIDTH. -/
  | pulseEnd (k : Fin 8)
  /-- `METER_LATCH` (R345): At the N-th line-cycle boundary all accumulators are captured and the per-interval quantities are computed. -/
  | meterLatch
  /-- `METER_PUBLISH` (R346): The captured set is published, after any deferral for a REG_READ of result words. `deferred`: a REG_READ of result words has held the publication back. -/
  | meterPublish (deferred : Bool)
  /-- `ENERGY_PERIODIC_SAVE` (R357): At the first latch after every 60 s the energy store is written to the retention store. `done`: the save completes. -/
  | energyPeriodicSave (done : Bool)
  /-- `MTR_SEAL` (R356): A write of 1 to MTR_SEAL.SEAL locks the revenue parameters and raises event 379. -/
  | mtrSeal (r : Req)
  /-- `MTR_UNSEAL` (R356): A write of 1 to MTR_SEAL.UNSEAL in SERVICE clears SEAL; otherwise it receives STATE. -/
  | mtrUnseal (r : Req)
  /-- `REVENUE_PARAM_WRITE` (R356): A write to a revenue parameter is refused while sealed, or counted with event 378 otherwise. `offset` in the MTR block, of a register that holds revenue parameters. -/
  | revenueParamWrite (r : Req) (offset : BitVec 16) (value : BitVec 32)
  /-- `METER_SELFCHECK_FAIL` (R363): A DSP channel fails its internal check and event 381 is raised. -/
  | meterSelfcheckFail (channel : BitVec 8)
  /-- `AIO_CONVERSION` (R368): Every 250 µs an input channel converts and updates its filtered value. `code` is the terminal's conversion, `readback` an output's readback conversion. -/
  | aioConversion (ch : Fin 16) (code readback : BitVec 16)
  /-- `AIO_READBACK_MISMATCH` (R371): The readback differs by more than 0.5 % for 10 ms, declaring RB_MISMATCH. -/
  | aioReadbackMismatch (ch : Fin 16)
  /-- `AIO_DRIVER_FAULT` (R372): Driver headroom or the current limit held for 10 ms declares OPEN_LOOP, COMPLIANCE or OUT_SHORT. `headroom` in mV and the driver's own `current` in µA. -/
  | aioDriverFault (ch : Fin 16) (headroom current : BitVec 16)
  /-- `AIO_INPUT_FAULT` (R373): An input fault cause (low, high, broken, loop supply) becomes present and event k = 0 is raised. `cause` 1–4 as R373 numbers it. -/
  | aioInputFault (ch : Fin 16) (cause : Fin 5)
  /-- `AIO_GROUP_SUPPLY_FAULT` (R373): A group's isolated supply leaves regulation for 1 ms, setting GROUP_SUPPLY on its channels. -/
  | aioGroupSupplyFault (group : Fin 4)
  /-- `AIO_FAULT_CLEARED` (R373): The last fault cause clears after its filter and event k = 1 is raised. `cause` 1–9: the one that clears. -/
  | aioFaultCleared (ch : Fin 16) (cause : Fin 10)
  /-- `AIO_LS_RETRY` (R373): Every 1 s a switched-off loop supply is retried. `current`: the largest current of the loop supply in the 100 ms after the retry, µA. -/
  | aioLsRetry (ch : Fin 16) (current : BitVec 16)
  /-- `AIO_SURGE` (R375): A protection clamp conducts, so SURGE_SEEN is set and fault judgement is suspended. -/
  | aioSurge (ch : Fin 16)
  /-- `AIO_SURGE_SUSPEND_END` (R375): 100 ms after the clamp releases fault judgement resumes. -/
  | aioSurgeSuspendEnd (ch : Fin 16)
  /-- `AIO_CFG_APPLY` (R377): A written AIO_CHnn_CFG takes effect at the next Rel(n), with the 1 ms mode-change idle. -/
  | aioCfgApply (ch : Fin 16)
  /-- `CAN_LEAVE_INIT` (R384): INIT := 0 leaves INIT if the bit-timing checks pass, or sets CONFIG_ERR otherwise. the write of CANn_CTRL with INIT = 0. -/
  | canLeaveInit (r : Req) (ctl : Fin 4) (value : BitVec 32)
  /-- `CAN_ENTER_INIT` (R386): INIT := 1 puts the controller in INIT and withdraws pending transmissions. the write of CANn_CTRL with INIT = 1. -/
  | canEnterInit (r : Req) (ctl : Fin 4) (value : BitVec 32)
  /-- `CAN_INTEGRATION_DONE` (R386): 11 consecutive recessive bits move INTEGRATING to ERROR_ACTIVE. -/
  | canIntegrationDone (ctl : Fin 4)
  /-- `CAN_BUS_ERROR` (R386): A bus error changes the error counters and may move the controller to ERROR_PASSIVE or BUS_OFF. `kind` as LAST_ERR, `tec` and `rec` the counts that ISO 11898-1 gives after the error. -/
  | canBusError (ctl : Fin 4) (kind : Fin 7) (tec : BitVec 10) (rec : BitVec 9)
  /-- `CAN_RECOVER` (R386): A write of 1 to CANn_CMD.RECOVER starts recovery from BUS_OFF. -/
  | canRecover (r : Req) (ctl : Fin 4)
  /-- `CAN_RECOVERY_DONE` (R386): 128 occurrences of 11 recessive bits return the controller to ERROR_ACTIVE. -/
  | canRecoveryDone (ctl : Fin 4)
  /-- `CAN_FRAME_RECEIVED` (R389): A valid data frame is taken by the lowest matching receive object, or counted as unmatched. -/
  | canFrameReceived (ctl : Fin 4) (xtd : Bool) (ident : BitVec 29) (fdf : Bool) (dlc : BitVec 4) (data : List Byte) (tec : BitVec 10) (rec : BitVec 9)
  /-- `CAN_REMOTE_FRAME` (R381): A remote frame is acknowledged, not stored, and counted. -/
  | canRemoteFrame (ctl : Fin 4)
  /-- `CAN_RX_TIMEOUT` (R390): A receive object hears no frame for TIMEOUT ms, so STALE is set. -/
  | canRxTimeout (ctl : Fin 4) (obj : Fin 128)
  /-- `CAN_TXREQ` (R394): A write of 1 to a CANn_TXREQw bit makes that object's frame pending at once. -/
  | canTxreq (r : Req) (ctl : Fin 4) (w : Fin 4) (bits : BitVec 32)
  /-- `CAN_FRAME_SENT` (R395): A pending frame is sent successfully and counted. the first pending frame in the order of R394 has been sent; `tdc` is the loop delay measured in it, in mtq. -/
  | canFrameSent (ctl : Fin 4) (tdc : BitVec 16) (tec : BitVec 10) (rec : BitVec 9)
  /-- `CAN_ARBITRATION_LOST` (R395): A frame loses arbitration or meets an error and is retried, or fails once its retries are used up. -/
  | canArbitrationLost (ctl : Fin 4)
  /-- `CAN_REPEAT_START` (R397): 1.5 × DIV × T without a release starts the controller repeating the last payload. -/
  | canRepeatStart (ctl : Fin 4) (obj : Fin 128)
  /-- `CAN_REPEAT_SEND` (R397): Each DIV × T while REPEATING the last payload is sent again. -/
  | canRepeatSend (ctl : Fin 4) (obj : Fin 128)
  /-- `CAN_HEADER_WRITE` (R398): A write changing an active object's ID, MASK, CTL or signal descriptor puts it in RECONFIG. word `w` of the header of object `n`, or of signal descriptor `n`. -/
  | canHeaderWrite (r : Req) (ctl : Fin 4) (descr : Bool) (n : Fin 512) (w : Fin 3) (value : BitVec 32)
  /-- `CAN_DOMINANT_TIMEOUT` (R382): A dominant level held for 4.0 ms is cut off and DOM_TIMEOUT is set. -/
  | canDominantTimeout (ctl : Fin 4)
  /-- `CAN_TRANSCEIVER_SUPPLY` (R405): A controller's isolated supply leaves regulation for 1 ms and the transceiver event is raised. -/
  | canTransceiverSupply (ctl : Fin 4)
  /-- `CAN_MODE_APPLY` (R387): A changed CANn_CTRL.MODE takes effect at the next bus idle. -/
  | canModeApply (ctl : Fin 4)
  /-- `CAN_CLR_STATS` (R402): A write of 1 to CANn_CMD.CLR_STATS clears the controller's counters. -/
  | canClrStats (r : Req) (ctl : Fin 4)
  /-- `LANE_DIRECT_FAILURE` (R417): A direct cause (watchdog, lockstep, memory, supply or clock) makes the headgate decide that a lane has failed. `cause`: 2 watchdog, 3 lockstep, 4 memory, 5 supply or clock. -/
  | laneDirectFailure (lane : Lane) (cause : Fin 16)
  /-- `HEARTBEAT_MISS` (R418): A heartbeat path passes 255 µs, or a further 250 µs, without a heartbeat and a miss is counted. -/
  | heartbeatMiss (path : HbPath)
  /-- `HEARTBEAT_PATH_RESTORED` (R419): 4,000 consecutive heartbeats on an impaired path restore it. -/
  | heartbeatPathRestored (path : HbPath)
  /-- `PARTNER_HEARTBEAT_CHANGE` (R420): The partner module's heartbeat input is lost or returns, and event 584 is raised. -/
  | partnerHeartbeatChange (input : Bus) (ok : Bool)
  /-- `TAKEOVER_TICK` (R421): At the first tick at least 10 µs after the decision, grants move to the standby, which starts cycles. -/
  | takeoverTick
  /-- `PLANNED_HANDOVER` (R425): At tick n + 1 after a complete copy the standby becomes ACTIVE with a HOT start. -/
  | plannedHandover
  /-- `STATE_COPY_COMPLETE` (R415): The standby acknowledges every frame of the cycle's copy and applies its lines in one step. `dirty` in KiB, `time` in µs; frames failing CRC-32C and sent again. -/
  | stateCopyComplete (dirty time crc resent : BitVec 16)
  /-- `STATE_COPY_DISCARD` (R416): A copy that cannot complete is discarded and counted; the standby keeps its previous copy. -/
  | stateCopyDiscard (crc resent : BitVec 16)
  /-- `LANE_STARTING_COMPLETE` (R412): A lane passes its start-up self-test and loads the image, entering SYNCING, ACTIVE, WIDE_RUN or SERVICE_TEST. `image`, `settings`: what the lane's flash holds in force, used when the module has none yet. -/
  | laneStartingComplete (lane : Lane) (image : Option ProgImage) (settings : Option SettingsImage)
  /-- `SYNC_COMPLETE` (R426): A SYNCING lane holds a complete copy at E(n) and becomes STANDBY and current. -/
  | syncComplete
  /-- `GALLERY_RESTORE_TICK` (R427): A returning lane takes back shed galleries at the next tick with a WARM start, raising event 579. -/
  | galleryRestoreTick (lane : Lane)
  /-- `HG_REBALANCE` (R427): A write of 1 to HG_CMD.REBALANCE moves taken-over galleries back at the next tick. -/
  | hgRebalance (r : Req)
  /-- `HG_REJOIN` (R412): A write of 1 to HG_CMD.REJOIN releases a RETIRED lane. -/
  | hgRejoin (r : Req)
  /-- `LANE_FAILED_RETRY` (R412): 1 s after a failure, with fewer than three in the hour, the lane is reset and released. -/
  | laneFailedRetry (lane : Lane)
  /-- `EXERCISE_STAGE_DONE` (R430): A stage of an exercise ends and the next stage, or the result with event 582, follows. -/
  | exerciseStageDone
  /-- `EXERCISE_AGE_HOUR` (R431): HG_EXER_AGE advances by an hour, and event 583 is raised at MAX_AGE and every 24 h after. -/
  | exerciseAgeHour
  /-- `HEADGATE_DISAGREE` (R432): HG0 and HG1 disagree for 2 periods, so the module enters HOLD with cause DISAGREE. -/
  | headgateDisagree
  /-- `HEADGATE_COPY_SILENT` (R432): A headgate copy's compare strobe is absent for 4 periods, so the module enters HOLD with cause COPY_SILENT. -/
  | headgateCopySilent (copy : HgCopy)
  /-- `LANE_CHOICE` (R433): A lane-select line is held low for 10 µs, and the choice is taken, ignored or recorded, with event 7. -/
  | laneChoice (lane : Lane)
  /-- `SINGLE_COPY_SILENT` (R434): The speaking copy falls silent in SINGLE, so the monitor resets the lanes and the module enters SAFE. -/
  | singleCopySilent
  /-- `NO_LANE_TIMEOUT` (R435): No lane completes STARTING within 60 s of NO_LANE, so the module enters SAFE. -/
  | noLaneTimeout
  /-- `HG_RST_CMD_DOMAIN` (R448): A write of domain bits to HG_RST_CMD requests a commanded reset of those domains. -/
  | hgRstCmdDomain (r : Req) (value : BitVec 32)
  /-- `ENTER_SAFE_COMMAND` (R463): A write of 1 to HG_RST_CMD.ENTER_SAFE in SERVICE puts the module in SAFE. -/
  | enterSafeCommand (r : Req)
  /-- `BLOCK_WATCHDOG` (R441): SWITCH, METER or CAN firmware fails to service its watchdog for 10 ms, requesting a reset. -/
  | blockWatchdog (dom : Dom)
  /-- `RESET_COMMAND_DUE` (R445): 1 ms after the command's reply leaves, quiesce starts and isolation engages. -/
  | resetCommandDue (dom : Dom)
  /-- `DOMAIN_QUIESCED` (R446): The domain goes idle and its reset is asserted, with event 636. -/
  | domainQuiesced (dom : Dom)
  /-- `QUIESCE_TIMEOUT` (R446): The domain is still busy 10 ms after the quiesce began, so reset is asserted anyway. -/
  | quiesceTimeout (dom : Dom)
  /-- `DOMAIN_RESET_RELEASE` (R443): After the reset width a domain is released synchronously, slowest clock first. -/
  | domainResetRelease (dom : Dom)
  /-- `SHARED_FW_RELOADED` (R445): The answering lane reloads a reset domain's firmware and configuration, and isolation lifts. -/
  | sharedFwReloaded (dom : Dom)
  /-- `RESET_BACKOFF_EXPIRED` (R451): The 10 s back-off delay of a repeatedly reset domain ends and its release proceeds. -/
  | resetBackoffExpired (dom : Dom)
  /-- `NV_PULSE_END` (R449): A flash or MRAM pulse under way at reset ends and the NV interface then takes reset. -/
  | nvPulseEnd (dom : Dom)
  /-- `STARTUP_SELFTEST_DONE` (R452): A lane's start-up self-test ends and its report is written, with event 594. -/
  | startupSelftestDone (lane : Lane) (test : SelfTest)
  /-- `BIST_SLICE_DUE` (R456): Every INTERVAL a runtime BIST slice starts on the position under test, or is skipped. `volt`, `clock`: the deviations of the cluster's core supply and of CLK_FAB from nominal, signed, 0.01 % per unit. -/
  | bistSliceDue (lane : Lane) (cluster : Fin 8) (volt clock : BitVec 16)
  /-- `BIST_SLICE_DONE` (R459): A 2 ms slice ends; it passes, or a mismatch maps the position out with event 592. `volt`, `clock`: as in `bistSliceDue`, the largest of the slice; `pass`: the signature matches. -/
  | bistSliceDone (lane : Lane) (cluster : Fin 8) (volt clock : BitVec 16) (pass : Bool)
  /-- `SERVICE_PASS_DONE` (R461): A full SERVICE self-test pass ends and its report is written. -/
  | servicePassDone (lane : Lane) (test : SelfTest)
  /-- `RTC_SNAP_SEC_READ` (R472): A read of RTC_SNAP_SEC freezes the calendar fields into the shadow registers. -/
  | rtcSnapSecRead (r : Req)
  /-- `RTC_SNAP_YEAR_READ` (R472): A read of RTC_SNAP_YEAR returns the frozen year and ends the freeze. -/
  | rtcSnapYearRead (r : Req)
  /-- `RTC_FREEZE_TIMEOUT` (R472): A calendar freeze ends 33 oscillator periods after it began. -/
  | rtcFreezeTimeout
  /-- `RTC_LOAD` (R473): A write of 1 to RTC_CTRL.LOAD sets the calendar from RTC_SET, or sets SET_ERR. `value`: the word written to RTC_CTRL, with LOAD 1. -/
  | rtcLoad (r : Req) (value : BitVec 32)
  /-- `RTC_DISCIPLINE_COMPARE` (R474): At each whole gPTP second the RTC is compared with UTC and stepped or slewed. `announced`: the grandmaster's currentUtcOffset when it marks it valid; `rate`, `phase`: the learnt correction of the crystal's rate and the phase correction of a slew, signed, 0.1 ppm. -/
  | rtcDisciplineCompare (announced : Option (BitVec 16)) (rate phase : BitVec 16)
  /-- `RTC_OSC_STOPPED` (R476): The stop detector sees no oscillator edge for 1 ms and sets OSF. -/
  | rtcOscStopped
  /-- `RTC_CALENDAR_WRAP` (R471): The calendar passes 2199-12-31 23:59:59, wraps to 2000 and sets OSF with cause 0x04. -/
  | rtcCalendarWrap
  /-- `RTC_OSF_CLEAR` (R476): A W1C write of OSF clears the flag and the first switch-over stamp. -/
  | rtcOsfClear (r : Req)
  /-- `BACKUP_SWITCHOVER` (R477): Main power fails and the backup domain moves to the coin cell, stamping the switch-over. -/
  | backupSwitchover
  /-- `COIN_CELL_MEASURE` (R478): The coin cell is measured under load at power-on and every 24 h, setting or clearing CELL_LOW. -/
  | coinCellMeasure (mv : BitVec 16)
  /-- `BACKUP_BROWN_OUT` (R479): The armed detector sees the cell below 1.60 V, so the backup domain is lost. -/
  | backupBrownOut
  /-- `CISTERN_UPDATE` (R480): A write to cistern DATA increments WCOUNT and recomputes CHECK. `words` go to DATA from `word` on. -/
  | cisternUpdate (r : Req) (word : Fin 126) (words : List (BitVec 32))
  /-- `RECORDER_SAMPLE` (R484): A descriptor samples its source every INTERVAL and adds the sample to its open record. -/
  | recorderSample (extreme : Bool) (desc : Fin 64)
  /-- `RECORDER_EPOCH_END` (R486): A record has spent its epoch of operating hours, so it closes. -/
  | recorderEpochEnd (extreme : Bool) (desc : Fin 64)
  /-- `RECORDER_FLUSH` (R487): Once per second pending increments are written to the store with updated CRCs. -/
  | recorderFlush
  /-- `RECORDER_FREEZE_EXPIRED` (R488): A freeze ends FREEZE_MAX seconds after it began and event 615 is raised. -/
  | recorderFreezeExpired
  /-- `RECORDER_CLEAR` (R489): A write of 1 to FLOW_CMD.CLEAR while frozen frees every slot and raises event 616. -/
  | recorderClear (r : Req)
  /-- `FLOW_DESCRIPTOR_CHANGE` (R486): A write to a descriptor closes its record and a new one opens at the next sample. `reg`: 0 CFG, 1 SRC, 2 LOW, 3 WIDTH. -/
  | flowDescriptorChange (r : Req) (extreme : Bool) (desc : Fin 64) (reg : Fin 4) (value : BitVec 32)
  /-- `OPERATING_HOURS_STEP` (R483): Every 360 s of valid main power the operating hours advance by 0.1 h. -/
  | operatingHoursStep
  /-- `KEY_AREA_WRITE_DONE` (R503): The new slot copy is written and read back, and the new contents take effect with events. `ok`: the copy was written and read back. -/
  | keyAreaWriteDone (ok : Bool)
  /-- `CKV_DATA_WRITE` (R509): A write to CKVi_DATA feeds four bytes into the running CRC. -/
  | ckvDataWrite (r : Req) (unit : Fin 4) (value : BitVec 32)
  /-- `CKV_FOLD` (R509): A write of 1 to CKVi_CMD.FOLD feeds the eight fold bytes. -/
  | ckvFold (r : Req) (unit : Fin 4)
  /-- `CKV_INIT` (R509): A write of 1 to CKVi_CMD.INIT loads INIT into VALUE. -/
  | ckvInit (r : Req) (unit : Fin 4)
  /-- `CKV_START` (R510): A write of 1 to CKVi_CMD.START begins a scan, or is refused with RANGE. -/
  | ckvStart (r : Req) (unit : Fin 4)
  /-- `CKV_ABORT` (R511): A write of 1 to CKVi_CMD.ABORT stops a running scan with ERR_CODE 0x5. -/
  | ckvAbort (r : Req) (unit : Fin 4)
  /-- `CKV_SCAN_COMPLETE` (R510): A scan feeds all its bytes, with any fold after, and sets DONE. `fed`: what the scan read. -/
  | ckvScanComplete (lane : Lane) (unit : Fin 4) (fed : List Byte)
  /-- `CKV_SCAN_FAULT` (R511): A scan meets a failing access and stops early with an error code and event 632. `fed`: what the scan read before the cause `code` at `addr`. -/
  | ckvScanFault (lane : Lane) (unit : Fin 4) (code : Fin 16) (fed : List Byte) (addr : BitVec 32)
  /-- `CKV_VALUE_WRITE` (R515): A write to CKVi_VALUE_LO or VALUE_HI sets the running register and the latch as laid down. -/
  | ckvValueWrite (r : Req) (unit : Fin 4) (high : Bool) (value : BitVec 32)
  /-- `SIPHON_HANDOVER_TICK` (R524): At the handover tick the first lane takes over and the confirm window starts. -/
  | siphonHandoverTick
  /-- `SIPHON_T3_LATE` (R526): The first lane is not ready by the bound of t3, so the siphon falls back. -/
  | siphonT3Late
  /-- `UPDATE_CONFIRM_WINDOW_EXPIRED` (R526): The confirm window ends without confirmation and the headgate falls back with event 588. -/
  | updateConfirmWindowExpired
  /-- `TRANSFER_ABANDONED` (R521): A transfer with no IMAGE_DATA for 600 s is abandoned. -/
  | transferAbandoned
  /-- `PROGRAM_IMAGE_START` (R528): A committed program image starts on both lanes at the first tick at least 20 µs after the reply. -/
  | programImageStart
  /-- `SETTINGS_IMAGE_START` (R529): A committed settings image starts whole at the first tick at least 20 µs after the reply. -/
  | settingsImageStart
  /-- `SNAPSHOT_STROBE` (R541): The time counter reaches INSTANT and every enabled snapshot entry is copied in one clock. `late`: the time counter passed INSTANT by a correction of its phase. -/
  | snapshotStrobe (late : Bool)
  /-- `SNAPSHOT_RECORD_COMPLETE` (R543): The snapshot record is completed with its CRC, the window swaps and READY is set. -/
  | snapshotRecordComplete
  /-- `HEARTBEAT_RECEIVED` (R418): A lane heartbeat arrives on its wire or culvert path, or a partner pulse on HB_PA or HB_PB, ending the current run of misses and counting toward restoring an impaired path. -/
  | heartbeatReceived (path : HbPath)
  /-- `CULVERT_LINK_CHANGE` (R416): A culvert link between the lanes goes down or finishes training, changing RED_STATUS.CULVERT_UP and the state copy's ability to complete. the link that leaves `lane`. -/
  | culvertLinkChange (lane : Lane) (up : Bool)
  /-- `RTC_OSC_RESTARTED` (R476): The stopped 32.768 kHz RTC oscillator starts again, and the calendar resumes from the value it held. -/
  | rtcOscRestarted
  /-- `PAUSE_QUANTA_EXPIRED` (R248): The pause time of a received PAUSE frame runs out, so the port's transmit resumes and PAUSED clears. -/
  | pauseQuantaExpired (k : EthPort)
  /-- `ADDRESS_AGED_OUT` (R264): A learned source address entry in the switch's table reaches ETH_CTRL.AGE_TIME without refresh and is removed, so later frames to it are flooded. -/
  | addressAgedOut (vid : BitVec 12) (mac : BitVec 48)
deriving DecidableEq, Repr

end Sys2Proof
end

