-- ==== Sys2Proof/Decode.lean ====
section
/-! DEFINITION. The table of operations and events gives no row a word of bits, so no word spells a command. -/

namespace Sys2Proof

/-- The command that the `nbits` low bits of `w` spell: no row of the table gives bits. -/
def decodeTableWord (_nbits _w : Nat) : Option Instr := none

end Sys2Proof
end

