-- ==== Sys2Proof/Config.lean ====
section
/-! DEFINITION. The free values of the model: what the spec leaves open, each an uninterpreted constant applied to the
model's own count of the free values taken so far. Nothing in Lean can evaluate them. -/

namespace Sys2Proof.Config

/-- A word the spec calls random or leaves without a stated value: SESSION_ID (R82), NONCE_M (R81), LUM_EPOCH (R209) and the unstated
results named in the assumption log. -/
opaque freeWord : Nat → BitVec 32

/-- The 256 root bits of this module's fuses (R496). -/
opaque rootBits : BitVec 256

/-- The commissioning key that the factory loads into slot 1 (R494). -/
opaque commissioningKey : BitVec 256

/-- The firmware verification keys of slots 2 and 3, 97 bytes each (R494). -/
opaque verifyKey : Bool → BitVec 776

/-- The position of a cluster that the factory has mapped out by fuse, if any (R304, R309). -/
opaque fusedPos : Nat → Option (Fin 17)

/-- The result of a standard function whose value the spec does not give (R270, R271), by function, data type code and operands. -/
opaque mathFn : Nat → BitVec 4 → BitVec 64 → BitVec 64 → BitVec 64

/-- The sign and the fraction of the NaN that an invalid operation gives (R271), by data type code. -/
opaque nanBits : BitVec 4 → BitVec 64

/-- The text of a number, and the number in a text (R270), by data type code. -/
opaque numberText : BitVec 4 → BitVec 64 → List Byte
opaque textNumber : BitVec 4 → List Byte → BitVec 64

end Sys2Proof.Config
end

