-- ==== Sys2Proof/Machine/Fields.lean ====
section
/-! DEFINITION. The named fields of the registers, each as its register's offset from the base of its block
instance (or, for a family, from the base of the family's instance), lowest bit and width, as the register tables
of the spec give them. -/

namespace Sys2Proof.Machine

/-- A register field: the register's offset from the instance base, its lowest bit and its width. -/
structure Fld where
  off : Nat
  lo : Nat
  width : Nat
deriving DecidableEq, Repr

def CLK_STATUS_REFCLK_LOST_SEEN : Fld := ⟨0x18000, 9, 1⟩
def CLK_STATUS_UNLOCK_SEEN : Fld := ⟨0x18000, 8, 1⟩
def CLK_STATUS_RTCOSC_OK : Fld := ⟨0x18000, 2, 1⟩
def CLK_STATUS_REFCLK_OK : Fld := ⟨0x18000, 1, 1⟩
def CLK_STATUS_PLL_LOCK : Fld := ⟨0x18000, 0, 1⟩
def CLK_UNLOCK_CNT_COUNT : Fld := ⟨0x18004, 0, 16⟩
def CLK_REF_OFFSET : Fld := ⟨0x18008, 0, 32⟩
def CLK_REFLOST_TIME : Fld := ⟨0x1800C, 0, 32⟩
def SYS_ID_VENDOR : Fld := ⟨0x0, 16, 16⟩
def SYS_ID_PART : Fld := ⟨0x0, 0, 16⟩
def SYS_REV_HW_REV : Fld := ⟨0x4, 24, 8⟩
def SYS_REV_FW_MAJOR : Fld := ⟨0x4, 16, 8⟩
def SYS_REV_FW_MINOR : Fld := ⟨0x4, 8, 8⟩
def SYS_REV_FW_PATCH : Fld := ⟨0x4, 0, 8⟩
def SYS_SERIAL_LO : Fld := ⟨0x8, 0, 32⟩
def SYS_SERIAL_HI : Fld := ⟨0xC, 0, 32⟩
def SYS_STATUS_MODE : Fld := ⟨0x10, 26, 3⟩
def SYS_STATUS_LANE_ACTIVE : Fld := ⟨0x10, 25, 1⟩
def SYS_STATUS_DEGRADED : Fld := ⟨0x10, 24, 1⟩
def SYS_STATUS_UPDATE_PENDING : Fld := ⟨0x10, 23, 1⟩
def SYS_STATUS_TIME_UNTRUSTED : Fld := ⟨0x10, 22, 1⟩
def SYS_STATUS_RECORDER_FULL : Fld := ⟨0x10, 21, 1⟩
def SYS_DOMAINS_IN_RESET : Fld := ⟨0x14, 0, 8⟩
def SYS_UPTIME_LO : Fld := ⟨0x18, 0, 32⟩
def SYS_UPTIME_HI : Fld := ⟨0x1C, 0, 32⟩
def SYS_SLOT_SLOT_ID : Fld := ⟨0x20, 0, 8⟩
def ALLOC_ENTRY_STATUS_PFW_SEEN : Fld := ⟨0x90000, 15, 1⟩
def ALLOC_ENTRY_STATUS_B_OV_SEEN : Fld := ⟨0x90000, 14, 1⟩
def ALLOC_ENTRY_STATUS_A_OV_SEEN : Fld := ⟨0x90000, 13, 1⟩
def ALLOC_ENTRY_STATUS_B_LOST_SEEN : Fld := ⟨0x90000, 12, 1⟩
def ALLOC_ENTRY_STATUS_A_LOST_SEEN : Fld := ⟨0x90000, 11, 1⟩
def ALLOC_ENTRY_STATUS_MATED : Fld := ⟨0x90000, 7, 1⟩
def ALLOC_ENTRY_STATUS_PFW : Fld := ⟨0x90000, 6, 1⟩
def ALLOC_ENTRY_STATUS_B_REVERSED : Fld := ⟨0x90000, 5, 1⟩
def ALLOC_ENTRY_STATUS_A_REVERSED : Fld := ⟨0x90000, 4, 1⟩
def ALLOC_ENTRY_STATUS_B_OV : Fld := ⟨0x90000, 3, 1⟩
def ALLOC_ENTRY_STATUS_A_OV : Fld := ⟨0x90000, 2, 1⟩
def ALLOC_ENTRY_STATUS_B_PRESENT : Fld := ⟨0x90000, 1, 1⟩
def ALLOC_ENTRY_STATUS_A_PRESENT : Fld := ⟨0x90000, 0, 1⟩
def ALLOC_BUS_A_CURRENT : Fld := ⟨0x90004, 16, 16⟩
def ALLOC_BUS_A_VOLTAGE : Fld := ⟨0x90004, 0, 16⟩
def ALLOC_BUS_B_CURRENT : Fld := ⟨0x90008, 16, 16⟩
def ALLOC_BUS_B_VOLTAGE : Fld := ⟨0x90008, 0, 16⟩
def ALLOC_RAIL_VOLTAGE : Fld := ⟨0x9000C, 0, 16⟩
def ALLOC_INPUT_P : Fld := ⟨0x90010, 0, 32⟩
def ALLOC_PFW_CNT_COUNT : Fld := ⟨0x90014, 0, 16⟩
def ALLOC_THERM_HOTSPOT : Fld := ⟨0x90020, 16, 16⟩
def ALLOC_THERM_INLET : Fld := ⟨0x90020, 0, 16⟩
def ALLOC_FAN_STATUS_DUTY : Fld := ⟨0x90024, 8, 8⟩
def ALLOC_FAN_STATUS_FAN_OK : Fld := ⟨0x90024, 0, 4⟩
def ALLOC_FAN_SPEED_12_FAN2 : Fld := ⟨0x90028, 16, 16⟩
def ALLOC_FAN_SPEED_12_FAN1 : Fld := ⟨0x90028, 0, 16⟩
def ALLOC_FAN_SPEED_34_FAN4 : Fld := ⟨0x9002C, 16, 16⟩
def ALLOC_FAN_SPEED_34_FAN3 : Fld := ⟨0x9002C, 0, 16⟩
def ALLOC_THERM_DERATE_PERCENT : Fld := ⟨0x90030, 0, 8⟩
def EVT_STATUS_OVERRUN : Fld := ⟨0x40000, 31, 1⟩
def EVT_STATUS_USED : Fld := ⟨0x40000, 16, 11⟩
def EVT_STATUS_UNACKED : Fld := ⟨0x40000, 0, 11⟩
def EVT_NEWEST : Fld := ⟨0x40004, 0, 32⟩
def EVT_OLDEST : Fld := ⟨0x40008, 0, 32⟩
def EVT_PLIAK_AUTHFAIL : Fld := ⟨0x4000C, 0, 32⟩
def EVT_PLIAK_DROP : Fld := ⟨0x40010, 0, 32⟩
def EVT_PLIAK_REPLAY : Fld := ⟨0x40014, 0, 32⟩
def EVT_PLIAK_LOAD_TAGS : Fld := ⟨0x40018, 16, 12⟩
def EVT_PLIAK_LOAD_SESSIONS : Fld := ⟨0x40018, 0, 7⟩
def CAB_CTRL_DOORBELL_EN : Fld := ⟨0x1000, 1, 1⟩
def CAB_CTRL_MIRROR_EN : Fld := ⟨0x1000, 0, 1⟩
def CAB_STATUS_DB_STATE : Fld := ⟨0x1004, 2, 2⟩
def CAB_STATUS_MAP_OVERFLOW : Fld := ⟨0x1004, 1, 1⟩
def CAB_STATUS_PINNED : Fld := ⟨0x1004, 0, 1⟩
def CAB_SKIPPED_SWAPS : Fld := ⟨0x1008, 0, 32⟩
def CAB_DB_ERR : Fld := ⟨0x100C, 0, 32⟩
def CAB_MAP_USED_BYTES : Fld := ⟨0x1010, 0, 12⟩
def CAB_MAP_SRC : Fld := ⟨0x0, 0, 32⟩
def CAB_MAP_CTL_EN : Fld := ⟨0x4, 31, 1⟩
def CAB_MAP_CTL_KIND : Fld := ⟨0x4, 30, 1⟩
def CAB_MAP_CTL_COUNT : Fld := ⟨0x4, 0, 10⟩
def HG_GAL_CFG_EN : Fld := ⟨0x0, 31, 1⟩
def HG_GAL_CFG_ESSENTIAL : Fld := ⟨0x0, 30, 1⟩
def HG_GAL_CFG_WIDE_LANE : Fld := ⟨0x0, 29, 1⟩
def HG_GAL_CFG_VLAN_LOCK : Fld := ⟨0x0, 28, 1⟩
def HG_GAL_CFG_MAX_SESSIONS : Fld := ⟨0x0, 16, 8⟩
def HG_GAL_CFG_VID : Fld := ⟨0x0, 0, 12⟩
def HG_GAL_STAT_SESSIONS : Fld := ⟨0x4, 16, 7⟩
def HG_GAL_STAT_POINTS : Fld := ⟨0x4, 0, 14⟩
def HG_GAL_LIVE_EN : Fld := ⟨0x8, 31, 1⟩
def HG_GAL_LIVE_ESSENTIAL : Fld := ⟨0x8, 30, 1⟩
def HG_GAL_LIVE_WIDE_LANE : Fld := ⟨0x8, 29, 1⟩
def HG_GAL_LIVE_VLAN_LOCK : Fld := ⟨0x8, 28, 1⟩
def HG_GAL_LIVE_MAX_SESSIONS : Fld := ⟨0x8, 16, 8⟩
def HG_GAL_LIVE_VID : Fld := ⟨0x8, 0, 12⟩
def HG_OWN_APPLY_GO : Fld := ⟨0x13000, 0, 1⟩
def HG_OWN_RESULT_OFFSET : Fld := ⟨0x13004, 16, 16⟩
def HG_OWN_RESULT_CODE : Fld := ⟨0x13004, 0, 4⟩
def HG_OWN_CYCLE : Fld := ⟨0x13008, 0, 32⟩
def HG_OWN_WRDROP : Fld := ⟨0x1300C, 0, 32⟩
def HG_OWN_PORT_PENDING : Fld := ⟨0x0, 8, 6⟩
def HG_OWN_PORT_OWNER : Fld := ⟨0x0, 0, 6⟩
def HG_OWN_I_PENDING : Fld := ⟨0x0, 8, 6⟩
def HG_OWN_I_OWNER : Fld := ⟨0x0, 0, 6⟩
def HG_OWN_AIO_PENDING : Fld := ⟨0x0, 8, 6⟩
def HG_OWN_AIO_OWNER : Fld := ⟨0x0, 0, 6⟩
def HG_OWN_PULSE_PENDING : Fld := ⟨0x0, 8, 6⟩
def HG_OWN_PULSE_OWNER : Fld := ⟨0x0, 0, 6⟩
def HG_OWN_CAN_PENDING : Fld := ⟨0x0, 8, 6⟩
def HG_OWN_CAN_OWNER : Fld := ⟨0x0, 0, 6⟩
def HG_OWN_TASK_OWNER : Fld := ⟨0x0, 0, 6⟩
def HG_OWN_LOOP_PENDING : Fld := ⟨0x0, 8, 6⟩
def HG_OWN_LOOP_OWNER : Fld := ⟨0x0, 0, 6⟩
def PORT_CTRL_CLASS_MAX : Fld := ⟨0x0, 20, 4⟩
def PORT_CTRL_AUTOCLASS_EN : Fld := ⟨0x0, 19, 1⟩
def PORT_CTRL_PRIO : Fld := ⟨0x0, 16, 2⟩
def PORT_CTRL_RIDE : Fld := ⟨0x0, 15, 1⟩
def PORT_CTRL_SAFE_OFF : Fld := ⟨0x0, 14, 1⟩
def PORT_CTRL_VMODE : Fld := ⟨0x0, 13, 1⟩
def PORT_CTRL_BALANCE_EN : Fld := ⟨0x0, 12, 1⟩
def PORT_CTRL_LOCKOUT_EN : Fld := ⟨0x0, 8, 1⟩
def PORT_CTRL_EN : Fld := ⟨0x0, 0, 1⟩
def PORT_VSET_VMAX : Fld := ⟨0x4, 16, 9⟩
def PORT_VSET : Fld := ⟨0x4, 0, 9⟩
def PORT_STATUS_STATE : Fld := ⟨0x8, 28, 4⟩
def PORT_STATUS_STATE_B : Fld := ⟨0x8, 24, 4⟩
def PORT_STATUS_CLASS : Fld := ⟨0x8, 20, 4⟩
def PORT_STATUS_CLASS_B : Fld := ⟨0x8, 16, 4⟩
def PORT_STATUS_SIG : Fld := ⟨0x8, 14, 2⟩
def PORT_STATUS_AUTOCLASS : Fld := ⟨0x8, 13, 1⟩
def PORT_STATUS_REQ : Fld := ⟨0x8, 12, 1⟩
def PORT_STATUS_MPS_OK : Fld := ⟨0x8, 11, 1⟩
def PORT_STATUS_LIMIT : Fld := ⟨0x8, 10, 1⟩
def PORT_STATUS_WEIR_LIMIT : Fld := ⟨0x8, 9, 1⟩
def PORT_STATUS_TRIM_SAT : Fld := ⟨0x8, 8, 1⟩
def PORT_STATUS_REASON : Fld := ⟨0x8, 0, 8⟩
def PORT_PS_A_CURRENT : Fld := ⟨0xC, 16, 16⟩
def PORT_PS_A_VOLTAGE : Fld := ⟨0xC, 0, 16⟩
def PORT_PS_B_CURRENT : Fld := ⟨0x10, 16, 16⟩
def PORT_PS_B_VOLTAGE : Fld := ⟨0x10, 0, 16⟩
def PORT_POWER : Fld := ⟨0x14, 0, 32⟩
def PORT_AVG3S : Fld := ⟨0x18, 0, 32⟩
def PORT_LOOP_R_LOOP_B : Fld := ⟨0x1C, 16, 16⟩
def PORT_LOOP_R_LOOP_A : Fld := ⟨0x1C, 0, 16⟩
def PORT_PD_END_CABLE_LOSS : Fld := ⟨0x20, 16, 16⟩
def PORT_PD_END_VPD : Fld := ⟨0x20, 0, 16⟩
def PORT_TRIM_TRIM_B : Fld := ⟨0x24, 8, 8⟩
def PORT_TRIM_TRIM_A : Fld := ⟨0x24, 0, 8⟩
def PORT_VOUT_V_TARGET : Fld := ⟨0x28, 16, 9⟩
def PORT_VOUT_V_NOW : Fld := ⟨0x28, 0, 9⟩
def PORT_FAULT_SEEN : Fld := ⟨0x2C, 2, 11⟩
def PORT_FAULT_CNT_RECENT : Fld := ⟨0x30, 16, 8⟩
def PORT_FAULT_CNT_TOTAL : Fld := ⟨0x30, 0, 16⟩
def PORT_CMD_REMEASURE : Fld := ⟨0x34, 1, 1⟩
def PORT_CMD_RESTART : Fld := ⟨0x34, 0, 1⟩
def PORT_AUTOCLASS : Fld := ⟨0x38, 0, 32⟩
def PORT_GRANT : Fld := ⟨0x3C, 0, 32⟩
def PORT_MEAS_SKIPPED : Fld := ⟨0x40, 24, 8⟩
def PORT_MEAS_AGE : Fld := ⟨0x40, 0, 24⟩
def PORT_MCODE_STAGED : Fld := ⟨0x44, 16, 16⟩
def PORT_MCODE_IN_USE : Fld := ⟨0x44, 0, 16⟩
def PORT_WEIR_TRIPS : Fld := ⟨0x48, 16, 16⟩
def PORT_WEIR_LAST_ENERGY : Fld := ⟨0x48, 0, 16⟩
def ALLOC_CTRL_POLICY : Fld := ⟨0x90100, 31, 1⟩
def ALLOC_CTRL_DIP_RIDE : Fld := ⟨0x90100, 16, 10⟩
def ALLOC_CTRL_RIDE_TIME : Fld := ⟨0x90100, 0, 10⟩
def ALLOC_LIMIT : Fld := ⟨0x90104, 0, 32⟩
def ALLOC_B_IN : Fld := ⟨0x90108, 0, 32⟩
def ALLOC_B_PORTS : Fld := ⟨0x9010C, 0, 32⟩
def ALLOC_RESERVED : Fld := ⟨0x90110, 0, 32⟩
def ALLOC_DRAW : Fld := ⟨0x90114, 0, 32⟩
def ALLOC_STATUS_SHED : Fld := ⟨0x90118, 16, 8⟩
def ALLOC_STATUS_PENDING : Fld := ⟨0x90118, 8, 8⟩
def ALLOC_STATUS_GRANT_HOLD : Fld := ⟨0x90118, 4, 1⟩
def ALLOC_STATUS_SHED_LAST : Fld := ⟨0x90118, 3, 1⟩
def ALLOC_STATUS_DIP : Fld := ⟨0x90118, 2, 1⟩
def ALLOC_STATUS_EXCESS : Fld := ⟨0x90118, 1, 1⟩
def ALLOC_STATUS_OVERDRAW : Fld := ⟨0x90118, 0, 1⟩
def ALLOC_DIP_TIME : Fld := ⟨0x9011C, 0, 32⟩
def ALLOC_SHED_LO : Fld := ⟨0x90120, 0, 32⟩
def ALLOC_SHED_HI : Fld := ⟨0x90124, 0, 32⟩
def ALLOC_RIDE_LO : Fld := ⟨0x90128, 0, 32⟩
def ALLOC_RIDE_HI : Fld := ⟨0x9012C, 0, 32⟩
def ALLOC_CMD_RESTORE : Fld := ⟨0x90130, 0, 1⟩
def ALLOC_SHED_CNT : Fld := ⟨0x90134, 0, 32⟩
def SLU_STATUS_FAILED : Fld := ⟨0x90180, 7, 1⟩
def SLU_STATUS_WORN : Fld := ⟨0x90180, 6, 1⟩
def SLU_STATUS_CELL_FAULT : Fld := ⟨0x90180, 5, 1⟩
def SLU_STATUS_HOT : Fld := ⟨0x90180, 4, 1⟩
def SLU_STATUS_RESERVE_OK : Fld := ⟨0x90180, 3, 1⟩
def SLU_STATUS_FULL : Fld := ⟨0x90180, 2, 1⟩
def SLU_STATUS_DISCHARGING : Fld := ⟨0x90180, 1, 1⟩
def SLU_STATUS_CHARGING : Fld := ⟨0x90180, 0, 1⟩
def SLU_BANK_CURRENT : Fld := ⟨0x90184, 16, 16⟩
def SLU_BANK_VOLTAGE : Fld := ⟨0x90184, 0, 16⟩
def SLU_ENERGY_PEAK : Fld := ⟨0x90188, 16, 16⟩
def SLU_ENERGY_STORED : Fld := ⟨0x90188, 0, 16⟩
def SLU_CAP_C : Fld := ⟨0x9018C, 0, 16⟩
def SLU_LEVELS_V_RESERVE : Fld := ⟨0x90190, 16, 16⟩
def SLU_LEVELS_V_MAX : Fld := ⟨0x90190, 0, 16⟩
def SLU_CELLS_CELL_MAX : Fld := ⟨0x90194, 16, 16⟩
def SLU_CELLS_CELL_MIN : Fld := ⟨0x90194, 0, 16⟩
def SLU_TEMP : Fld := ⟨0x90198, 0, 16⟩
def SLU_CHG_LIMIT : Fld := ⟨0x9019C, 0, 16⟩
def PFW_LAST_TIME : Fld := ⟨0x901C0, 0, 32⟩
def PFW_LAST_SAVE_SAVE_OK : Fld := ⟨0x901C4, 16, 1⟩
def PFW_LAST_SAVE_DURATION : Fld := ⟨0x901C4, 0, 16⟩
def PFW_LAST_RIDE_HELD : Fld := ⟨0x901C8, 16, 8⟩
def PFW_LAST_RIDE_DURATION : Fld := ⟨0x901C8, 0, 16⟩
def LUM_CTRL_EN : Fld := ⟨0x1B0000, 31, 1⟩
def LUM_CTRL_DIV : Fld := ⟨0x1B0000, 16, 8⟩
def LUM_CTRL_HOLD : Fld := ⟨0x1B0000, 0, 16⟩
def LUM_STATUS_LINKED : Fld := ⟨0x1B0004, 16, 9⟩
def LUM_STATUS_LOST : Fld := ⟨0x1B0004, 0, 9⟩
def LUM_CYCLE : Fld := ⟨0x1B0008, 0, 32⟩
def LUM_EPOCH : Fld := ⟨0x1B000C, 0, 32⟩
def LUM_COUNT : Fld := ⟨0x1B0010, 0, 32⟩
def LUM_MAC_LO : Fld := ⟨0x1B0014, 0, 32⟩
def LUM_MAC_HI : Fld := ⟨0x1B0018, 0, 16⟩
def LUM_LOST_LO : Fld := ⟨0x1B0020, 0, 32⟩
def LUM_LOST_HI : Fld := ⟨0x1B0024, 0, 32⟩
def LUM_TX_CNT : Fld := ⟨0x1B0028, 0, 32⟩
def LUM_RX_CNT : Fld := ⟨0x1B002C, 0, 32⟩
def LUM_MISS_CNT : Fld := ⟨0x1B0030, 0, 32⟩
def LUM_LATE_CNT : Fld := ⟨0x1B0034, 0, 32⟩
def LUM_BAD_CNT : Fld := ⟨0x1B0038, 0, 32⟩
def LUM_IDENT_SECONDS : Fld := ⟨0x1B003C, 16, 16⟩
def LUM_IDENT_NODE : Fld := ⟨0x1B003C, 0, 8⟩
def LUM_PORT_STATE_DSTATE : Fld := ⟨0x0, 28, 4⟩
def LUM_PORT_STATE_ACCEPT : Fld := ⟨0x0, 24, 4⟩
def LUM_PORT_STATE_OFFERED : Fld := ⟨0x0, 20, 4⟩
def LUM_PORT_STATE_MAX_NODES : Fld := ⟨0x0, 16, 4⟩
def LUM_PORT_STATE_REPLACED : Fld := ⟨0x0, 15, 1⟩
def LUM_PORT_STATE_RESTARTS : Fld := ⟨0x0, 0, 15⟩
def LUM_PORT_MAC_LO : Fld := ⟨0x4, 0, 32⟩
def LUM_PORT_MAC_HI : Fld := ⟨0x8, 0, 16⟩
def LUM_PORT_VENDOR : Fld := ⟨0xC, 0, 32⟩
def LUM_NODE_CMD_FADE : Fld := ⟨0x0, 16, 16⟩
def LUM_NODE_CMD_LEVEL : Fld := ⟨0x0, 0, 16⟩
def LUM_NODE_STAT_ACTUAL : Fld := ⟨0x4, 16, 16⟩
def LUM_NODE_STAT_FLAGS : Fld := ⟨0x4, 0, 16⟩
def LUM_NODE_SENS_LUX : Fld := ⟨0x8, 16, 16⟩
def LUM_NODE_SENS_POWER : Fld := ⟨0x8, 0, 16⟩
def LUM_NODE_CFG_TEMP : Fld := ⟨0xC, 24, 8⟩
def LUM_NODE_CFG_GROUPS : Fld := ⟨0xC, 16, 5⟩
def LUM_NODE_CFG_SAFE : Fld := ⟨0xC, 0, 16⟩
def LUM_GRP_STAT_MEMBERS : Fld := ⟨0x0, 16, 16⟩
def LUM_GRP_STAT_LINKED : Fld := ⟨0x0, 0, 16⟩
def LUM_GRP_CNT_UNICAST : Fld := ⟨0x4, 16, 16⟩
def LUM_GRP_CNT_MULTICAST : Fld := ⟨0x4, 0, 16⟩
def ETH_CTRL_RATE_EN : Fld := ⟨0x100000, 17, 1⟩
def ETH_CTRL_LEARN_EN : Fld := ⟨0x100000, 16, 1⟩
def ETH_CTRL_AGE_TIME : Fld := ⟨0x100000, 0, 16⟩
def ETH_STATUS_FW_VERSION : Fld := ⟨0x100004, 16, 16⟩
def ETH_STATUS_FW_LOADED : Fld := ⟨0x100004, 0, 1⟩
def ETH_BUF_USED_RESERVED : Fld := ⟨0x100008, 16, 16⟩
def ETH_BUF_USED_SHARED : Fld := ⟨0x100008, 0, 16⟩
def ETH_MGMT_VID_UNTAGGED : Fld := ⟨0x100010, 12, 1⟩
def ETH_MGMT_VID : Fld := ⟨0x100010, 0, 12⟩
def ETH_MGMT_MAC_LO : Fld := ⟨0x100014, 0, 32⟩
def ETH_MGMT_MAC_HI : Fld := ⟨0x100018, 0, 16⟩
def ETH_UPLA_MEMBER_LO : Fld := ⟨0x100020, 0, 32⟩
def ETH_UPLA_MEMBER_HI : Fld := ⟨0x100024, 0, 32⟩
def ETH_UPLB_MEMBER_LO : Fld := ⟨0x100028, 0, 32⟩
def ETH_UPLB_MEMBER_HI : Fld := ⟨0x10002C, 0, 32⟩
def ETH_RATE_WINDOW_START : Fld := ⟨0x100030, 16, 11⟩
def ETH_RATE_WINDOW_END : Fld := ⟨0x100030, 0, 11⟩
def ETH_RATE_THRESH_RAISE : Fld := ⟨0x100034, 16, 16⟩
def ETH_RATE_THRESH_LOWER : Fld := ⟨0x100034, 0, 16⟩
def ETH_PTP_CTRL_EN : Fld := ⟨0x100040, 31, 1⟩
def ETH_PTP_CTRL_PRIORITY1 : Fld := ⟨0x100040, 8, 8⟩
def ETH_PTP_CTRL_PRIORITY2 : Fld := ⟨0x100040, 0, 8⟩
def ETH_PTP_STATUS_STEPS : Fld := ⟨0x100044, 8, 8⟩
def ETH_PTP_STATUS_PORT : Fld := ⟨0x100044, 4, 1⟩
def ETH_PTP_STATUS_STATE : Fld := ⟨0x100044, 0, 4⟩
def ETH_PTP_OFFSET : Fld := ⟨0x100048, 0, 32⟩
def ETH_PTP_NS : Fld := ⟨0x10004C, 0, 32⟩
def ETH_PTP_SEC_LO : Fld := ⟨0x100050, 0, 32⟩
def ETH_PTP_SEC_HI : Fld := ⟨0x100054, 0, 16⟩
def ETH_PTP_GM_LO : Fld := ⟨0x100058, 0, 32⟩
def ETH_PTP_GM_HI : Fld := ⟨0x10005C, 0, 32⟩
def ETH_PTP_PDELAY_A : Fld := ⟨0x100060, 0, 32⟩
def ETH_PTP_PDELAY_B : Fld := ⟨0x100064, 0, 32⟩
def ETH_CAGE_A_PRESENT : Fld := ⟨0x100070, 15, 1⟩
def ETH_CAGE_A_POWERED : Fld := ⟨0x100070, 14, 1⟩
def ETH_CAGE_A_TX_FAULT : Fld := ⟨0x100070, 13, 1⟩
def ETH_CAGE_A_LOS : Fld := ⟨0x100070, 12, 1⟩
def ETH_CAGE_A_DDM_ALARM : Fld := ⟨0x100070, 11, 1⟩
def ETH_CAGE_A_CODE : Fld := ⟨0x100070, 0, 8⟩
def ETH_CAGE_B_PRESENT : Fld := ⟨0x100074, 15, 1⟩
def ETH_CAGE_B_POWERED : Fld := ⟨0x100074, 14, 1⟩
def ETH_CAGE_B_TX_FAULT : Fld := ⟨0x100074, 13, 1⟩
def ETH_CAGE_B_LOS : Fld := ⟨0x100074, 12, 1⟩
def ETH_CAGE_B_DDM_ALARM : Fld := ⟨0x100074, 11, 1⟩
def ETH_CAGE_B_CODE : Fld := ⟨0x100074, 0, 8⟩
def ETH_PORT_CTRL_EN : Fld := ⟨0x0, 31, 1⟩
def ETH_PORT_CTRL_RX_PAUSE_EN : Fld := ⟨0x0, 30, 1⟩
def ETH_PORT_CTRL_TX_PAUSE_EN : Fld := ⟨0x0, 29, 1⟩
def ETH_PORT_CTRL_EEE_EN : Fld := ⟨0x0, 28, 1⟩
def ETH_PORT_CTRL_AUTO_RATE_EN : Fld := ⟨0x0, 27, 1⟩
def ETH_PORT_CTRL_TRUNC_DROP : Fld := ⟨0x0, 26, 1⟩
def ETH_PORT_CTRL_FEC : Fld := ⟨0x0, 24, 2⟩
def ETH_PORT_CTRL_SPEED : Fld := ⟨0x0, 22, 2⟩
def ETH_PORT_CTRL_DEF_PCP : Fld := ⟨0x0, 0, 3⟩
def ETH_PORT_CMD_RAISE : Fld := ⟨0x4, 1, 1⟩
def ETH_PORT_CMD_RELINK : Fld := ⟨0x4, 0, 1⟩
def ETH_PORT_STATUS_DUPLEX_REFUSED : Fld := ⟨0x8, 10, 1⟩
def ETH_PORT_STATUS_MDIX : Fld := ⟨0x8, 9, 1⟩
def ETH_PORT_STATUS_PAUSING : Fld := ⟨0x8, 8, 1⟩
def ETH_PORT_STATUS_PAUSED : Fld := ⟨0x8, 7, 1⟩
def ETH_PORT_STATUS_LPI_RX : Fld := ⟨0x8, 6, 1⟩
def ETH_PORT_STATUS_LPI_TX : Fld := ⟨0x8, 5, 1⟩
def ETH_PORT_STATUS_LOWERED : Fld := ⟨0x8, 4, 1⟩
def ETH_PORT_STATUS_SPEED : Fld := ⟨0x8, 1, 3⟩
def ETH_PORT_STATUS_LINK_UP : Fld := ⟨0x8, 0, 1⟩
def ETH_PORT_MTU : Fld := ⟨0xC, 0, 14⟩
def ETH_PORT_FLOW_LIMIT : Fld := ⟨0x10, 20, 10⟩
def ETH_PORT_FLOW_LOW : Fld := ⟨0x10, 10, 10⟩
def ETH_PORT_FLOW_HIGH : Fld := ⟨0x10, 0, 10⟩
def ETH_PORT_PAUSE_QUANTA : Fld := ⟨0x14, 0, 16⟩
def ETH_PORT_BUF_EGRESS : Fld := ⟨0x18, 16, 16⟩
def ETH_PORT_BUF_INGRESS : Fld := ⟨0x18, 0, 16⟩
def ETH_PORT_RATE_RX_MEAN : Fld := ⟨0x1C, 16, 16⟩
def ETH_PORT_RATE_TX_MEAN : Fld := ⟨0x1C, 0, 16⟩
def ETH_PORT_HALF_LO : Fld := ⟨0x20, 0, 32⟩
def ETH_PORT_HALF_HI_FLIP : Fld := ⟨0x24, 0, 16⟩
def ETH_PORT_HALF_MASK_LO : Fld := ⟨0x28, 0, 32⟩
def ETH_PORT_HALF_MASK_HI_MASK : Fld := ⟨0x2C, 0, 16⟩
def ETH_PORT_SNAP_GO : Fld := ⟨0x30, 0, 1⟩
def ETH_PORT_CNT : Fld := ⟨0x100, 0, 32⟩
def ETH_PORT_SNAPV : Fld := ⟨0x200, 0, 32⟩
def CYC_BASE_PERIOD : Fld := ⟨0x1A0000, 0, 17⟩
def CYC_TIMING_COMMIT : Fld := ⟨0x1A0004, 0, 17⟩
def CYC_COUNT : Fld := ⟨0x1A0008, 0, 32⟩
def CYC_DONE : Fld := ⟨0x1A000C, 0, 32⟩
def CYC_STATUS_START_KIND : Fld := ⟨0x1A0010, 8, 4⟩
def CYC_STATUS_RETAIN_LAG : Fld := ⟨0x1A0010, 4, 1⟩
def CYC_STATUS_IDLE_LOW : Fld := ⟨0x1A0010, 3, 1⟩
def CYC_STATUS_OVERRUN : Fld := ⟨0x1A0010, 2, 1⟩
def CYC_STATUS_LAGGING : Fld := ⟨0x1A0010, 1, 1⟩
def CYC_STATUS_RUNNING : Fld := ⟨0x1A0010, 0, 1⟩
def CYC_OVR_CNT : Fld := ⟨0x1A0014, 0, 32⟩
def CYC_LAG_MAX : Fld := ⟨0x1A0018, 0, 32⟩
def CYC_IDLE_MIN : Fld := ⟨0x1A001C, 0, 32⟩
def CYC_COMPUTE_MAX : Fld := ⟨0x1A0020, 0, 32⟩
def CYC_RETAIN_CYCLE : Fld := ⟨0x1A0024, 0, 32⟩
def CYC_RETAIN_SIZE_BYTES : Fld := ⟨0x1A0028, 0, 19⟩
def CYC_FORCE_COUNT : Fld := ⟨0x1A002C, 0, 10⟩
def CYC_CMD_COLD_NEXT : Fld := ⟨0x1A0030, 1, 1⟩
def CYC_CMD_CLR_STATS : Fld := ⟨0x1A0030, 0, 1⟩
def CYC_IMAGE : Fld := ⟨0x1A0034, 0, 32⟩
def CYC_TASK_CFG_DEFINED : Fld := ⟨0x0, 31, 1⟩
def CYC_TASK_CFG_RUNS_HERE : Fld := ⟨0x0, 30, 1⟩
def CYC_TASK_CFG_GALLERY : Fld := ⟨0x0, 24, 6⟩
def CYC_TASK_CFG_CLUSTER : Fld := ⟨0x0, 16, 4⟩
def CYC_TASK_CFG_CELLS : Fld := ⟨0x0, 0, 16⟩
def CYC_TASK_PERIOD_PHASE : Fld := ⟨0x4, 16, 16⟩
def CYC_TASK_PERIOD_MULT : Fld := ⟨0x4, 0, 16⟩
def CYC_TASK_EXEC_MAX : Fld := ⟨0x8, 0, 32⟩
def CYC_TASK_FAULT_LAST_CODE : Fld := ⟨0xC, 24, 8⟩
def CYC_TASK_FAULT_COUNT : Fld := ⟨0xC, 0, 24⟩
def CYC_CLUSTER_SPARE_FREE : Fld := ⟨0x0, 31, 1⟩
def CYC_CLUSTER_SPARE_BIST : Fld := ⟨0x0, 30, 1⟩
def CYC_CLUSTER_REPACKED : Fld := ⟨0x0, 29, 1⟩
def CYC_CLUSTER_FUSED_POS : Fld := ⟨0x0, 24, 5⟩
def CYC_CLUSTER_MAPPED_OUT : Fld := ⟨0x0, 0, 17⟩
def CYC_CELL_PHYS : Fld := ⟨0x0, 16, 9⟩
def CYC_CELL_MIGRATED : Fld := ⟨0x0, 7, 1⟩
def CYC_CELL_VACANT : Fld := ⟨0x0, 6, 1⟩
def CYC_CELL_PARTS : Fld := ⟨0x0, 0, 4⟩
def LOOP_CTRL_DP_OK : Fld := ⟨0x180000, 4, 4⟩
def LOOP_CTRL_CLR_STATS : Fld := ⟨0x180000, 1, 1⟩
def LOOP_CTRL_RUNNING : Fld := ⟨0x180000, 0, 1⟩
def LOOP_STATUS_AUTO : Fld := ⟨0x180004, 16, 11⟩
def LOOP_STATUS_ENABLED : Fld := ⟨0x180004, 0, 11⟩
def LOOP_LOAD_MAX_SAMPLES : Fld := ⟨0x180008, 0, 9⟩
def LOOP_DELAY_MAX_DELAY : Fld := ⟨0x18000C, 0, 16⟩
def LOOP_OVR_TOTAL : Fld := ⟨0x180010, 0, 32⟩
def LOOP_FRAME_LO : Fld := ⟨0x180014, 0, 32⟩
def LOOP_FRAME_HI : Fld := ⟨0x180018, 0, 32⟩
def LOOP_CAP_STATUS_STATE : Fld := ⟨0x0, 30, 2⟩
def LOOP_CAP_STATUS_QTY : Fld := ⟨0x0, 28, 1⟩
def LOOP_CAP_STATUS_END : Fld := ⟨0x0, 26, 2⟩
def LOOP_CAP_STATUS_SLOT : Fld := ⟨0x0, 16, 10⟩
def LOOP_CAP_STATUS_FILL : Fld := ⟨0x0, 0, 15⟩
def LOOP_CAP_START : Fld := ⟨0x4, 0, 32⟩
def LOOP_CAP_SIGNAL : Fld := ⟨0x8, 8, 8⟩
def LOOP_CAP_SIGNAL_BUFFER : Fld := ⟨0x8, 0, 8⟩
def LOOP_CAP_CMD_CLEAR : Fld := ⟨0xC, 0, 1⟩
def LOOP_SCH_V : Fld := ⟨0x0, 0, 32⟩
def LOOP_SCH_FK : Fld := ⟨0x4, 0, 32⟩
def LOOP_SCH_FI : Fld := ⟨0x8, 0, 32⟩
def LOOP_SCH_FD : Fld := ⟨0xC, 0, 32⟩
def LOOPS_SP : Fld := ⟨0x0, 0, 32⟩
def LOOPS_PV : Fld := ⟨0x4, 0, 32⟩
def LOOPS_OUT : Fld := ⟨0x8, 0, 32⟩
def LOOPS_INTEG : Fld := ⟨0xC, 0, 32⟩
def LOOPS_DERIV : Fld := ⟨0x10, 0, 32⟩
def LOOPS_STAT_STATE : Fld := ⟨0x14, 28, 4⟩
def LOOPS_STAT_HOLD : Fld := ⟨0x14, 27, 1⟩
def LOOPS_STAT_DST_FAULT : Fld := ⟨0x14, 26, 1⟩
def LOOPS_STAT_SAT_HI : Fld := ⟨0x14, 25, 1⟩
def LOOPS_STAT_SAT_LO : Fld := ⟨0x14, 24, 1⟩
def LOOPS_STAT_RATE_LIM : Fld := ⟨0x14, 23, 1⟩
def LOOPS_STAT_SCHED_BAD : Fld := ⟨0x14, 22, 1⟩
def LOOPS_STAT_TEST : Fld := ⟨0x14, 21, 1⟩
def LOOPS_STAT_CONSEC : Fld := ⟨0x14, 16, 4⟩
def LOOPS_STAT_CAUSE : Fld := ⟨0x14, 8, 8⟩
def LOOPS_OVR : Fld := ⟨0x18, 0, 32⟩
def LOOPS_LAST : Fld := ⟨0x1C, 0, 32⟩
def LOOP_CFG_EN : Fld := ⟨0x0, 31, 1⟩
def LOOP_CFG_MODE : Fld := ⟨0x0, 30, 1⟩
def LOOP_CFG_LL_EN : Fld := ⟨0x0, 29, 1⟩
def LOOP_PERIOD_KMAX : Fld := ⟨0x4, 28, 4⟩
def LOOP_PERIOD_SUBFRAME : Fld := ⟨0x4, 20, 3⟩
def LOOP_PERIOD : Fld := ⟨0x4, 0, 20⟩
def LOOP_PHASE : Fld := ⟨0x8, 0, 20⟩
def LOOP_SRC_KIND : Fld := ⟨0xC, 28, 4⟩
def LOOP_SRC_INDEX : Fld := ⟨0xC, 0, 28⟩
def LOOP_DST_KIND : Fld := ⟨0x10, 28, 4⟩
def LOOP_DST_INDEX : Fld := ⟨0x10, 0, 28⟩
def LOOP_SCHED_EN : Fld := ⟨0x14, 31, 1⟩
def LOOP_SCHED_VAR : Fld := ⟨0x14, 29, 2⟩
def LOOP_SCHED_ENTRY : Fld := ⟨0x14, 16, 13⟩
def LOOP_SCHED_TABLE : Fld := ⟨0x14, 0, 6⟩
def LOOP_KP : Fld := ⟨0x18, 0, 32⟩
def LOOP_TI : Fld := ⟨0x1C, 0, 32⟩
def LOOP_TD : Fld := ⟨0x20, 0, 32⟩
def LOOP_WEIGHTS_N : Fld := ⟨0x24, 24, 8⟩
def LOOP_WEIGHTS_B : Fld := ⟨0x24, 10, 10⟩
def LOOP_WEIGHTS_C : Fld := ⟨0x24, 0, 10⟩
def LOOP_UMIN : Fld := ⟨0x28, 0, 32⟩
def LOOP_UMAX : Fld := ⟨0x2C, 0, 32⟩
def LOOP_RATE : Fld := ⟨0x30, 0, 32⟩
def LOOP_TLEAD : Fld := ⟨0x34, 0, 32⟩
def LOOP_TLAG : Fld := ⟨0x38, 0, 32⟩
def LOOP_DELAY_MAX : Fld := ⟨0x3C, 16, 16⟩
def LOOP_DELAY_LAST : Fld := ⟨0x3C, 0, 16⟩
def MTR_CTRL_NOMINAL_F : Fld := ⟨0xA0000, 13, 1⟩
def MTR_CTRL_MASTER : Fld := ⟨0xA0000, 12, 1⟩
def MTR_CTRL_LATCH_N : Fld := ⟨0xA0000, 0, 12⟩
def MTR_STATUS_FW_VERSION : Fld := ⟨0xA0004, 16, 16⟩
def MTR_STATUS_TIMEBASE : Fld := ⟨0xA0004, 6, 2⟩
def MTR_STATUS_REF_LINE : Fld := ⟨0xA0004, 4, 2⟩
def MTR_STATUS_SEAL : Fld := ⟨0xA0004, 3, 1⟩
def MTR_STATUS_SAVE_OK : Fld := ⟨0xA0004, 2, 1⟩
def MTR_STATUS_DEFERRING : Fld := ⟨0xA0004, 1, 1⟩
def MTR_STATUS_FW_LOADED : Fld := ⟨0xA0004, 0, 1⟩
def MTR_LATCH_SEQ : Fld := ⟨0xA0008, 0, 32⟩
def MTR_LATCH_UPTIME : Fld := ⟨0xA000C, 0, 32⟩
def MTR_LATCH_SAMPLES : Fld := ⟨0xA0010, 0, 32⟩
def MTR_FREQ_FREQ_B : Fld := ⟨0xA0014, 16, 16⟩
def MTR_FREQ_FREQ_A : Fld := ⟨0xA0014, 0, 16⟩
def MTR_ANGLE_A_L3 : Fld := ⟨0xA0018, 16, 16⟩
def MTR_ANGLE_A_L2 : Fld := ⟨0xA0018, 0, 16⟩
def MTR_ANGLE_B_L3 : Fld := ⟨0xA001C, 16, 16⟩
def MTR_ANGLE_B_L2 : Fld := ⟨0xA001C, 0, 16⟩
def MTR_SEAL_UNSEAL : Fld := ⟨0xA0020, 1, 1⟩
def MTR_SEAL : Fld := ⟨0xA0020, 0, 1⟩
def MTR_CAL_CNT : Fld := ⟨0xA0024, 0, 32⟩
def MTR_SAVE_TIME : Fld := ⟨0xA0028, 0, 32⟩
def MTR_GAP : Fld := ⟨0xA002C, 0, 32⟩
def MTR_DEFER_CNT : Fld := ⟨0xA0030, 0, 32⟩
def MTR_RESTORE_SOURCE : Fld := ⟨0xA0034, 24, 8⟩
def MTR_RESTORE_AGE : Fld := ⟨0xA0034, 0, 24⟩
def MTR_I_CFG_SENSOR : Fld := ⟨0x0, 30, 2⟩
def MTR_I_CFG_VSET : Fld := ⟨0x0, 29, 1⟩
def MTR_I_CFG_PHASE : Fld := ⟨0x0, 27, 2⟩
def MTR_I_CFG_INVERT : Fld := ⟨0x0, 26, 1⟩
def MTR_I_CFG_EXPORT_OK : Fld := ⟨0x0, 25, 1⟩
def MTR_I_CFG_AUTO_GAIN : Fld := ⟨0x0, 24, 1⟩
def MTR_I_CFG_GAIN : Fld := ⟨0x0, 22, 2⟩
def MTR_I_RATIO : Fld := ⟨0x4, 0, 32⟩
def MTR_I_PHASE_COMP : Fld := ⟨0x8, 0, 16⟩
def MTR_I_STAT_GAIN : Fld := ⟨0xC, 30, 2⟩
def MTR_I_STAT_CLIP : Fld := ⟨0xC, 29, 1⟩
def MTR_I_STAT_NO_VOLTAGE : Fld := ⟨0xC, 28, 1⟩
def MTR_I_STAT_EXPORTING : Fld := ⟨0xC, 27, 1⟩
def MTR_I_STAT_GSW_CNT : Fld := ⟨0xC, 0, 16⟩
def MTR_I_RES : Fld := ⟨0x10, 0, 32⟩
def MTR_V_STAT_PRESENT : Fld := ⟨0x0, 31, 1⟩
def MTR_V_STAT_LOST_SEEN : Fld := ⟨0x0, 30, 1⟩
def MTR_V_STAT_LOSS_CNT : Fld := ⟨0x0, 0, 16⟩
def MTR_V_RMS : Fld := ⟨0x4, 0, 32⟩
def MTR_PM_RES : Fld := ⟨0x0, 0, 32⟩
def MTR_GAL_RES : Fld := ⟨0x0, 0, 32⟩
def PULSE_CFG_EN : Fld := ⟨0x0, 31, 1⟩
def PULSE_CFG_SRC_KIND : Fld := ⟨0x0, 28, 3⟩
def PULSE_CFG_INDEX : Fld := ⟨0x0, 16, 7⟩
def PULSE_CFG_WIDTH : Fld := ⟨0x0, 0, 8⟩
def PULSE_CONST : Fld := ⟨0x4, 0, 32⟩
def PULSE_STAT_SRC_DENIED : Fld := ⟨0x8, 31, 1⟩
def PULSE_STAT_PENDING : Fld := ⟨0x8, 0, 16⟩
def PULSE_COUNT : Fld := ⟨0xC, 0, 32⟩
def PULSE_RESID_LO : Fld := ⟨0x10, 0, 32⟩
def PULSE_RESID_HI : Fld := ⟨0x14, 0, 32⟩
def AIO_STATUS_GROUP_LOST_SEEN : Fld := ⟨0xB0000, 4, 4⟩
def AIO_STATUS_GROUP_OK : Fld := ⟨0xB0000, 0, 4⟩
def AIO_SURGE_CNT : Fld := ⟨0xB0004, 0, 32⟩
def AIO_CH_CFG_MODE : Fld := ⟨0x0, 28, 4⟩
def AIO_CH_CFG_VERIFY : Fld := ⟨0x0, 26, 2⟩
def AIO_CH_CFG_FAULT_SAFE : Fld := ⟨0x0, 25, 1⟩
def AIO_CH_CFG_FILTER : Fld := ⟨0x0, 24, 1⟩
def AIO_CH_ENG_LO : Fld := ⟨0x4, 0, 32⟩
def AIO_CH_ENG_HI : Fld := ⟨0x8, 0, 32⟩
def AIO_CH_SAFE_CODE : Fld := ⟨0xC, 0, 16⟩
def AIO_CH_OUT_CODE : Fld := ⟨0x10, 0, 16⟩
def AIO_CH_IN_CODE : Fld := ⟨0x14, 0, 16⟩
def AIO_CH_READBACK_CODE : Fld := ⟨0x18, 0, 16⟩
def AIO_CH_STATUS_CAUSE : Fld := ⟨0x1C, 24, 8⟩
def AIO_CH_STATUS_FAULT : Fld := ⟨0x1C, 23, 1⟩
def AIO_CH_STATUS_SAFE_DRIVEN : Fld := ⟨0x1C, 22, 1⟩
def AIO_CH_STATUS_LS_ON : Fld := ⟨0x1C, 21, 1⟩
def AIO_CH_STATUS_SURGE_SEEN : Fld := ⟨0x1C, 20, 1⟩
def AIO_CH_STATUS_SUSPENDED : Fld := ⟨0x1C, 19, 1⟩
def AIO_CH_VALUE : Fld := ⟨0x20, 0, 32⟩
def AIO_CH_FAULT_CNT : Fld := ⟨0x24, 0, 32⟩
def CAN_CTRL_INIT : Fld := ⟨0x0, 31, 1⟩
def CAN_CTRL_MODE : Fld := ⟨0x0, 28, 3⟩
def CAN_CTRL_FD_EN : Fld := ⟨0x0, 27, 1⟩
def CAN_CTRL_BRS_EN : Fld := ⟨0x0, 26, 1⟩
def CAN_CTRL_TDC_EN : Fld := ⟨0x0, 25, 1⟩
def CAN_CTRL_AUTO_RECOVER : Fld := ⟨0x0, 24, 1⟩
def CAN_CTRL_TERM : Fld := ⟨0x0, 23, 1⟩
def CAN_NBT_NBRP : Fld := ⟨0x4, 24, 8⟩
def CAN_NBT_NTSEG1 : Fld := ⟨0x4, 16, 8⟩
def CAN_NBT_NTSEG2 : Fld := ⟨0x4, 9, 7⟩
def CAN_NBT_NSJW : Fld := ⟨0x4, 2, 7⟩
def CAN_DBT_DBRP : Fld := ⟨0x8, 27, 5⟩
def CAN_DBT_DTSEG1 : Fld := ⟨0x8, 22, 5⟩
def CAN_DBT_DTSEG2 : Fld := ⟨0x8, 18, 4⟩
def CAN_DBT_DSJW : Fld := ⟨0x8, 14, 4⟩
def CAN_DBT_TDCO : Fld := ⟨0x8, 7, 7⟩
def CAN_STATUS_STATE : Fld := ⟨0xC, 29, 3⟩
def CAN_STATUS_FW_LOADED : Fld := ⟨0xC, 28, 1⟩
def CAN_STATUS_CONFIG_ERR : Fld := ⟨0xC, 27, 1⟩
def CAN_STATUS_DOM_TIMEOUT : Fld := ⟨0xC, 26, 1⟩
def CAN_STATUS_TDC_SAT : Fld := ⟨0xC, 25, 1⟩
def CAN_STATUS_SAFE_FORCED : Fld := ⟨0xC, 24, 1⟩
def CAN_STATUS_FW_VERSION : Fld := ⟨0xC, 0, 16⟩
def CAN_ERR_TEC : Fld := ⟨0x10, 16, 9⟩
def CAN_ERR_REC : Fld := ⟨0x10, 8, 8⟩
def CAN_ERR_LAST_ERR : Fld := ⟨0x10, 0, 8⟩
def CAN_TDC_MEAS_DELAY : Fld := ⟨0x14, 0, 7⟩
def CAN_CMD_RECOVER : Fld := ⟨0x18, 1, 1⟩
def CAN_CMD_CLR_STATS : Fld := ⟨0x18, 0, 1⟩
def CAN_TXREQ : Fld := ⟨0x20, 0, 32⟩
def CAN_RX_CNT : Fld := ⟨0x40, 0, 32⟩
def CAN_TX_CNT : Fld := ⟨0x44, 0, 32⟩
def CAN_ERRFRAME_CNT : Fld := ⟨0x48, 0, 32⟩
def CAN_RECONF_DROP : Fld := ⟨0x4C, 0, 32⟩
def CAN_NOMATCH_CNT : Fld := ⟨0x50, 0, 32⟩
def CAN_LOST_CNT : Fld := ⟨0x54, 0, 32⟩
def CAN_REMOTE_CNT : Fld := ⟨0x58, 0, 32⟩
def CAN_BUSOFF_CNT : Fld := ⟨0x5C, 0, 32⟩
def CAN_WITHDRAWN_CNT : Fld := ⟨0x60, 0, 32⟩
def CAN_REPEAT_CNT : Fld := ⟨0x64, 0, 32⟩
def CAN_OBJ_ID_EN : Fld := ⟨0x0, 31, 1⟩
def CAN_OBJ_ID_DIR : Fld := ⟨0x0, 30, 1⟩
def CAN_OBJ_ID_XTD : Fld := ⟨0x0, 29, 1⟩
def CAN_OBJ_ID : Fld := ⟨0x0, 0, 29⟩
def CAN_OBJ_MASK : Fld := ⟨0x4, 0, 29⟩
def CAN_OBJ_CTL_FDF : Fld := ⟨0x8, 31, 1⟩
def CAN_OBJ_CTL_BRS : Fld := ⟨0x8, 30, 1⟩
def CAN_OBJ_CTL_TXMODE : Fld := ⟨0x8, 28, 2⟩
def CAN_OBJ_CTL_RETRY : Fld := ⟨0x8, 24, 4⟩
def CAN_OBJ_CTL_DIV : Fld := ⟨0x8, 16, 8⟩
def CAN_OBJ_CTL_PHASE : Fld := ⟨0x8, 8, 8⟩
def CAN_OBJ_CTL_REPEAT : Fld := ⟨0x8, 7, 1⟩
def CAN_OBJ_CTL_DLC : Fld := ⟨0x8, 0, 4⟩
def CAN_OBJ_STAT_STATE : Fld := ⟨0xC, 30, 2⟩
def CAN_OBJ_STAT_PENDING : Fld := ⟨0xC, 29, 1⟩
def CAN_OBJ_STAT_TX_FAILED : Fld := ⟨0xC, 28, 1⟩
def CAN_OBJ_STAT_STALE : Fld := ⟨0xC, 27, 1⟩
def CAN_OBJ_STAT_LOST : Fld := ⟨0xC, 26, 1⟩
def CAN_OBJ_STAT_NEVER : Fld := ⟨0xC, 25, 1⟩
def CAN_OBJ_STAT_SHORT : Fld := ⟨0xC, 24, 1⟩
def CAN_OBJ_STAT_REPEATING : Fld := ⟨0xC, 23, 1⟩
def CAN_OBJ_STAT_DLC_LAST : Fld := ⟨0xC, 16, 4⟩
def CAN_OBJ_STAT_ATTEMPTS : Fld := ⟨0xC, 12, 4⟩
def CAN_OBJ_STAT_FRAMES : Fld := ⟨0xC, 0, 12⟩
def CAN_OBJ_DATA : Fld := ⟨0x0, 0, 32⟩
def CAN_SIG_BIND_EN : Fld := ⟨0x0, 31, 1⟩
def CAN_SIG_BIND_OBJECT : Fld := ⟨0x0, 24, 7⟩
def CAN_SIG_BIND_SIG : Fld := ⟨0x0, 16, 8⟩
def CAN_SIG_LAYOUT_ORDER : Fld := ⟨0x4, 31, 1⟩
def CAN_SIG_LAYOUT_KIND : Fld := ⟨0x4, 29, 2⟩
def CAN_SIG_LAYOUT_LENGTH : Fld := ⟨0x4, 22, 7⟩
def CAN_SIG_LAYOUT_START : Fld := ⟨0x4, 0, 9⟩
def HG_STATUS_HG_STATE : Fld := ⟨0x10000, 29, 3⟩
def HG_STATUS_MODE : Fld := ⟨0x10000, 26, 3⟩
def HG_STATUS_LANE_ACTIVE : Fld := ⟨0x10000, 25, 1⟩
def HG_STATUS_HOLD_CAUSE : Fld := ⟨0x10000, 22, 3⟩
def HG_STATUS_DEG_OTHER : Fld := ⟨0x10000, 15, 1⟩
def HG_STATUS_DEG_HG : Fld := ⟨0x10000, 14, 1⟩
def HG_STATUS_DEG_DATAPATH : Fld := ⟨0x10000, 13, 1⟩
def HG_STATUS_DEG_SPARES : Fld := ⟨0x10000, 12, 1⟩
def HG_STATUS_DEG_ONE_LANE : Fld := ⟨0x10000, 11, 1⟩
def HG_STATUS_DEG_STALE : Fld := ⟨0x10000, 10, 1⟩
def HG_STATUS_DEG_PATH : Fld := ⟨0x10000, 9, 1⟩
def HG_LANE_A_LSTATE : Fld := ⟨0x10004, 28, 4⟩
def HG_LANE_A_LAST_FAIL : Fld := ⟨0x10004, 24, 4⟩
def HG_LANE_A_FAIL_HOUR : Fld := ⟨0x10004, 16, 8⟩
def HG_LANE_A_REJOINS : Fld := ⟨0x10004, 0, 16⟩
def HG_LANE_B_LSTATE : Fld := ⟨0x10008, 28, 4⟩
def HG_LANE_B_LAST_FAIL : Fld := ⟨0x10008, 24, 4⟩
def HG_LANE_B_FAIL_HOUR : Fld := ⟨0x10008, 16, 8⟩
def HG_LANE_B_REJOINS : Fld := ⟨0x10008, 0, 16⟩
def HG_HB_PB_OK : Fld := ⟨0x1000C, 5, 1⟩
def HG_HB_PA_OK : Fld := ⟨0x1000C, 4, 1⟩
def HG_HB_B_CULV_OK : Fld := ⟨0x1000C, 3, 1⟩
def HG_HB_B_WIRE_OK : Fld := ⟨0x1000C, 2, 1⟩
def HG_HB_A_CULV_OK : Fld := ⟨0x1000C, 1, 1⟩
def HG_HB_A_WIRE_OK : Fld := ⟨0x1000C, 0, 1⟩
def HG_HB_MISS_B_CULV : Fld := ⟨0x10010, 24, 8⟩
def HG_HB_MISS_B_WIRE : Fld := ⟨0x10010, 16, 8⟩
def HG_HB_MISS_A_CULV : Fld := ⟨0x10010, 8, 8⟩
def HG_HB_MISS_A_WIRE : Fld := ⟨0x10010, 0, 8⟩
def HG_LSEL_IGNORED : Fld := ⟨0x10014, 8, 8⟩
def HG_LSEL_B_SEEN : Fld := ⟨0x10014, 1, 1⟩
def HG_LSEL_A_SEEN : Fld := ⟨0x10014, 0, 1⟩
def HG_CMD_REBALANCE : Fld := ⟨0x10018, 1, 1⟩
def HG_CMD_REJOIN : Fld := ⟨0x10018, 0, 1⟩
def HG_SWITCH_CNT : Fld := ⟨0x1001C, 0, 32⟩
def HG_LAST_SWITCH_CAUSE : Fld := ⟨0x10020, 28, 4⟩
def HG_LAST_SWITCH_LANE : Fld := ⟨0x10020, 27, 1⟩
def HG_LAST_SWITCH_START : Fld := ⟨0x10020, 24, 3⟩
def HG_LAST_SWITCH_GAP : Fld := ⟨0x10020, 0, 16⟩
def HG_LAST_SWITCH_CYCLE : Fld := ⟨0x10024, 0, 32⟩
def HG_GRANT_REJ : Fld := ⟨0x10028, 0, 32⟩
def HG_EXER_CFG_MAX_AGE : Fld := ⟨0x1002C, 0, 16⟩
def HG_EXER_AGE_HOURS : Fld := ⟨0x10030, 0, 16⟩
def HG_EXER_LAST_RESULT : Fld := ⟨0x10034, 24, 8⟩
def HG_GRANT_VALID : Fld := ⟨0x0, 31, 1⟩
def HG_GRANT_LANE : Fld := ⟨0x0, 30, 1⟩
def HG_GRANT_SHED : Fld := ⟨0x0, 29, 1⟩
def HG_GRANT_TAKEN_OVER : Fld := ⟨0x0, 28, 1⟩
def RED_STATUS_LSTATE : Fld := ⟨0x1C0000, 28, 4⟩
def RED_STATUS_COPY_CURRENT : Fld := ⟨0x1C0000, 27, 1⟩
def RED_STATUS_CULVERT_UP : Fld := ⟨0x1C0000, 26, 1⟩
def RED_COPY_CYCLE : Fld := ⟨0x1C0004, 0, 32⟩
def RED_COPY_LAST_DIRTY : Fld := ⟨0x1C0008, 16, 16⟩
def RED_COPY_LAST_TIME : Fld := ⟨0x1C0008, 0, 16⟩
def RED_COPY_MAX_DIRTY : Fld := ⟨0x1C000C, 16, 16⟩
def RED_COPY_MAX_TIME : Fld := ⟨0x1C000C, 0, 16⟩
def RED_COPY_DISCARD : Fld := ⟨0x1C0010, 0, 32⟩
def RED_CULVERT_ERR_CRC : Fld := ⟨0x1C0014, 16, 16⟩
def RED_CULVERT_ERR_RESENT : Fld := ⟨0x1C0014, 0, 16⟩
def RED_HEALTH_MAPPED_OUT : Fld := ⟨0x1C0018, 24, 8⟩
def RED_HEALTH_SPARES_FREE : Fld := ⟨0x1C0018, 16, 8⟩
def RED_HEALTH_DP_OK : Fld := ⟨0x1C0018, 12, 4⟩
def RED_HEALTH_BIST_PASS : Fld := ⟨0x1C0018, 11, 1⟩
def RED_HEALTH_TIME : Fld := ⟨0x1C001C, 0, 32⟩
def RED_EXER_STAGE : Fld := ⟨0x1C0020, 30, 2⟩
def RED_SYNC : Fld := ⟨0x1C0024, 0, 32⟩
def HG_RST_CMD_ENTER_SAFE : Fld := ⟨0x11000, 31, 1⟩
def HG_RST_CMD_DOMAIN : Fld := ⟨0x11000, 2, 6⟩
def HG_RST_STATUS_BACKOFF : Fld := ⟨0x11004, 16, 8⟩
def HG_RST_STATUS_DEFERRED : Fld := ⟨0x11004, 8, 8⟩
def HG_RST_STATUS_QUIESCING : Fld := ⟨0x11004, 0, 8⟩
def HG_RST_LAST_SOURCE : Fld := ⟨0x11008, 24, 8⟩
def HG_RST_LAST_DOMAINS : Fld := ⟨0x11008, 16, 8⟩
def HG_RST_LAST_QUIESCE : Fld := ⟨0x11008, 0, 16⟩
def HG_RST_LAST_TIME : Fld := ⟨0x1100C, 0, 32⟩
def HG_RST_CNT_A_CAN : Fld := ⟨0x11010, 24, 8⟩
def HG_RST_CNT_A_AIO : Fld := ⟨0x11010, 16, 8⟩
def HG_RST_CNT_A_METER : Fld := ⟨0x11010, 8, 8⟩
def HG_RST_CNT_A_SWITCH : Fld := ⟨0x11010, 0, 8⟩
def HG_RST_CNT_B_LANE_B : Fld := ⟨0x11014, 8, 8⟩
def HG_RST_CNT_B_LANE_A : Fld := ⟨0x11014, 0, 8⟩
def HG_SAFE_CAUSE : Fld := ⟨0x11018, 24, 8⟩
def HG_SAFE_PREV_CAUSE : Fld := ⟨0x11018, 16, 8⟩
def HG_SAFE_RESPONDER_VALID : Fld := ⟨0x11018, 8, 1⟩
def HG_SAFE_RESPONDER : Fld := ⟨0x11018, 0, 1⟩
def BIST_CTRL_INTERVAL : Fld := ⟨0x1C8000, 8, 8⟩
def BIST_CTRL_RUN_EN : Fld := ⟨0x1C8000, 0, 1⟩
def BIST_STATUS_PHASE : Fld := ⟨0x1C8004, 30, 2⟩
def BIST_STATUS_STALLED : Fld := ⟨0x1C8004, 0, 8⟩
def BIST_ROUND : Fld := ⟨0x1C8008, 0, 32⟩
def BIST_PASS_CNT : Fld := ⟨0x1C800C, 0, 32⟩
def BIST_FAIL_CNT : Fld := ⟨0x1C8010, 0, 32⟩
def BIST_SKIP_VOLT : Fld := ⟨0x1C8014, 16, 16⟩
def BIST_SKIP_CLOCK : Fld := ⟨0x1C8014, 0, 16⟩
def BIST_LAST_FAIL_PHYS : Fld := ⟨0x1C8018, 23, 9⟩
def BIST_LAST_FAIL_SLICE : Fld := ⟨0x1C8018, 16, 7⟩
def BIST_LAST_FAIL_PHASE : Fld := ⟨0x1C8018, 14, 2⟩
def BIST_SIG_ID : Fld := ⟨0x1C801C, 0, 32⟩
def BIST_REPORT_PASS : Fld := ⟨0x1C8020, 31, 1⟩
def BIST_REPORT_KIND : Fld := ⟨0x1C8020, 28, 3⟩
def BIST_REPORT_CELLS_FAILED : Fld := ⟨0x1C8020, 16, 8⟩
def BIST_REPORT_DP_OK : Fld := ⟨0x1C8020, 12, 4⟩
def BIST_REPORT_PARTS : Fld := ⟨0x1C8020, 0, 8⟩
def BIST_REPORT_TIME_DURATION : Fld := ⟨0x1C8024, 0, 16⟩
def BIST_ROW_REPAIR_ROWS : Fld := ⟨0x1C8028, 0, 16⟩
def BIST_CLUSTER_POS : Fld := ⟨0x0, 27, 5⟩
def BIST_CLUSTER_SLICE : Fld := ⟨0x0, 24, 3⟩
def BIST_CLUSTER_TESTED : Fld := ⟨0x0, 0, 17⟩
def RTC_SNAP_SEC : Fld := ⟨0x20000, 16, 6⟩
def RTC_SNAP_SEC_SUBSEC : Fld := ⟨0x20000, 0, 15⟩
def RTC_SNAP_MIN : Fld := ⟨0x20004, 0, 6⟩
def RTC_SNAP_HOUR : Fld := ⟨0x20008, 0, 5⟩
def RTC_SNAP_DAY_WEEKDAY : Fld := ⟨0x2000C, 8, 3⟩
def RTC_SNAP_DAY : Fld := ⟨0x2000C, 0, 5⟩
def RTC_SNAP_MONTH : Fld := ⟨0x20010, 0, 4⟩
def RTC_SNAP_YEAR_EXPIRED : Fld := ⟨0x20014, 31, 1⟩
def RTC_SNAP_YEAR : Fld := ⟨0x20014, 0, 16⟩
def RTC_SET_LO_DAY : Fld := ⟨0x20018, 24, 5⟩
def RTC_SET_LO_HOUR : Fld := ⟨0x20018, 16, 5⟩
def RTC_SET_LO_MIN : Fld := ⟨0x20018, 8, 6⟩
def RTC_SET_LO_SEC : Fld := ⟨0x20018, 0, 6⟩
def RTC_SET_HI_MONTH : Fld := ⟨0x2001C, 16, 4⟩
def RTC_SET_HI_YEAR : Fld := ⟨0x2001C, 0, 16⟩
def RTC_CTRL_DISC_EN : Fld := ⟨0x20020, 31, 1⟩
def RTC_CTRL_LOAD : Fld := ⟨0x20020, 30, 1⟩
def RTC_CTRL_UTC_OFFSET : Fld := ⟨0x20020, 0, 8⟩
def RTC_STATUS_OSF : Fld := ⟨0x20024, 31, 1⟩
def RTC_STATUS_SET_ERR : Fld := ⟨0x20024, 30, 1⟩
def RTC_STATUS_CISTERN_VALID : Fld := ⟨0x20024, 29, 1⟩
def RTC_STATUS_CELL_LOW : Fld := ⟨0x20024, 28, 1⟩
def RTC_STATUS_DISC : Fld := ⟨0x20024, 26, 2⟩
def RTC_STATUS_FIRST_UNTRUSTED : Fld := ⟨0x20024, 25, 1⟩
def RTC_STATUS_OSF_CAUSE : Fld := ⟨0x20024, 16, 8⟩
def RTC_TRIM : Fld := ⟨0x20028, 0, 16⟩
def RTC_OFFSET : Fld := ⟨0x2002C, 0, 32⟩
def RTC_FIRST_BKP : Fld := ⟨0x20030, 0, 32⟩
def RTC_BKP_CNT : Fld := ⟨0x20034, 0, 32⟩
def RTC_BKP_TIME : Fld := ⟨0x20038, 0, 32⟩
def RTC_CELL_VOLTAGE : Fld := ⟨0x2003C, 0, 16⟩
def RTC_LAST_BKP : Fld := ⟨0x20040, 0, 32⟩
def RTC_LAST_RETURN : Fld := ⟨0x20044, 0, 32⟩
def CISTERN_DATA : Fld := ⟨0x0, 0, 32⟩
def CISTERN_WCOUNT : Fld := ⟨0x209F8, 0, 32⟩
def CISTERN_CHECK : Fld := ⟨0x209FC, 0, 32⟩
def FLOW_CTRL_EN : Fld := ⟨0x24000, 31, 1⟩
def FLOW_CTRL_FREEZE_MAX : Fld := ⟨0x24000, 0, 16⟩
def FLOW_STATUS_FROZEN : Fld := ⟨0x24004, 31, 1⟩
def FLOW_STATUS_H_FULL : Fld := ⟨0x24004, 30, 1⟩
def FLOW_STATUS_X_FULL : Fld := ⟨0x24004, 29, 1⟩
def FLOW_STATUS_BAD_SEEN : Fld := ⟨0x24004, 28, 1⟩
def FLOW_STATUS_H_USED : Fld := ⟨0x24004, 16, 9⟩
def FLOW_STATUS_X_USED : Fld := ⟨0x24004, 0, 11⟩
def FLOW_HOURS : Fld := ⟨0x24008, 0, 32⟩
def FLOW_CYCLES : Fld := ⟨0x2400C, 0, 32⟩
def FLOW_CMD_CLEAR : Fld := ⟨0x24010, 0, 1⟩
def FLOW_FREEZE_SKIP : Fld := ⟨0x24014, 0, 32⟩
def FLOW_MISSED : Fld := ⟨0x24018, 0, 32⟩
def FLOW_H_CFG_EN : Fld := ⟨0x0, 31, 1⟩
def FLOW_H_CFG_KIND : Fld := ⟨0x0, 30, 1⟩
def FLOW_H_CFG_ENC : Fld := ⟨0x0, 28, 2⟩
def FLOW_H_CFG_LSB : Fld := ⟨0x0, 23, 5⟩
def FLOW_H_CFG_BITS : Fld := ⟨0x0, 18, 5⟩
def FLOW_H_CFG_INTERVAL : Fld := ⟨0x0, 8, 8⟩
def FLOW_H_CFG_EPOCH : Fld := ⟨0x0, 0, 8⟩
def FLOW_H_SRC : Fld := ⟨0x4, 0, 32⟩
def FLOW_H_LOW : Fld := ⟨0x8, 0, 32⟩
def FLOW_H_WIDTH : Fld := ⟨0xC, 0, 32⟩
def FLOW_X_CFG_EN : Fld := ⟨0x0, 31, 1⟩
def FLOW_X_CFG_KIND : Fld := ⟨0x0, 30, 1⟩
def FLOW_X_CFG_ENC : Fld := ⟨0x0, 28, 2⟩
def FLOW_X_CFG_LSB : Fld := ⟨0x0, 23, 5⟩
def FLOW_X_CFG_BITS : Fld := ⟨0x0, 18, 5⟩
def FLOW_X_CFG_INTERVAL : Fld := ⟨0x0, 8, 8⟩
def FLOW_X_CFG_EPOCH : Fld := ⟨0x0, 0, 8⟩
def FLOW_X_SRC : Fld := ⟨0x4, 0, 32⟩
def KEY_STATUS_ROOT_OK : Fld := ⟨0x34000, 31, 1⟩
def KEY_STATUS_STORE_OK : Fld := ⟨0x34000, 30, 1⟩
def KEY_STATUS_ORPHANED : Fld := ⟨0x34000, 16, 8⟩
def KEY_STATUS_LOADED : Fld := ⟨0x34000, 0, 8⟩
def KEY_OP_CNT : Fld := ⟨0x34004, 0, 32⟩
def KEY_REFUSE_CNT : Fld := ⟨0x34008, 0, 32⟩
def KEY_UNWRAP_FAIL : Fld := ⟨0x3400C, 0, 32⟩
def KEY_SLOT_ATTR : Fld := ⟨0x0, 0, 32⟩
def KEY_SLOT_GEN : Fld := ⟨0x4, 0, 32⟩
def KEY_SLOT_LINK_PARENT : Fld := ⟨0x8, 24, 8⟩
def KEY_SLOT_LINK_DEPTH : Fld := ⟨0x8, 20, 4⟩
def KEY_SLOT_PGEN : Fld := ⟨0xC, 0, 32⟩
def CKV_CFG_ALGO : Fld := ⟨0x0, 30, 2⟩
def CKV_CFG_FOLD_AUTO : Fld := ⟨0x0, 28, 2⟩
def CKV_CFG_SPACE : Fld := ⟨0x0, 26, 2⟩
def CKV_CMD_FOLD : Fld := ⟨0x4, 3, 1⟩
def CKV_CMD_ABORT : Fld := ⟨0x4, 2, 1⟩
def CKV_CMD_START : Fld := ⟨0x4, 1, 1⟩
def CKV_CMD_INIT : Fld := ⟨0x4, 0, 1⟩
def CKV_STATUS_BUSY : Fld := ⟨0x8, 31, 1⟩
def CKV_STATUS_DONE : Fld := ⟨0x8, 30, 1⟩
def CKV_STATUS_ERR : Fld := ⟨0x8, 29, 1⟩
def CKV_STATUS_LOST_SCAN : Fld := ⟨0x8, 28, 1⟩
def CKV_STATUS_ERR_CODE : Fld := ⟨0x8, 24, 4⟩
def CKV_ADDR : Fld := ⟨0xC, 0, 32⟩
def CKV_LENGTH : Fld := ⟨0x10, 0, 25⟩
def CKV_STRIDE : Fld := ⟨0x14, 0, 32⟩
def CKV_CHUNK : Fld := ⟨0x18, 0, 16⟩
def CKV_DATA : Fld := ⟨0x1C, 0, 32⟩
def CKV_VALUE_LO : Fld := ⟨0x20, 0, 32⟩
def CKV_VALUE_HI : Fld := ⟨0x24, 0, 32⟩
def CKV_FOLD_LO : Fld := ⟨0x28, 0, 32⟩
def CKV_FOLD_HI : Fld := ⟨0x2C, 0, 32⟩
def CKV_RESULT_LO : Fld := ⟨0x30, 0, 32⟩
def CKV_RESULT_HI : Fld := ⟨0x34, 0, 32⟩
def CKV_POS : Fld := ⟨0x38, 0, 25⟩
def CKV_FAULT_ADDR : Fld := ⟨0x3C, 0, 32⟩
def UPD_STATUS_SIPHON : Fld := ⟨0x1D0000, 28, 4⟩
def UPD_STATUS_UPDATE_PENDING : Fld := ⟨0x1D0000, 27, 1⟩
def UPD_STATUS_FIRST_LANE : Fld := ⟨0x1D0000, 26, 1⟩
def UPD_STATUS_XFER_KIND : Fld := ⟨0x1D0000, 24, 2⟩
def UPD_STATUS_BOOT_BANK : Fld := ⟨0x1D0000, 0, 1⟩
def UPD_BANK0_STATE : Fld := ⟨0x1D0004, 28, 4⟩
def UPD_BANK0_VERSION : Fld := ⟨0x1D0004, 0, 24⟩
def UPD_BANK1_STATE : Fld := ⟨0x1D0008, 28, 4⟩
def UPD_BANK1_VERSION : Fld := ⟨0x1D0008, 0, 24⟩
def UPD_CONFIRM_WINDOW : Fld := ⟨0x1D000C, 16, 16⟩
def UPD_CONFIRM_LEFT : Fld := ⟨0x1D000C, 0, 16⟩
def UPD_XFER_SIZE : Fld := ⟨0x1D0010, 0, 32⟩
def UPD_XFER_RCVD : Fld := ⟨0x1D0014, 0, 32⟩
def UPD_PROG : Fld := ⟨0x1D0018, 0, 32⟩
def UPD_SETTINGS : Fld := ⟨0x1D001C, 0, 32⟩
def UPD_RET_SEQ_LO : Fld := ⟨0x1D0020, 0, 32⟩
def UPD_RET_SEQ_HI : Fld := ⟨0x1D0024, 0, 32⟩
def UPD_RET_BAD : Fld := ⟨0x1D0028, 0, 32⟩
def UPD_FLASH_ERASED : Fld := ⟨0x1D002C, 0, 32⟩
def UPD_DEFAULTED_UNKNOWN : Fld := ⟨0x1D0030, 16, 16⟩
def UPD_DEFAULTED_BLOCKS : Fld := ⟨0x1D0030, 0, 16⟩
def UPD_RET_CYCLE : Fld := ⟨0x1D0034, 0, 32⟩
def SYS_ADDRESS_ASSIGNED : Fld := ⟨0x24, 16, 1⟩
def SYS_ADDRESS_GROUP : Fld := ⟨0x24, 8, 8⟩
def SYS_ADDRESS_MODULE : Fld := ⟨0x24, 0, 8⟩
def SYS_SYSTEM : Fld := ⟨0x28, 0, 32⟩
def SYS_SNAP_STATUS_ARMED : Fld := ⟨0x100, 31, 1⟩
def SYS_SNAP_STATUS_READY : Fld := ⟨0x100, 30, 1⟩
def SYS_SNAP_STATUS_TIME_NOT_LOCKED : Fld := ⟨0x100, 29, 1⟩
def SYS_SNAP_STATUS_LATE : Fld := ⟨0x100, 28, 1⟩
def SYS_SNAP_ID : Fld := ⟨0x104, 0, 32⟩
def SYS_SNAP_INSTANT_LO : Fld := ⟨0x108, 0, 32⟩
def SYS_SNAP_INSTANT_HI : Fld := ⟨0x10C, 0, 32⟩
def SYS_SNAP_CNT : Fld := ⟨0x110, 0, 32⟩
def SYS_SNAP_REPLACED : Fld := ⟨0x114, 0, 32⟩
def SYS_SNAP_SRC : Fld := ⟨0x0, 0, 32⟩
def SYS_SNAP_CTL_EN : Fld := ⟨0x4, 31, 1⟩
def SYS_SNAP_CTL_KIND : Fld := ⟨0x4, 30, 1⟩
def SYS_SNAP_REC : Fld := ⟨0x0, 0, 32⟩

end Sys2Proof.Machine
end

