-- ==== Sys2Proof/Machine/RegTable.lean ====
section
/-! DEFINITION. The register map of the module: one row for each register (or family of registers) of the
register tables of R32, R41, R53, R110, R119, R128, R177, R205, R238, R264, R265, R309, R333, R334, R362, R379,
R402, R403, R404, R438, R439, R468, R469, R482, R491, R507, R515, R536 and R548, with its address from R38, its
reset value and which of its bits have which access code of R12. -/

namespace Sys2Proof.Machine

/-- One row of the register map: a register, or a family of `c1 × c2` registers at `base + s1·i + s2·j`.
`rw`, `w1c`, `w1s`, `wo` are the bits with that access code of R12, `act` the SC bits, `rl` the RL bits; a bit in
none of them is read-only or reserved. -/
structure RegRow where
  base : Nat
  s1 : Nat := 4
  c1 : Nat := 1
  s2 : Nat := 4
  c2 : Nat := 1
  reset : Nat := 0
  rw : Nat := 0
  w1c : Nat := 0
  w1s : Nat := 0
  act : Nat := 0
  wo : Nat := 0
  rl : Nat := 0
deriving DecidableEq, Repr

/-- Does the row hold a register at address `a`? -/
def RegRow.covers (r : RegRow) (a : Nat) : Bool :=
  r.base ≤ a && (a - r.base) / r.s1 < r.c1 && (a - r.base) % r.s1 % r.s2 == 0 && (a - r.base) % r.s1 / r.s2 < r.c2

/-- The first row that holds a register at address `a`. -/
def findRow (rs : List RegRow) (a : Nat) : Option RegRow := rs.find? (fun r => r.covers a)

/-- The Sys block, 0x0–0xFFF (R38). -/
def regRowsSys : List RegRow :=
  [
    { base := 0x0, reset := 0x1C0A0F64 },
    { base := 0x4, reset := 0x1000000 },
    { base := 0x8 },
    { base := 0xC },
    { base := 0x10, reset := 0x400000 },
    { base := 0x14, reset := 0xFE },
    { base := 0x18, rl := 0xFFFFFFFF },
    { base := 0x1C },
    { base := 0x20 },
    { base := 0x24 },
    { base := 0x28 },
    { base := 0x100 },
    { base := 0x104 },
    { base := 0x108, rl := 0xFFFFFFFF },
    { base := 0x10C },
    { base := 0x110 },
    { base := 0x114 },
    { base := 0x200, s1 := 0x8, c1 := 122, rw := 0xFFFFFFFF },
    { base := 0x204, s1 := 0x8, c1 := 122, rw := 0xC0000000 },
    { base := 0x800, s1 := 0x4, c1 := 256 } ]

/-- The Cab block, 0x1000–0x1FFF (R38). -/
def regRowsCab : List RegRow :=
  [
    { base := 0x1000, reset := 0x3, rw := 0x3 },
    { base := 0x1004 },
    { base := 0x1008 },
    { base := 0x100C },
    { base := 0x1010 },
    { base := 0x1100, s1 := 0x8, c1 := 64, rw := 0xFFFFFFFF },
    { base := 0x1104, s1 := 0x8, c1 := 64, reset := 0x1, rw := 0xC00003FF } ]

/-- The Hg block, 0x10000–0x17FFF (R38). -/
def regRowsHg : List RegRow :=
  [
    { base := 0x12000, s1 := 0x10, c1 := 64, reset := 0x403E8, rw := 0xF0FF0FFF },
    { base := 0x12004, s1 := 0x10, c1 := 64 },
    { base := 0x12008, s1 := 0x10, c1 := 64 },
    { base := 0x13000, act := 0x1 },
    { base := 0x13004 },
    { base := 0x13008 },
    { base := 0x1300C },
    { base := 0x13100, s1 := 0x4, c1 := 64, rw := 0x3F00 },
    { base := 0x13200, s1 := 0x4, c1 := 48, rw := 0x3F00 },
    { base := 0x13300, s1 := 0x4, c1 := 16, rw := 0x3F00 },
    { base := 0x13340, s1 := 0x4, c1 := 8, rw := 0x3F00 },
    { base := 0x13400, s1 := 0x4, c1 := 512, rw := 0x3F00 },
    { base := 0x13C00, s1 := 0x4, c1 := 64 },
    { base := 0x14000, s1 := 0x4, c1 := 1024, rw := 0x3F00 },
    { base := 0x10000 },
    { base := 0x10004 },
    { base := 0x10008 },
    { base := 0x1000C },
    { base := 0x10010 },
    { base := 0x10014, w1c := 0x3 },
    { base := 0x10018, act := 0x3 },
    { base := 0x1001C },
    { base := 0x10020 },
    { base := 0x10024 },
    { base := 0x10028 },
    { base := 0x1002C, reset := 0xA8, rw := 0xFFFF },
    { base := 0x10030, reset := 0xFFFF },
    { base := 0x10034 },
    { base := 0x10100, s1 := 0x4, c1 := 64 },
    { base := 0x11000, act := 0x800000FC },
    { base := 0x11004 },
    { base := 0x11008 },
    { base := 0x1100C },
    { base := 0x11010 },
    { base := 0x11014 },
    { base := 0x11018 } ]

/-- The Clk block, 0x18000–0x18FFF (R38). -/
def regRowsClk : List RegRow :=
  [
    { base := 0x18000, w1c := 0x300 },
    { base := 0x18004 },
    { base := 0x18008 },
    { base := 0x1800C } ]

/-- The Rtc block, 0x20000–0x209FF (R38). -/
def regRowsRtc : List RegRow :=
  [
    { base := 0x20000, rl := 0x3F7FFF },
    { base := 0x20004 },
    { base := 0x20008 },
    { base := 0x2000C, reset := 0x601 },
    { base := 0x20010, reset := 0x1 },
    { base := 0x20014, reset := 0x7D0 },
    { base := 0x20018, reset := 0x1000000, rw := 0x1F1F3F3F },
    { base := 0x2001C, reset := 0x107D0, rw := 0xFFFFF },
    { base := 0x20020, reset := 0x80000025, rw := 0x800000FF, act := 0x40000000 },
    { base := 0x20024, reset := 0x80010000, w1c := 0xC0000000 },
    { base := 0x20028, rw := 0xFFFF },
    { base := 0x2002C },
    { base := 0x20030 },
    { base := 0x20034 },
    { base := 0x20038 },
    { base := 0x2003C },
    { base := 0x20040 },
    { base := 0x20044 },
    { base := 0x20800, s1 := 0x4, c1 := 126, rw := 0xFFFFFFFF },
    { base := 0x209F8 },
    { base := 0x209FC } ]

/-- The Flow block, 0x24000–0x24FFF (R38). -/
def regRowsFlow : List RegRow :=
  [
    { base := 0x24000, reset := 0x80000258, rw := 0x8000FFFF },
    { base := 0x24004, w1c := 0x10000000 },
    { base := 0x24008 },
    { base := 0x2400C },
    { base := 0x24010, act := 0x1 },
    { base := 0x24014 },
    { base := 0x24018 },
    { base := 0x24100, s1 := 0x10, c1 := 32, reset := 0x7C3C00, rw := 0xFFFCFFFF },
    { base := 0x24104, s1 := 0x10, c1 := 32, rw := 0xFFFFFFFF },
    { base := 0x24108, s1 := 0x10, c1 := 32, rw := 0xFFFFFFFF },
    { base := 0x2410C, s1 := 0x10, c1 := 32, reset := 0x3F800000, rw := 0xFFFFFFFF },
    { base := 0x24300, s1 := 0x8, c1 := 64, reset := 0x7C3C00, rw := 0xFFFCFFFF },
    { base := 0x24304, s1 := 0x8, c1 := 64, rw := 0xFFFFFFFF } ]

/-- The Ckv block, 0x30000–0x30FFF (R38). -/
def regRowsCkv : List RegRow :=
  [
    { base := 0x30000, s1 := 0x400, c1 := 4, rw := 0xFC000000 },
    { base := 0x30004, s1 := 0x400, c1 := 4, act := 0xF },
    { base := 0x30008, s1 := 0x400, c1 := 4, w1c := 0x70000000 },
    { base := 0x3000C, s1 := 0x400, c1 := 4, rw := 0xFFFFFFFF },
    { base := 0x30010, s1 := 0x400, c1 := 4, rw := 0x1FFFFFF },
    { base := 0x30014, s1 := 0x400, c1 := 4, rw := 0xFFFFFFFF },
    { base := 0x30018, s1 := 0x400, c1 := 4, rw := 0xFFFF },
    { base := 0x3001C, s1 := 0x400, c1 := 4, wo := 0xFFFFFFFF },
    { base := 0x30020, s1 := 0x400, c1 := 4, rw := 0xFFFFFFFF, rl := 0xFFFFFFFF },
    { base := 0x30024, s1 := 0x400, c1 := 4, rw := 0xFFFFFFFF },
    { base := 0x30028, s1 := 0x400, c1 := 4, rw := 0xFFFFFFFF },
    { base := 0x3002C, s1 := 0x400, c1 := 4, rw := 0xFFFFFFFF },
    { base := 0x30030, s1 := 0x400, c1 := 4, rl := 0xFFFFFFFF },
    { base := 0x30034, s1 := 0x400, c1 := 4 },
    { base := 0x30038, s1 := 0x400, c1 := 4 },
    { base := 0x3003C, s1 := 0x400, c1 := 4 } ]

/-- The Key block, 0x34000–0x37FFF (R38). -/
def regRowsKey : List RegRow :=
  [
    { base := 0x34000 },
    { base := 0x34004 },
    { base := 0x34008 },
    { base := 0x3400C },
    { base := 0x35000, s1 := 0x10, c1 := 128 },
    { base := 0x35004, s1 := 0x10, c1 := 128 },
    { base := 0x35008, s1 := 0x10, c1 := 128, reset := 0xFF000000 },
    { base := 0x3500C, s1 := 0x10, c1 := 128 } ]

/-- The Evt block, 0x40000–0x4FFFF (R38). -/
def regRowsEvt : List RegRow :=
  [
    { base := 0x40000, w1c := 0x80000000 },
    { base := 0x40004 },
    { base := 0x40008 },
    { base := 0x4000C },
    { base := 0x40010 },
    { base := 0x40014 },
    { base := 0x40018 } ]

/-- The Port block, 0x80000–0x8FFFF (R38). -/
def regRowsPort : List RegRow :=
  [
    { base := 0x80000, s1 := 0x400, c1 := 64, reset := 0x893100, rw := 0xFBF101 },
    { base := 0x80004, s1 := 0x400, c1 := 64, reset := 0x11800A0, rw := 0x1FF01FF },
    { base := 0x80008, s1 := 0x400, c1 := 64, reset := 0x1000 },
    { base := 0x8000C, s1 := 0x400, c1 := 64 },
    { base := 0x80010, s1 := 0x400, c1 := 64 },
    { base := 0x80014, s1 := 0x400, c1 := 64 },
    { base := 0x80018, s1 := 0x400, c1 := 64 },
    { base := 0x8001C, s1 := 0x400, c1 := 64, reset := 0xFFFFFFFF },
    { base := 0x80020, s1 := 0x400, c1 := 64 },
    { base := 0x80024, s1 := 0x400, c1 := 64 },
    { base := 0x80028, s1 := 0x400, c1 := 64 },
    { base := 0x8002C, s1 := 0x400, c1 := 64, w1c := 0x1FFC },
    { base := 0x80030, s1 := 0x400, c1 := 64 },
    { base := 0x80034, s1 := 0x400, c1 := 64, act := 0x3 },
    { base := 0x80038, s1 := 0x400, c1 := 64 },
    { base := 0x8003C, s1 := 0x400, c1 := 64 },
    { base := 0x80040, s1 := 0x400, c1 := 64, reset := 0xFFFFFF },
    { base := 0x80044, s1 := 0x400, c1 := 64 },
    { base := 0x80048, s1 := 0x400, c1 := 64 } ]

/-- The Alloc block, 0x90000–0x9FFFF (R38). -/
def regRowsAlloc : List RegRow :=
  [
    { base := 0x90000, w1c := 0xF800 },
    { base := 0x90004 },
    { base := 0x90008 },
    { base := 0x9000C },
    { base := 0x90010 },
    { base := 0x90014 },
    { base := 0x90020 },
    { base := 0x90024, reset := 0xFF00 },
    { base := 0x90028 },
    { base := 0x9002C },
    { base := 0x90030, reset := 0x64 },
    { base := 0x90100, reset := 0x3E80064, rw := 0x83FF03FF },
    { base := 0x90104, reset := 0x57E400, rw := 0xFFFFFFFF },
    { base := 0x90108 },
    { base := 0x9010C },
    { base := 0x90110 },
    { base := 0x90114 },
    { base := 0x90118, reset := 0x10 },
    { base := 0x9011C },
    { base := 0x90120 },
    { base := 0x90124 },
    { base := 0x90128 },
    { base := 0x9012C },
    { base := 0x90130, act := 0x1 },
    { base := 0x90134 },
    { base := 0x90180 },
    { base := 0x90184 },
    { base := 0x90188 },
    { base := 0x9018C, reset := 0x104A },
    { base := 0x90190, reset := 0x556E7E90 },
    { base := 0x90194 },
    { base := 0x90198 },
    { base := 0x9019C },
    { base := 0x901C0 },
    { base := 0x901C4 },
    { base := 0x901C8 } ]

/-- The Mtr block, 0xA0000–0xAFFFF (R38). -/
def regRowsMtr : List RegRow :=
  [
    { base := 0xA0000, reset := 0x32, rw := 0x3FFF },
    { base := 0xA0004, reset := 0x80 },
    { base := 0xA0008 },
    { base := 0xA000C },
    { base := 0xA0010 },
    { base := 0xA0014 },
    { base := 0xA0018 },
    { base := 0xA001C },
    { base := 0xA0020, w1s := 0x1, act := 0x2 },
    { base := 0xA0024 },
    { base := 0xA0028 },
    { base := 0xA002C },
    { base := 0xA0030 },
    { base := 0xA0034 },
    { base := 0xA0100, s1 := 0x100, c1 := 48, reset := 0x9000000, rw := 0xFFC00000 },
    { base := 0xA0104, s1 := 0x100, c1 := 48, reset := 0x447A0000, rw := 0xFFFFFFFF },
    { base := 0xA0108, s1 := 0x100, c1 := 48, rw := 0xFFFF },
    { base := 0xA010C, s1 := 0x100, c1 := 48, w1c := 0x20000000 },
    { base := 0xA0110, s1 := 0x100, c1 := 48, s2 := 4, c2 := 16, rl := 0xFFFFFFFF },
    { base := 0xA3100, s1 := 0x100, c1 := 6, w1c := 0x40000000 },
    { base := 0xA3104, s1 := 0x100, c1 := 6 },
    { base := 0xA4000, s1 := 0x40, c1 := 64, s2 := 4, c2 := 8, rl := 0xFFFFFFFF },
    { base := 0xA5000, s1 := 0x40, c1 := 64, s2 := 4, c2 := 16, rl := 0xFFFFFFFF },
    { base := 0xA6000, s1 := 0x20, c1 := 8, reset := 0x28, rw := 0xF07F00FF },
    { base := 0xA6004, s1 := 0x20, c1 := 8, reset := 0x3E8, rw := 0xFFFFFFFF },
    { base := 0xA6008, s1 := 0x20, c1 := 8 },
    { base := 0xA600C, s1 := 0x20, c1 := 8 },
    { base := 0xA6010, s1 := 0x20, c1 := 8, rl := 0xFFFFFFFF },
    { base := 0xA6014, s1 := 0x20, c1 := 8 } ]

/-- The Aio block, 0xB0000–0xBFFFF (R38). -/
def regRowsAio : List RegRow :=
  [
    { base := 0xB0000, w1c := 0xF0 },
    { base := 0xB0004 },
    { base := 0xB0100, s1 := 0x100, c1 := 16, reset := 0xC000000, rw := 0xFF000000 },
    { base := 0xB0104, s1 := 0x100, c1 := 16, rw := 0xFFFFFFFF },
    { base := 0xB0108, s1 := 0x100, c1 := 16, reset := 0x42C80000, rw := 0xFFFFFFFF },
    { base := 0xB010C, s1 := 0x100, c1 := 16, rw := 0xFFFF },
    { base := 0xB0110, s1 := 0x100, c1 := 16 },
    { base := 0xB0114, s1 := 0x100, c1 := 16 },
    { base := 0xB0118, s1 := 0x100, c1 := 16 },
    { base := 0xB011C, s1 := 0x100, c1 := 16, w1c := 0x100000 },
    { base := 0xB0120, s1 := 0x100, c1 := 16 },
    { base := 0xB0124, s1 := 0x100, c1 := 16 } ]

/-- The Can block, 0xC0000–0xCFFFF (R38). -/
def regRowsCan : List RegRow :=
  [
    { base := 0xC0000, s1 := 0x4000, c1 := 4, reset := 0x8F000000, rw := 0xFF800000 },
    { base := 0xC0004, s1 := 0x4000, c1 := 4, reset := 0x7E3E7C, rw := 0xFFFFFFFC },
    { base := 0xC0008, s1 := 0x4000, c1 := 4, reset := 0x7264F00, rw := 0xFFFFFF80 },
    { base := 0xC000C, s1 := 0x4000, c1 := 4, w1c := 0x6000000 },
    { base := 0xC0010, s1 := 0x4000, c1 := 4 },
    { base := 0xC0014, s1 := 0x4000, c1 := 4 },
    { base := 0xC0018, s1 := 0x4000, c1 := 4, act := 0x3 },
    { base := 0xC0020, s1 := 0x4000, c1 := 4, s2 := 4, c2 := 4, w1s := 0xFFFFFFFF },
    { base := 0xC0040, s1 := 0x4000, c1 := 4 },
    { base := 0xC0044, s1 := 0x4000, c1 := 4 },
    { base := 0xC0048, s1 := 0x4000, c1 := 4 },
    { base := 0xC004C, s1 := 0x4000, c1 := 4 },
    { base := 0xC0050, s1 := 0x4000, c1 := 4 },
    { base := 0xC0054, s1 := 0x4000, c1 := 4 },
    { base := 0xC0058, s1 := 0x4000, c1 := 4 },
    { base := 0xC005C, s1 := 0x4000, c1 := 4 },
    { base := 0xC0060, s1 := 0x4000, c1 := 4 },
    { base := 0xC0064, s1 := 0x4000, c1 := 4 },
    { base := 0xC1800, s1 := 0x4000, c1 := 4, s2 := 16, c2 := 128, rw := 0xFFFFFFFF },
    { base := 0xC1804, s1 := 0x4000, c1 := 4, s2 := 16, c2 := 128, reset := 0x1FFFFFFF, rw := 0x1FFFFFFF },
    { base := 0xC1808, s1 := 0x4000, c1 := 4, s2 := 16, c2 := 128, reset := 0x3010008, rw := 0xFFFFFF8F },
    { base := 0xC180C, s1 := 0x4000, c1 := 4, s2 := 16, c2 := 128, reset := 0x2000000, w1c := 0x15000000 },
    { base := 0xC2000, s1 := 0x4000, c1 := 4, s2 := 4, c2 := 2048, rw := 0xFFFFFFFF },
    { base := 0xC0800, s1 := 0x4000, c1 := 4, s2 := 8, c2 := 512, rw := 0xFFFF0000 },
    { base := 0xC0804, s1 := 0x4000, c1 := 4, s2 := 8, c2 := 512, reset := 0x400000, rw := 0xFFC001FF } ]

/-- The Eth block, 0x100000–0x100FFF (R38). -/
def regRowsEth : List RegRow :=
  [
    { base := 0x100000, reset := 0x3012C, rw := 0x3FFFF },
    { base := 0x100004 },
    { base := 0x100008 },
    { base := 0x100010, reset := 0x1001, rw := 0x1FFF },
    { base := 0x100014 },
    { base := 0x100018 },
    { base := 0x100020, rw := 0xFFFFFFFF },
    { base := 0x100024, rw := 0xFFFFFFFF },
    { base := 0x100028, rw := 0xFFFFFFFF },
    { base := 0x10002C, rw := 0xFFFFFFFF },
    { base := 0x100030, rw := 0x7FF07FF },
    { base := 0x100034, reset := 0x1F40032, rw := 0xFFFFFFFF },
    { base := 0x100040, reset := 0x8000FFF8, rw := 0x8000FFFF },
    { base := 0x100044, reset := 0x1 },
    { base := 0x100048 },
    { base := 0x10004C, rl := 0xFFFFFFFF },
    { base := 0x100050 },
    { base := 0x100054 },
    { base := 0x100058 },
    { base := 0x10005C },
    { base := 0x100060 },
    { base := 0x100064 },
    { base := 0x100070 },
    { base := 0x100074 } ]

/-- The EthPort block, 0x101000–0x144FFF (R38). -/
def regRowsEthPort : List RegRow :=
  [
    { base := 0x101000, s1 := 0x1000, c1 := 68, reset := 0xF8000000, rw := 0xFFC00007 },
    { base := 0x101004, s1 := 0x1000, c1 := 68, act := 0x3 },
    { base := 0x101008, s1 := 0x1000, c1 := 68, w1c := 0x400 },
    { base := 0x10100C, s1 := 0x1000, c1 := 68, reset := 0x5EE, rw := 0x3FFF },
    { base := 0x101010, s1 := 0x1000, c1 := 68, reset := 0x6008040, rw := 0x3FFFFFFF },
    { base := 0x101014, s1 := 0x1000, c1 := 68, reset := 0xFFFF, rw := 0xFFFF },
    { base := 0x101018, s1 := 0x1000, c1 := 68 },
    { base := 0x10101C, s1 := 0x1000, c1 := 68 },
    { base := 0x101020, s1 := 0x1000, c1 := 68, w1c := 0xFFFFFFFF },
    { base := 0x101024, s1 := 0x1000, c1 := 68, w1c := 0xFFFF },
    { base := 0x101028, s1 := 0x1000, c1 := 68, reset := 0xFFFFFFFF, rw := 0xFFFFFFFF },
    { base := 0x10102C, s1 := 0x1000, c1 := 68, reset := 0xFFFF, rw := 0xFFFF },
    { base := 0x101030, s1 := 0x1000, c1 := 68, act := 0x1 },
    { base := 0x101100, s1 := 0x1000, c1 := 68, s2 := 4, c2 := 48 },
    { base := 0x101200, s1 := 0x1000, c1 := 68, s2 := 4, c2 := 48 } ]

/-- The Loop block, 0x180000–0x18FFFF (R38). -/
def regRowsLoop : List RegRow :=
  [
    { base := 0x180000, reset := 0xF0, act := 0x2 },
    { base := 0x180004 },
    { base := 0x180008 },
    { base := 0x18000C },
    { base := 0x180010 },
    { base := 0x180014, rl := 0xFFFFFFFF },
    { base := 0x180018 },
    { base := 0x180100, s1 := 0x10, c1 := 4 },
    { base := 0x180104, s1 := 0x10, c1 := 4 },
    { base := 0x180108, s1 := 0x10, c1 := 4 },
    { base := 0x18010C, s1 := 0x10, c1 := 4, act := 0x1 },
    { base := 0x184000, s1 := 0x100, c1 := 64, s2 := 16, c2 := 16, rw := 0xFFFFFFFF },
    { base := 0x184004, s1 := 0x100, c1 := 64, s2 := 16, c2 := 16, reset := 0x3F800000, rw := 0xFFFFFFFF },
    { base := 0x184008, s1 := 0x100, c1 := 64, s2 := 16, c2 := 16, reset := 0x3F800000, rw := 0xFFFFFFFF },
    { base := 0x18400C, s1 := 0x100, c1 := 64, s2 := 16, c2 := 16, reset := 0x3F800000, rw := 0xFFFFFFFF },
    { base := 0x188000, s1 := 0x20, c1 := 1024 },
    { base := 0x188004, s1 := 0x20, c1 := 1024 },
    { base := 0x188008, s1 := 0x20, c1 := 1024 },
    { base := 0x18800C, s1 := 0x20, c1 := 1024 },
    { base := 0x188010, s1 := 0x20, c1 := 1024 },
    { base := 0x188014, s1 := 0x20, c1 := 1024 },
    { base := 0x188018, s1 := 0x20, c1 := 1024 },
    { base := 0x18801C, s1 := 0x20, c1 := 1024 } ]

/-- The LoopSlot block, 0x190000–0x19FFFF (R38). -/
def regRowsLoopSlot : List RegRow :=
  [
    { base := 0x190000, s1 := 0x40, c1 := 1024, rw := 0xE0000000 },
    { base := 0x190004, s1 := 0x40, c1 := 1024, reset := 0x40000008, rw := 0xF07FFFFF },
    { base := 0x190008, s1 := 0x40, c1 := 1024, rw := 0xFFFFF },
    { base := 0x19000C, s1 := 0x40, c1 := 1024, rw := 0xFFFFFFFF },
    { base := 0x190010, s1 := 0x40, c1 := 1024, rw := 0xFFFFFFFF },
    { base := 0x190014, s1 := 0x40, c1 := 1024, rw := 0xFFFF003F },
    { base := 0x190018, s1 := 0x40, c1 := 1024, reset := 0x3F800000, rw := 0xFFFFFFFF },
    { base := 0x19001C, s1 := 0x40, c1 := 1024, rw := 0xFFFFFFFF },
    { base := 0x190020, s1 := 0x40, c1 := 1024, rw := 0xFFFFFFFF },
    { base := 0x190024, s1 := 0x40, c1 := 1024, reset := 0xA0FA000, rw := 0xFF0FFFFF },
    { base := 0x190028, s1 := 0x40, c1 := 1024, rw := 0xFFFFFFFF },
    { base := 0x19002C, s1 := 0x40, c1 := 1024, reset := 0x42C80000, rw := 0xFFFFFFFF },
    { base := 0x190030, s1 := 0x40, c1 := 1024, rw := 0xFFFFFFFF },
    { base := 0x190034, s1 := 0x40, c1 := 1024, rw := 0xFFFFFFFF },
    { base := 0x190038, s1 := 0x40, c1 := 1024, rw := 0xFFFFFFFF },
    { base := 0x19003C, s1 := 0x40, c1 := 1024 } ]

/-- The Cyc block, 0x1A0000–0x1AFFFF (R38). -/
def regRowsCyc : List RegRow :=
  [
    { base := 0x1A0000, reset := 0x3E8 },
    { base := 0x1A0004 },
    { base := 0x1A0008 },
    { base := 0x1A000C },
    { base := 0x1A0010, reset := 0xF00, w1c := 0xC },
    { base := 0x1A0014 },
    { base := 0x1A0018 },
    { base := 0x1A001C, reset := 0xFFFFFFFF },
    { base := 0x1A0020 },
    { base := 0x1A0024 },
    { base := 0x1A0028 },
    { base := 0x1A002C },
    { base := 0x1A0030, rw := 0x2, act := 0x1 },
    { base := 0x1A0034 },
    { base := 0x1A0100, s1 := 0x10, c1 := 64 },
    { base := 0x1A0104, s1 := 0x10, c1 := 64, reset := 0x1 },
    { base := 0x1A0108, s1 := 0x10, c1 := 64 },
    { base := 0x1A010C, s1 := 0x10, c1 := 64 },
    { base := 0x1A0700, s1 := 0x4, c1 := 16, reset := 0x9F000000 },
    { base := 0x1A0800, s1 := 0x4, c1 := 256 } ]

/-- The Lum block, 0x1B0000–0x1BFFFF (R38). -/
def regRowsLum : List RegRow :=
  [
    { base := 0x1B0000, reset := 0x800A07D0, rw := 0x80FFFFFF },
    { base := 0x1B0004 },
    { base := 0x1B0008, reset := 0x2710 },
    { base := 0x1B000C },
    { base := 0x1B0010 },
    { base := 0x1B0014 },
    { base := 0x1B0018 },
    { base := 0x1B0020 },
    { base := 0x1B0024 },
    { base := 0x1B0028 },
    { base := 0x1B002C },
    { base := 0x1B0030 },
    { base := 0x1B0034 },
    { base := 0x1B0038 },
    { base := 0x1B003C, wo := 0xFFFFFFFF },
    { base := 0x1B0100, s1 := 0x10, c1 := 64, reset := 0x40000, w1c := 0x8000 },
    { base := 0x1B0104, s1 := 0x10, c1 := 64 },
    { base := 0x1B0108, s1 := 0x10, c1 := 64 },
    { base := 0x1B010C, s1 := 0x10, c1 := 64 },
    { base := 0x1B0800, s1 := 0x10, c1 := 256 },
    { base := 0x1B0804, s1 := 0x10, c1 := 256 },
    { base := 0x1B0808, s1 := 0x10, c1 := 256, reset := 0xFFFF0000 },
    { base := 0x1B080C, s1 := 0x10, c1 := 256, reset := 0x2710 },
    { base := 0x1B2000, s1 := 0x8, c1 := 256 },
    { base := 0x1B2004, s1 := 0x8, c1 := 256 } ]

/-- The Red block, 0x1C0000–0x1C7FFF (R38). -/
def regRowsRed : List RegRow :=
  [
    { base := 0x1C0000, reset := 0x10000000 },
    { base := 0x1C0004 },
    { base := 0x1C0008 },
    { base := 0x1C000C },
    { base := 0x1C0010 },
    { base := 0x1C0014 },
    { base := 0x1C0018 },
    { base := 0x1C001C },
    { base := 0x1C0020 },
    { base := 0x1C0024 } ]

/-- The Bist block, 0x1C8000–0x1CFFFF (R38). -/
def regRowsBist : List RegRow :=
  [
    { base := 0x1C8000, reset := 0x1601, rw := 0xFF01 },
    { base := 0x1C8004, reset := 0x40000000 },
    { base := 0x1C8008 },
    { base := 0x1C800C },
    { base := 0x1C8010 },
    { base := 0x1C8014 },
    { base := 0x1C8018 },
    { base := 0x1C801C },
    { base := 0x1C8020 },
    { base := 0x1C8024 },
    { base := 0x1C8028 },
    { base := 0x1C8100, s1 := 0x4, c1 := 8, reset := 0xF8000000 } ]

/-- The Upd block, 0x1D0000–0x1DFFFF (R38). -/
def regRowsUpd : List RegRow :=
  [
    { base := 0x1D0000 },
    { base := 0x1D0004 },
    { base := 0x1D0008 },
    { base := 0x1D000C, reset := 0x2580000, rw := 0xFFFF0000 },
    { base := 0x1D0010 },
    { base := 0x1D0014 },
    { base := 0x1D0018 },
    { base := 0x1D001C },
    { base := 0x1D0020, rl := 0xFFFFFFFF },
    { base := 0x1D0024 },
    { base := 0x1D0028 },
    { base := 0x1D002C },
    { base := 0x1D0030 },
    { base := 0x1D0034 } ]

/-- The rows of the block that holds address `a` (R38). -/
def rowsAt (a : Nat) : List RegRow :=
  if 0x0 ≤ a && a ≤ 0xFFF then regRowsSys else
  if 0x1000 ≤ a && a ≤ 0x1FFF then regRowsCab else
  if 0x10000 ≤ a && a ≤ 0x17FFF then regRowsHg else
  if 0x18000 ≤ a && a ≤ 0x18FFF then regRowsClk else
  if 0x20000 ≤ a && a ≤ 0x209FF then regRowsRtc else
  if 0x24000 ≤ a && a ≤ 0x24FFF then regRowsFlow else
  if 0x30000 ≤ a && a ≤ 0x30FFF then regRowsCkv else
  if 0x34000 ≤ a && a ≤ 0x37FFF then regRowsKey else
  if 0x40000 ≤ a && a ≤ 0x4FFFF then regRowsEvt else
  if 0x80000 ≤ a && a ≤ 0x8FFFF then regRowsPort else
  if 0x90000 ≤ a && a ≤ 0x9FFFF then regRowsAlloc else
  if 0xA0000 ≤ a && a ≤ 0xAFFFF then regRowsMtr else
  if 0xB0000 ≤ a && a ≤ 0xBFFFF then regRowsAio else
  if 0xC0000 ≤ a && a ≤ 0xCFFFF then regRowsCan else
  if 0x100000 ≤ a && a ≤ 0x100FFF then regRowsEth else
  if 0x101000 ≤ a && a ≤ 0x144FFF then regRowsEthPort else
  if 0x180000 ≤ a && a ≤ 0x18FFFF then regRowsLoop else
  if 0x190000 ≤ a && a ≤ 0x19FFFF then regRowsLoopSlot else
  if 0x1A0000 ≤ a && a ≤ 0x1AFFFF then regRowsCyc else
  if 0x1B0000 ≤ a && a ≤ 0x1BFFFF then regRowsLum else
  if 0x1C0000 ≤ a && a ≤ 0x1C7FFF then regRowsRed else
  if 0x1C8000 ≤ a && a ≤ 0x1CFFFF then regRowsBist else
  if 0x1D0000 ≤ a && a ≤ 0x1DFFFF then regRowsUpd else
  []

/-- The register at module address `a`, if one is implemented (R15, R38). -/
def regRow? (a : Nat) : Option RegRow := findRow (rowsAt a) a

end Sys2Proof.Machine
end

