-- ==== Sys2Proof/Machine/Tab.lean ====
section
/-! DEFINITION. Reading and writing a sparse table (R12, R16: one read returns one stored value). The value of an
unlisted key is given by the function `d`; a write of that value removes the entry, so equal tables are equal data. -/

namespace Sys2Proof.Machine

/-- The value a table holds for key `k`; `d k` when the key is not listed. -/
def tabGet {α : Type} (d : Nat → α) : Tab α → Nat → α
  | [], k => d k
  | (k', v) :: t, k => if k = k' then v else tabGet d t k

/-- Insert an entry before the first larger key. -/
def tabInsert {α : Type} (k : Nat) (v : α) : Tab α → Tab α
  | [] => [(k, v)]
  | (k', v') :: t => if k < k' then (k, v) :: (k', v') :: t else (k', v') :: tabInsert k v t

/-- The table without the entries whose key satisfies `p` (each such key reads as `d` again). -/
def tabDrop {α : Type} (p : Nat → Bool) (t : Tab α) : Tab α := t.filter (fun e => !p e.1)

/-- Write `v` at key `k`. -/
def tabSet {α : Type} [DecidableEq α] (d : Nat → α) (t : Tab α) (k : Nat) (v : α) : Tab α :=
  if v = d k then tabDrop (fun x => x == k) t else tabInsert k v (tabDrop (fun x => x == k) t)

/-- The table entry of `k`, zero when there is none. -/
def nat0 (t : Tab Nat) (k : Nat) : Nat := tabGet (fun _ => 0) t k

def put0 (t : Tab Nat) (k v : Nat) : Tab Nat := tabSet (fun _ => 0) t k v

/-- Write `v` at key `k`, whatever an unlisted key reads as. -/
def tabPut {α : Type} (t : Tab α) (k : Nat) (v : α) : Tab α := tabInsert k v (tabDrop (fun x => x == k) t)

/-- The value listed for key `k`, if it is. -/
def tabFind {α : Type} (t : Tab α) (k : Nat) : Option α := (t.find? (fun e => e.1 == k)).map (fun e => e.2)

/-- The entries of `t` whose key satisfies `p`, each key moved by `f`. -/
def tabPick {α : Type} (p : Nat → Bool) (f : Nat → Nat) (t : Tab α) : Tab α :=
  (t.filter (fun e => p e.1)).map (fun e => (f e.1, e.2))

/-- The keys rise strictly, all above `lo`. -/
def tabSorted {α : Type} : Option Nat → Tab α → Bool
  | _, [] => true
  | none, (k, _) :: t => tabSorted (some k) t
  | some l, (k, _) :: t => decide (l < k) && tabSorted (some k) t

/-- The canonical form: strictly rising keys, no entry equal to what an unlisted key reads as. -/
def tabWf {α : Type} [DecidableEq α] (d : Nat → α) (t : Tab α) : Bool :=
  tabSorted none t && t.all (fun e => !decide (e.2 = d e.1))

/-- Replace the field of `w` bits at bit `lo` of `x` by `v`. -/
def fieldPut (x lo w v : Nat) : Nat := x % 2 ^ lo + 2 ^ lo * (v % 2 ^ w) + 2 ^ (lo + w) * (x / 2 ^ (lo + w))

/-- The field of `w` bits at bit `lo` of `x`. -/
def fieldGet (x lo w : Nat) : Nat := x / 2 ^ lo % 2 ^ w

/-- The sum of two counts, held at the largest value of `w` bits (a counter that saturates). -/
def satAdd (w a b : Nat) : Nat := min (a + b) (2 ^ w - 1)

/-- The value of an `n`-bit field read as two's complement. -/
def toSigned (n x : Nat) : Int := if x % 2 ^ n < 2 ^ (n - 1) then (x % 2 ^ n : Nat) else (x % 2 ^ n : Nat) - (2 ^ n : Nat)

/-- An integer as an `n`-bit two's complement field. -/
def ofSigned (n : Nat) (x : Int) : Nat := (x % (2 ^ n : Nat)).toNat

/-- The `n` bytes of `v`, most significant first: a field of a Pliak packet (R78). -/
def beBytes : Nat → Nat → List Byte
  | 0, _ => []
  | n + 1, v => BitVec.ofNat 8 (v / 256 ^ n) :: beBytes n v

/-- The `n` bytes of `v`, least significant first: register data in a packet body (R78), memory. -/
def leBytes : Nat → Nat → List Byte
  | 0, _ => []
  | n + 1, v => BitVec.ofNat 8 v :: leBytes n (v / 256)

end Sys2Proof.Machine
end

