-- ==== Sys2Proof/Machine/State.lean ====
section
/-! DEFINITION. The state of the module: every register, queue, buffer and mode the spec gives it, as plain data, the
queue of waiting commands, and the state after reset. -/

namespace Sys2Proof.Machine

/-- The operating mode (R8, R9: no other value is ever reported). -/
inductive Mode | boot | paired | wide | hold | service | safe
deriving DecidableEq, Repr

/-- The code of a mode in `STATUS.MODE` (R8). -/
def Mode.code : Mode → Nat
  | .boot => 0
  | .paired => 1
  | .wide => 2
  | .hold => 3
  | .service => 4
  | .safe => 5

/-- The state the headgate keeps a lane in (R412). -/
inductive LState | reset | starting | syncing | standby | active | wideRun | failed | retired | serviceTest | held
deriving DecidableEq, Repr

/-- The code of a lane state in `HG_LANE_x.LSTATE` (R412). -/
def LState.code : LState → Nat
  | .reset => 0
  | .starting => 1
  | .syncing => 2
  | .standby => 3
  | .active => 4
  | .wideRun => 5
  | .failed => 6
  | .retired => 7
  | .serviceTest => 8
  | .held => 9

/-- What the release of the domains under way ends: a power-on, a relock (R28), or a REFCLK loss alone (R31). -/
inductive RelCause | powerOn | relock | refclk
deriving DecidableEq, Repr

/-- The release sequence of R34 and the clock monitors of R28–R31. `step` counts the instants t4–t8 already reached,
`compared` tells that t2 has come, `agreed` that the copies agreed there, `lostFor` for how many ns REFCLK has
been declared lost, `refclkDue` that the release under way ends a REFCLK loss (R31). Times are in ns of the model's time, which
REFCLK clocks. -/
structure PowerSeq where
  mainPower : Bool
  aonOut : Bool
  compared : Bool
  agreed : Bool
  step : Nat
  cause : RelCause
  t0 : Nat
  t1 : Nat
  fails : Nat
  losses : List Nat
  refclkLost : Bool
  lostFor : Nat
  refclkDue : Bool
deriving DecidableEq, Repr

/-- An entry of the event queue (R103), oldest first in the queue. -/
structure EvEntry where
  seq : Nat
  gallery : Nat
  source : Nat
  urgent : Bool
  ackOwner : Bool
  ackOp : Bool
  rep : Nat
  data : Nat
  time : Nat
deriving DecidableEq, Repr

/-- An open rate-limit window (R549) of one source for one object. `len` is its length in ns; `counts` tells that the
event is raised at its end, with the number of occurrences in its low 16 (or 32) data bits. -/
structure RateWin where
  source : Nat
  obj : Nat
  gallery : Nat
  start : Nat
  len : Nat
  counts : Bool
  count : Nat
  data : Nat
  urgent : Bool
deriving DecidableEq, Repr

/-- An operation in flight (R92): accepted and not answered yet; `started` once it can no longer be cancelled (R94). -/
structure Flight where
  session : Nat
  tag : Nat
  opcode : Nat
  transport : Transport
  started : Bool
deriving DecidableEq, Repr

/-- A key operation accepted and not completed yet (R503), with the operation in flight it belongs to. -/
structure KeyOp where
  session : Nat
  tag : Nat
  load : Bool
  slot : Nat
  parent : Nat
  attr : Nat
  wrapped : List Byte
deriving DecidableEq, Repr

/-- A session (R81, R82, R84, R87, R88, R91). Bit i of `window` is set when SEQ `h − i` has been accepted; `closing`: a SESSION_CLOSE has
been accepted and waits for the operations in flight (R85); `kIn`, `kOut`: the keys K_S2M and K_M2S. -/
structure Session where
  id : Nat
  gallery : Nat
  established : Bool
  idle : Nat
  last : Nat
  h : Nat
  window : BitVec 256
  replies : Nat
  transport : Transport
  closing : Bool
  kIn : List Byte
  kOut : List Byte
deriving DecidableEq, Repr

/-- What leaves the module: Pliak replies (R78), frames and bus words. Held in the model's own list of what was sent,
newest first. `body` is a reply's body in the clear, `wire` its datagram, encrypted and with its ICV when it is secure. -/
inductive Out
  | reply (transport : Transport) (secure : Bool) (session seq tag opcode : Nat) (body wire : List Byte)
  | cabWord (w : BitVec 16)
  | eth (port : Nat) (bytes : List Byte)
  | pause (port : Nat) (quanta : Nat)
  | ptp (port : Nat) (kind : Nat)
  | can (ctl obj id dlc : Nat) (data : List Nat)
  | pulse (k : Nat) (on : Bool)
  | mgmt (port vid : Nat) (ask : MgmtAsk)
deriving DecidableEq, Repr

/-- What waits for the first tick at least 20 µs after its acceptance (R101): a supervisor write, a force or an
unforce, of an object of a type (R125) and index, with the object's generation at acceptance. -/
structure TickAct where
  kind : Nat
  ptype : Nat
  index : Nat
  gen : Nat
  gallery : Nat
  value : Nat
  cycle : Nat
deriving DecidableEq, Repr

/-- A force of the force table (R297): a point-table entry or a node, by type and index. -/
structure ForceEnt where
  ptype : Nat
  index : Nat
  value : Nat
deriving DecidableEq, Repr

/-- A point-table entry in force (R125, R126). `ptype` 0: not defined. `gen` 0 before the first definition. -/
structure PointEnt where
  ptype : Nat
  gen : Nat
  bind : Binding
  task : Nat
  dtype : Nat
  retain : Bool
  shared : Bool
  writable : Bool
  init : Nat
  writer : Option Nat
deriving DecidableEq, Repr

/-- An entry no image has defined. -/
def PointEnt.none : PointEnt := ⟨0, 0, .prog, 0, 0, false, false, false, 0, Option.none⟩

/-- The phase of a lane's cycle (R279). -/
inductive CycPhase | stopped | waiting | computing | done | committing | released
deriving DecidableEq, Repr

/-- A partition placed on a lane: its task and home cell, as the image numbers it; the logical cell of its placement, whose mailboxes it
uses; the logical cell that executes it, and the base of its data there (R267, R306, R410); `runs` is false once it fits no cell (R307). -/
structure PartAt where
  task : Nat
  home : Nat
  cell : Nat
  host : Nat
  base : Nat
  runs : Bool
deriving DecidableEq, Repr

/-- The image of a released cycle (R287): its number, its outputs, PROG_VAR values and input image, by entry. -/
structure Released where
  n : Nat
  outs : Tab Nat
  vars : Tab Nat
  ins : Tab Nat
deriving DecidableEq, Repr

/-- The RETAIN variables of a cycle (R302): RETAIN bytes of the image, and the PROG_VAR and PROG_IN values that are RETAIN. -/
structure Staging where
  cycle : Nat
  bytes : Tab Byte
  vars : Tab Nat
  ins : Tab Nat
deriving DecidableEq, Repr

def Staging.none : Staging := ⟨0, [], [], []⟩

/-- What took effect at a tick and belongs to its cycle, however late a lane runs it (R276, R291): the tick's number, its instant, the time
counter there, the force table, and the grant table (one more than the number of the lane a gallery is granted to). -/
structure TickRec where
  n : Nat
  at_ : Nat
  time : Nat
  forces : List ForceEnt
  grants : Tab Nat
deriving DecidableEq, Repr

/-- A lane's cycle executor beside its registers (R279–R285, R302). `n` is the cycle in progress or last run, the
`…At` fields its instants in ns and `lag` its release lag in µs; `late`: it started late; `overrun`: it overran and event 512
waits for its lag; `idleLow`: its low idle reserve in µs, while it may still overrun; `staged`: the output staging area by entry;
`empty`: logical cells whose commit slot stays empty in this cycle; `hist`: the images of the newest released
cycles, the newest first, six at most (R102, R287); `vars`: the PROG_VAR values in force, `varW` what supervisors write at S(n), with the cycle n and
the entry (R290); `snap`: the RETAIN variables as of the last release, `stage`: the staging set (R302); `first`: partitions (task, home cell)
whose next execution sees CYC_FIRST; `parts`: the partitions placed on the lane; `fresh`: mailboxes (logical cell, mailbox) whose readable message
MB_RECV has not reported yet (R293). -/
structure CycSt where
  phase : CycPhase
  n : Nat
  late : Bool
  overrun : Bool
  idleLow : Option Nat
  tickAt : Nat
  startAt : Nat
  doneAt : Nat
  relAt : Nat
  lag : Nat
  staged : Tab Nat
  empty : List Nat
  hist : List Released
  vars : Tab Nat
  varW : List (Nat × Nat × Nat)
  snap : Staging
  stage : Staging
  first : List (Nat × Nat)
  parts : List PartAt
  fresh : List (Nat × Nat)
deriving DecidableEq, Repr

/-- An executor that runs nothing. -/
def CycSt.reset : CycSt :=
  ⟨.stopped, 0, false, false, none, 0, 0, 0, 0, 0, [], [], [], [], [], Staging.none, Staging.none, [], [], []⟩

/-- The image of the newest released cycle (R287): its outputs, its PROG_VAR values and its input image, by entry. -/
def CycSt.rel (c : CycSt) : Released := c.hist.headD ⟨0, [], [], []⟩
def CycSt.relOut (c : CycSt) : Tab Nat := c.rel.outs
def CycSt.relVars (c : CycSt) : Tab Nat := c.rel.vars
def CycSt.relIn (c : CycSt) : Tab Nat := c.rel.ins

/-- What the headgate keeps of a lane beside `HG_LANE_x` (R412–R419, R433, R437, R465): its state, its state before HOLD, the
instants of the failures that count toward RETIRED, the runs of misses and of good heartbeats on each path, whether each path is impaired, whether a
failure was decided during a disagreement, whether lockstep has mismatched since its last report, whether its last self-test passed, whether
its release will count as a rejoin, whether STARTING is over and it waits for an image, the PARTS of its last report, and when its heartbeat
timer started (ns, R59). -/
structure LaneHg where
  state : LState
  held : LState
  failures : List Nat
  wireMiss : Nat
  culvMiss : Nat
  wireGood : Nat
  culvGood : Nat
  wireImp : Bool
  culvImp : Bool
  decided : Bool
  lockstep : Bool
  testPassed : Bool
  rejoin : Bool
  waiting : Bool
  parts : Option Nat
  hbFrom : Nat
deriving DecidableEq, Repr

def LaneHg.reset : LaneHg :=
  ⟨.reset, .reset, [], 0, 0, 0, 0, false, false, false, false, false, false, false, none, 0⟩

/-- A committed RETAIN set in the retention store (R302): its cycle, its layout identity, its bytes, and the PROG_VAR and PROG_IN
values that are RETAIN. `bad`: both copies of its record fail their checks. -/
structure RetSet where
  cycle : Nat
  layout : Nat
  bytes : Tab Byte
  vars : Tab Nat
  ins : Tab Nat
  bad : Bool
deriving DecidableEq, Repr

/-- Which headgate copies decide (`HG_STATUS.HG_STATE`, R433, R438). -/
inductive HgMode | dual | holdWait | single0 | single1
deriving DecidableEq, Repr

def HgMode.code : HgMode → Nat
  | .dual => 0
  | .holdWait => 1
  | .single0 => 2
  | .single1 => 3

/-- A takeover that waits for its tick (R421): the failed lane, the cause, and the instant from which its gap counts. -/
structure Takeover where
  lane : Lane
  cause : Nat
  gapFrom : Nat
deriving DecidableEq, Repr

/-- The headgate beside its registers (R406–R437): `holdCause` as `HG_STATUS.HOLD_CAUSE`, `heldMode` the mode before
HOLD, SERVICE or SAFE, `active` the active lane in PAIRED, `takeover` what waits for a takeover tick, `handover` the cause of a
planned handover that waits for its tick, `exercise` the stage and the lane under test of an
exercise (stages 1 test, 2 return, 3 handover, 4 test, 5 return), `choiceAt` the instant of the last choice taken on DISAGREE, `enterService` and
`leaveService` the accepted mode changes, `degOther` the causes of other chapters for DEGRADED, `linkA`, `linkB` the culvert links, `silent` the
silent copy, `choice` a lane choice taken that waits for its tick (R433), `failLog` the lane failures the retention store records (lane, cause, uptime),
`exercises` its exercise results (result, uptime). -/
structure HgSt where
  a : LaneHg
  b : LaneHg
  hg : HgMode
  holdCause : Nat
  heldMode : Mode
  active : Lane
  takeover : Option Takeover
  handover : Option Nat
  exercise : Option (Nat × Lane)
  choiceAt : Option Nat
  startChoice : Option Lane
  enterService : Bool
  leaveService : Bool
  rebalance : Bool
  paMiss : Nat
  pbMiss : Nat
  exerPassAt : Option Nat
  degOther : List Nat
  copyStale : Bool
  unplaced : Bool
  linkA : Bool
  linkB : Bool
  silent : Option HgCopy
  choice : Option Lane
  failLog : List (Lane × Nat × Nat)
  exercises : List (Nat × Nat)
deriving DecidableEq, Repr

/-- How far the reset of a domain has come (R445). -/
inductive RstPhase | idle | quiescing | asserted | reloading
deriving DecidableEq, Repr

/-- The reset of a domain under way (R445, R449–R451): its phase, source, the instants of the resets by command or
watchdog, the instants of request and quiesce, and whether a command waits for its reply to leave. -/
structure DomRst where
  phase : RstPhase
  source : Nat
  times : List Nat
  since : Nat
  due : Bool
deriving DecidableEq, Repr

def DomRst.idle : DomRst := ⟨.idle, 0, [], 0, false⟩

/-- A port's sequencer, allocator candidate and weir beside its registers (R143–R170, R183–R187). Times in ns of the
model's time. `sigA`, `sigB`: signatures of the detection pass; `holdOff…`: when the pair-set may be powered again (R156);
`faults`: instants of the counted faults; `asked`: arrival of the open request; `granted`: granted, inrush not begun;
`claimA`, `claimB`: the claims of its pair-sets last asked for, mW, a single-signature port's whole claim in `claimA`; `removedAt`: the last removal for a fault or MPS loss; `earmark`: its amount, mW; `peaks`: the 1 ms means that can still be the highest of
10 s, newest first; `nowA`, `nowB`: voltage codes in force; `valid`: a valid measurement since power-up; `measDue`: a measurement that waits for the end of a ramp; `energy`: the
fault event's let-through so far, µJ. A sum over the pair-sets counts a single-signature port once. -/
structure PortX where
  sigA : Bool
  sigB : Bool
  backfeed : Bool
  holdOffA : Nat
  holdOffB : Nat
  faults : List Nat
  autoReq : Bool
  demoted : Bool
  lastOn : Option (Nat × Nat × Nat)
  asked : Option Nat
  granted : Bool
  claimA : Nat
  claimB : Nat
  removedAt : Option Nat
  earmark : Option Nat
  wasShed : Bool
  queuedAt : Nat
  t4 : Nat
  onAt : Nat
  peaks : List (Nat × Nat)
  nowA : Nat
  nowB : Nat
  trimA : Nat
  trimB : Nat
  trimSat : Bool
  valid : Bool
  measAt : Option Nat
  measuring : Bool
  measDue : Bool
  badRun : Nat
  clampA : Bool
  clampB : Bool
  faultEvent : Bool
  energy : Nat
  refused : Bool
  holdForced : Bool
deriving DecidableEq, Repr

def PortX.reset : PortX :=
  ⟨false, false, false, 0, 0, [], false, false, none, none, false, 0, 0, none, none, false, 0, 0, 0, [], 0, 0, 0, 0, false, false, none,
   false, false, 0, false, false, false, 0, false, false⟩

/-- The allocator, the sluice and power failure beside their registers (R180–R202). `ceil`: the ceiling code of R51;
`config`: a lane has loaded the port configuration (R37); `noReserve`: grants go on without the reserve (R196);
`everReserve`: RESERVE_OK has been set since power-on; `restored`: ports granted again since the last event 43; `caps`:
the last measurements of C not taken into use, newest first; `riding`: the ride is under way; `saving`: a save is under way;
`restoreAt`: when shed ports are candidates again; `tickAt`: the last allocator tick; `phyOff`: copper PHYs powered down by PFW; `derateRef`: the PERCENT of the last event 38, 100 when there is none. -/
structure AllocSt where
  ceil : Nat
  config : Bool
  dipStart : Nat
  restoreAt : Nat
  tickAt : Nat
  waived : Bool
  noReserve : Bool
  everReserve : Bool
  restored : Nat
  caps : List Nat
  cellVmax : Option Nat
  hot : Bool
  pfwAt : Nat
  riding : Bool
  saving : Bool
  phyOff : List Nat
  derateRef : Nat
deriving DecidableEq, Repr

def AllocSt.reset : AllocSt := ⟨0, false, 0, 0, 0, false, false, false, 0, [], none, false, 0, false, false, [], 100⟩

/-- The luminaire link of a lane beside its registers (R213–R224). `cmd`: commanded LEVEL, FADE and CCT by node as a point
VALUE, and `levels` the same as of the newest ticks; `grp`: the last write of each group; `writes`: group writes since the last light tick, with
their tick; `todo`: nodes that have not
answered their LUM_CONFIG, as a mask by port; `miss`: consecutive misses by port; `sent`: COUNT of this tick's level frame by
port; `got`: replies of this tick by port; `shut`: the window has closed and the replies wait for a cycle tick; `link`: LINK as latched by
node; `div`, `hold`: in force. -/
structure LumSt where
  cmd : Tab Nat
  grp : Tab Nat
  levels : List (Nat × Tab Nat)
  writes : List (Nat × Nat × Nat)
  todo : Tab Nat
  miss : Tab Nat
  sent : Tab Nat
  got : List (Nat × List LumStatus)
  shut : Bool
  link : Tab Nat
  div : Nat
  hold : Nat
deriving DecidableEq, Repr

def LumSt.reset : LumSt := ⟨[], [], [], [], [], [], [], [], false, [], 10, 2000⟩

/-- A frame held for an egress port (R246, R247): its number (one for all ports it leaves by), ingress port, egress port,
queue, its bytes on the egress wire without the FCS, whether its check value is stomped, the cells it occupies and
whether the reserved pool holds them. -/
structure EthQ where
  num : Nat
  ing : Nat
  egr : Nat
  queue : Nat
  data : List Byte
  stomped : Bool
  cells : Nat
  reserved : Bool
deriving DecidableEq, Repr

/-- A learned address (R264). -/
structure MacEnt where
  vid : Nat
  mac : Nat
  port : Nat
deriving DecidableEq, Repr

/-- A switch port beside its registers: the half-duplex refusal that waits for its retry, the rate change under way (its target
as SPEED codes it), the instant of the last raise, no rate change before the next link up, and the pause in force with its start
(ns) and quanta; whether the partner advertises low-power idle, the instant at which transmit entered it, and the ns there that make no whole
millisecond yet (R254); octets received and sent in the second and in the 100 ms under way, and in the last 100 ms; and the whole
seconds in a row whose means stayed below LOWER (R251). -/
structure EthX where
  refused : Bool
  changing : Option Nat
  raisedAt : Option Nat
  barred : Bool
  pausedAt : Nat
  quanta : Nat
  eee : Bool
  lpiAt : Option Nat
  lpiRem : Nat
  rxSec : Nat
  txSec : Nat
  rxTenth : Nat
  txTenth : Nat
  rxLast : Nat
  txLast : Nat
  quiet : Nat
deriving DecidableEq, Repr

def EthX.reset : EthX := ⟨false, none, none, false, 0, 0, false, none, 0, 0, 0, 0, 0, 0, 0, 0⟩

/-- A cage beside its register (R255): whether it powers its module, TX_DISABLE, and the alarm flags of the last poll. -/
structure Cage where
  on : Bool
  txDisable : Bool
  flags : Nat
deriving DecidableEq, Repr

def Cage.empty : Cage := ⟨false, true, 0⟩

/-- The switch beside its registers. gPTP time (R258): `shift` is its excess over the model's time at `rateAt`, ns modulo 2^48 s; from there the counter
runs corrected by REFCLK's offset `rate` (0.01 ppm), until `rateEnd` if there is one. -/
structure EthSt where
  queue : List EthQ
  macs : List MacEnt
  ports : Tab EthX
  nextNum : Nat
  shift : Nat
  rate : Int
  rateAt : Nat
  rateEnd : Option Nat
  cageA : Cage
  cageB : Cage
deriving DecidableEq, Repr

def EthSt.reset : EthSt := ⟨[], [], [], 0, 0, 0, 0, none, .empty, .empty⟩

/-- What a sample of a loop has computed and its datapath writes when it ends (R312, R313, R319): the datapath, the delay in ns, the
frame, the output, and, for a sample under the law, its new integrator, derivative term, previous ed, v, w and u, and `LOOPs_STAT` [25:23].
`entry`: the capture entry and y of a test. -/
structure LoopJob where
  dp : Nat
  delay : Nat
  frame : Nat
  u : Nat
  integ : Nat
  deriv : Nat
  ed : Nat
  v : Nat
  w : Nat
  up : Nat
  sat : Nat
  law : Bool
  entry : Option (Nat × Nat)
deriving DecidableEq, Repr

/-- A test on a slot (R327, R328): `idx` the next sample index, `reg` the shift register, `phi` the phase in turns × 2^30. -/
structure LoopTest where
  signal : Nat
  buffer : Nat
  amp : Nat
  arg : Nat
  since : Nat
  running : Bool
  idx : Nat
  reg : Nat
  phi : Nat
deriving DecidableEq, Repr

/-- A loop slot beside its registers (R319–R326), values as binary32 patterns: the setpoint written, the process value written since
it was enabled, LOOP_OUT writes not yet taken, the manual value, the preset due (1 with the last output, 2 with the destination's present
value), and the samples skipped since the last one computed. -/
structure LoopX where
  sp : Nat
  pv : Option Nat
  outs : List Nat
  man : Nat
  ed : Nat
  v : Nat
  w : Nat
  up : Nat
  preset : Nat
  skipped : Nat
  job : Option LoopJob
  test : Option LoopTest
deriving DecidableEq, Repr

def LoopX.reset : LoopX := ⟨0, none, [], 0, 0, 0, 0, 0, 0, 0, none, none⟩

/-- A lane's loop engine beside its registers: its slots, when each datapath is free (ns), and its capture buffers by
16,384 × b + i. -/
structure LoopSt where
  slots : Tab LoopX
  free : List Nat
  cap : Tab Nat
deriving DecidableEq, Repr

def LoopSt.reset : LoopSt := ⟨[], [], []⟩

/-- A current input beside its registers (R338–R344): MTR_Inn_CFG, RATIO and PHASE_COMP in force; cycles without a sample above 20 %, and
whether this one had one; the Rogowski integrator (2^-16 units) and its last input; the last sample in µA; Σ v·i, Σ v90·i and Σ i² of the
cycle, and the same of the interval weighted by 1/256; the interval's CLIP, GAIN_SWITCHED and PARAM_CHANGED; the start of the run of exporting
cycles, ns. -/
structure MtrIn where
  cfg : Nat
  ratio : Nat
  comp : Nat
  low : Nat
  above : Bool
  rogY : Int
  rogX : Int
  cur : Int
  cP : Int
  cQ : Int
  cI : Nat
  wP : Int
  wQ : Int
  wI : Nat
  clip : Bool
  gsw : Bool
  param : Bool
  expSince : Option Nat
deriving DecidableEq, Repr

def MtrIn.reset : MtrIn := ⟨0, 0, 0, 0, false, 0, 0, 0, 0, 0, 0, 0, 0, 0, false, false, false, none⟩

/-- A voltage line: its last sample and quarter-delayed sample in µV, Σ v² of the cycle and of the interval (weighted by 1/256), and its newest
samples, the newest first (R339). -/
structure MtrLine where
  v : Int
  v90 : Int
  c2 : Nat
  w2 : Nat
  hist : List Int
deriving DecidableEq, Repr

def MtrLine.reset : MtrLine := ⟨0, 0, 0, 0, []⟩

/-- A voltage set's line cycles (R341): samples in the cycle, instant of its start (ns), the last crossing and the first of the interval in
1/256 sample, cycles of the interval, Σ of L1 and delayed L1 against L2 and L3, whether the angles are out of their windows, and the
length of the last cycle in 1/256 sample, 0 while none is measured. -/
structure MtrSet where
  n : Nat
  at_ : Nat
  cross : Nat
  first : Nat
  cycles : Nat
  c2 : Int
  s2 : Int
  c3 : Int
  s3 : Int
  bad : Bool
  period : Nat
deriving DecidableEq, Repr

def MtrSet.reset : MtrSet := ⟨0, 0, 0, 0, 0, 0, 0, 0, 0, false, 0⟩

/-- The metering DSP beside its registers. `k`: samples so far; `w`: Σ of the interval's weights; `frac`: the share of the last sample that
belongs to the interval before the last boundary of the timebase; `cycles`: boundaries since the latch; `changed`: the timebase has changed;
`ctrl`: MTR_CTRL in force; `got`: the captured set by register, with its uptime and samples;
`gapFrom`: start of the reset of the METER domain under way, ns (R359). -/
structure MtrSt where
  ins : Tab MtrIn
  lines : Tab MtrLine
  a : MtrSet
  b : MtrSet
  k : Nat
  w : Nat
  count : Nat
  frac : Nat
  cycles : Nat
  changed : Bool
  ctrl : Nat
  got : Option (Tab Word × Nat × Nat)
  gapFrom : Option Nat
deriving DecidableEq, Repr

def MtrSt.reset : MtrSt := ⟨[], [], .reset, .reset, 0, 0, 0, 256, 0, false, 0x32, none, none⟩

/-- The energy store (R357), in 2^-16 mJ: of input i at 5i + (EP_IMP, EP_EXP, EQ_IMP, EQ_EXP, ES), of port p at 2p + (E_PSE, E_CABLE), of gallery
g at 4g + (AC import, AC export, DC, CHANGES), and of each pulse output the residue and the PENDING count. -/
structure Energy where
  ins : Tab Nat
  ports : Tab Nat
  gals : Tab Nat
  res : Tab Nat
  pend : Tab Nat
deriving DecidableEq, Repr

def Energy.zero : Energy := ⟨[], [], [], [], []⟩

/-- The newest save of the energy store: by the power-fail save or a periodic one, the RTC's seconds then, and whether both its copies fail. -/
structure EnergySave where
  store : Energy
  pfw : Bool
  secs : Nat
  bad : Bool
deriving DecidableEq, Repr

/-- A port meter: remainders of its integrals in 2^-16 mJ / 10,000, sums over the interval, and whether the port was powered
throughout it and shed during it. -/
structure PortMtr where
  remE : Nat
  remC : Nat
  sp : Nat
  sv : Nat
  si : Nat
  n : Nat
  powered : Bool
  shed : Bool
deriving DecidableEq, Repr

def PortMtr.reset : PortMtr := ⟨0, 0, 0, 0, 0, 0, true, false⟩

/-- A pulse output: PULSEk_CFG and CONST in force, ON, the end of its OFF time, and the instants of the scheduled starts (ns). -/
structure PulseX where
  cfg : Nat
  const : Nat
  on : Bool
  offUntil : Nat
  sched : List Nat
deriving DecidableEq, Repr

def PulseX.reset : PulseX := ⟨0, 0, false, 0, []⟩

/-- An analogue channel beside its registers (R369, R374–R377). `cfg`: the AIO_CHnn_CFG in force, whose MODE an AON latch holds;
`code`: the code in force, recorded even while the SAFE code is driven; `filt`: the last 400 conversions, newest first; `causes`:
present causes, bit n − 1 for cause n; `since`, `owner`: start of the fault and the channel's owner then; `idleUntil`: end of the idle
of a MODE change, ns. -/
structure AioX where
  cfg : Nat
  code : Nat
  filt : List Nat
  causes : Nat
  since : Nat
  owner : Nat
  idleUntil : Nat
deriving DecidableEq, Repr

def AioX.reset : AioX := ⟨0, 0, [], 0, 0, 0, 0⟩

/-- A message object beside its registers (R390, R394, R395): `attempts`: of the pending frame; `changed`: the payload has changed since
its last frame was sent; `fresh`: its payload holds a frame that no latch has taken; `repeatDue`: the pending frame is a repetition;
`relAt`: instant of the last release, ns. -/
structure CanObj where
  attempts : Nat
  changed : Bool
  fresh : Bool
  repeatDue : Bool
  relAt : Nat
deriving DecidableEq, Repr

def CanObj.reset : CanObj := ⟨0, false, false, false, 0⟩

/-- The controllers beside their registers: objects by 128 × (n − 1) + o; `mode`: MODE in force by n − 1; `keep`: values of signals that
the last frame held only in part, by 512 × (n − 1) + d. -/
structure CanSt where
  objs : Tab CanObj
  mode : Tab Nat
  keep : Tab Nat
deriving DecidableEq, Repr

def CanSt.reset : CanSt := ⟨[], [], []⟩

/-- The backup domain beside its registers (R471–R481): seconds since 2000-01-01 00:00:00, the sub-second count in 1/32,768 s
and the share of the next count in ns × 32,768; whether the brown-out detector has tripped, the domain runs on the cell, the oscillator stands
still; the freeze in force, whether the last one ended by its timeout, and its shadows; whether this power-on follows a loss of the domain, the OSF
cause whose event 608 waits, and `RTC_BKP_TIME` at the last switch-over while the outage is not reported. -/
structure RtcSt where
  secs : Nat
  sub : Nat
  acc : Nat
  lost : Bool
  onCell : Bool
  stopped : Bool
  frozen : Bool
  expired : Bool
  fsecs : Nat
  fsub : Nat
  wasLost : Bool
  owed : Option Nat
  outage : Option Nat
deriving DecidableEq, Repr

def RtcSt.reset : RtcSt := ⟨0, 0, 0, true, true, false, false, false, 0, 0, false, none, none⟩

/-- A record of the flowstone store (R490): fields of both kinds, values as the store holds them. `state` 1 open, 2 closed, 3 BAD. -/
structure FlowRec where
  state : Nat
  desc : Nat
  seq : Nat
  start : Nat
  startCyc : Nat
  last : Nat
  lastCyc : Nat
  samples : Nat
  missed : Nat
  low : Nat
  width : Nat
  src : Nat
  cfg : Nat
  bins : Tab Nat
  min : Nat
  minHours : Nat
  minCyc : Nat
  max : Nat
  maxHours : Nat
  maxCyc : Nat
deriving DecidableEq, Repr

/-- The recorder beside its registers (R483–R489): the store by slot (0–383 histograms, then extremes); the slot and the working copy of each
descriptor's open record (0–31 histograms, then extremes); records opened by descriptor since CLEAR; descriptors stopped for want of a slot;
descriptors whose record closes at the release of a freeze; the store header. -/
structure FlowSt where
  store : Tab FlowRec
  work : Tab (Nat × FlowRec)
  seqs : Tab Nat
  stopped : List Nat
  dueEnd : List Nat
  clears : Nat
  clearHours : Nat
  clearCycle : Nat
deriving DecidableEq, Repr

def FlowSt.reset : FlowSt := ⟨[], [], [], [], [], 0, 0, 0⟩

/-- A test of a position (R456, R457): a slice runs; the position's logical cell runs on the spare meanwhile. -/
structure BistX where
  running : Bool
  onSpare : Bool
deriving DecidableEq, Repr

def BistX.idle : BistX := ⟨false, false⟩

/-- Snapshots (R540–R543): the armed instant (ns of gPTP time) and ID, and the words of the record under construction. -/
structure SnapSt where
  armed : Option (Nat × Nat)
  building : Option (List Nat)
deriving DecidableEq, Repr

/-- What a re-roled object was before the tick that re-roled it (R101): a read of an image older than that tick is judged
against it. `ptype`: of the point or handle. -/
structure OldRole where
  tick : Nat
  ptype : Nat
  index : Nat
  gallery : Nat
  gen : Nat
  bind : Binding
deriving DecidableEq, Repr


/-- A firmware bank of a lane (R520): its state code and the image it holds. -/
structure Bank where
  state : Nat
  image : Option FwImage
deriving DecidableEq, Repr

def Bank.empty : Bank := ⟨0, none⟩

/-- An open transfer (R521): its session, KIND, SIZE, the words written, and when the last block came. -/
structure Xfer where
  session : Nat
  kind : Nat
  size : Nat
  words : Tab Bool
  at_ : Nat
deriving DecidableEq, Repr

/-- Update and retention beside their registers (R517–R536): banks by 2 × lane + bank, the bank each lane booted, `UPD_STATUS.SIPHON`, its
first lane, the VERSION under way, the end of the confirm window, the open transfer; the program and settings slots in force; a committed
program or settings image and the instant of its reply; the settings in force; the last SEQ of the retention store and the SEQ of each page;
metering firmware that waits for a latch; lanes with a flash pulse under way; pages torn by a power failure; the firmware staged for the shared blocks; the images that the slots in force hold;
the copies not good at the last power-on, and CYCLE of the ENERGY record restored there; the settings in force as the new firmware of a
siphon judges them (R529). -/
structure UpdSt where
  banks : Tab Bank
  boot : Tab Nat
  siphon : Nat
  first : Lane
  version : Nat
  windowEnd : Option Nat
  xfer : Option Xfer
  progSlot : Nat
  setSlot : Nat
  progId : Nat
  prog : Option (ProgImage × Nat)
  sett : Option (SettingsImage × Nat)
  settings : Option SettingsImage
  retSeq : Nat
  mtrStaged : Option Nat
  pulses : List Lane
  torn : List FlashPage
  fw : Option FwImage
  flashProg : Option ProgImage
  flashSett : Option SettingsImage
  retBad : Nat
  retCycle : Nat
  judged : Option SettingsImage
deriving DecidableEq, Repr

def UpdSt.reset : UpdSt := ⟨[], [], 0, .a, 0, none, none, 1, 1, 0, none, none, none, 0, none, [], [], none, none, none, 0, 0, none⟩

/-- The newest complete copy of the active lane's state that a standby has received (R414, R415): its cycle, the sessions, and the check-value
units that were busy then. The rest of it stands in the lane's own registers, memories and blocks, where the copy is applied at once. -/
structure LaneCopy where
  cycle : Nat
  sessions : List Session
  busy : List Nat
deriving DecidableEq, Repr

/-- What a lane holds beside its registers and memories; `bist` by lane-local cluster, `roundAt` the start of the BIST round (ns).
-/
structure LaneSt where
  cyc : CycSt
  lum : LumSt
  loop : LoopSt
  copy : Option LaneCopy
  bist : Tab BistX
  roundAt : Nat
deriving DecidableEq, Repr

def LaneSt.reset : LaneSt := ⟨.reset, .reset, .reset, none, [], 0⟩

/-- The module stops with a fault: nothing in this model does (each command's effect is given by the spec or is a free
value), so the type has no constructor. -/
inductive Fault
deriving DecidableEq, Repr

/-- Why a command is refused. -/
inductive Refusal
  /-- The command named has no meaning in the model yet; safe: the model stops where the hardware goes on. -/
  | notModelled (mnemonic : String)
deriving DecidableEq, Repr

/-- The state of the module. -/
structure State where
  /-- the commands that wait, first in, first out -/
  pending : List Instr
  /-- every register, keyed by address; lane B's own registers 2^32 higher -/
  regs : Tab Word
  /-- every addressed memory, keyed by address, lane B's own 2^32 higher and the memories without an address from 2^33 on -/
  mem : Tab Byte
  /-- the mode (R8) -/
  mode : Mode
  /-- the model's time, ns: it stands still while REFCLK is lost (R30) -/
  now : Nat
  /-- the AON domain's time since t1, ns (R17, R31: stops with REFCLK) -/
  aon : Nat
  /-- the model's own count of the free values taken -/
  freeCount : Nat
  /-- the model's own list of what the module sent, newest first -/
  sent : List Out
  /-- release sequence and clock monitors -/
  pwr : PowerSeq
  /-- the event queue, oldest first (R103) -/
  events : List EvEntry
  /-- SEQ of the next appended entry (R103) -/
  nextSeq : Nat
  /-- open rate-limit windows (R549) -/
  rates : List RateWin
  /-- open sessions (R82) -/
  sessions : List Session
  /-- SESSION_IDs used since power-on (R82) -/
  usedIds : List Nat
  /-- operations in flight, in order of acceptance (R92) -/
  flights : List Flight
  /-- closed sessions whose operations in flight are still to be answered (R85, R112) -/
  dying : List Session
  /-- the point table (R125) -/
  points : Tab PointEnt
  /-- generations of luminaire nodes (R126) -/
  nodeGen : Tab Nat
  /-- generations of luminaire groups (R126) -/
  groupGen : Tab Nat
  /-- owners of luminaire groups (R121) -/
  groupOwner : Tab Nat
  /-- the force table (R297) -/
  forces : List ForceEnt
  /-- writes, forces and unforces that wait for their tick (R101), in order of acceptance -/
  acts : List TickAct
  /-- the program image in force -/
  image : Option ProgImage
  /-- galleries whose WIDE_LANE was B at the start of the image (R409) -/
  wideLane : List (Fin 64)
  /-- committed output values by entry (R280) -/
  committed : Tab Nat
  /-- PROG_IN values by entry (R290) -/
  progIn : Tab Nat
  /-- the input image ring: buffer × 8,192 + entry (R268) -/
  inBuf : Tab Nat
  /-- number of the latest tick (R278) -/
  tickNo : Nat
  /-- base cycle in force, µs (R278) -/
  base : Nat
  /-- instant of the latest tick -/
  tickAt : Nat
  /-- first instant at which the accepted apply may take effect (R129) -/
  applyAt : Option Nat
  /-- the headgate -/
  hg : HgSt
  /-- resets under way, by domain bit -/
  doms : Tab DomRst
  /-- the SAFE responder (R465) -/
  responder : Option Lane
  /-- lane A -/
  laneA : LaneSt
  /-- lane B -/
  laneB : LaneSt
  /-- the image run by the first lane is not confirmed yet (R95, R525) -/
  updatePending : Bool
  /-- key operations accepted and not completed, oldest first (R503) -/
  keyQ : List KeyOp
  /-- the keys in the slots (R494): unlisted, a slot holds what `slotKey` says -/
  keys : Tab (List Byte)
  /-- length of the reply in the doorbell's reply buffer (R117) -/
  dbLen : Nat
  /-- length of the request taken from the doorbell's request buffer (R118) -/
  dbReqLen : Nat
  /-- the reply to it that is still to be written to the reply buffer -/
  dbReply : Option (List Byte)
  /-- the mirror's back buffer is complete (R115) -/
  backDone : Bool
  /-- ports beside their registers, by port number less one -/
  ports : Tab PortX
  /-- the allocator, the sluice and power failure beside their registers -/
  alloc : AllocSt
  /-- the groups of each node, from the settings image (R215) -/
  nodeGroups : Tab (List Nat)
  /-- the switch beside its registers -/
  eth : EthSt
  /-- the backup domain beside its registers -/
  rtc : RtcSt
  /-- instant at which the next tick should fall (R259), ns -/
  tickDue : Nat
  /-- the newest committed RETAIN set in the retention store -/
  retSet : Option RetSet
  /-- instant at which it was committed, ns -/
  retSetAt : Nat
  /-- physical cells mapped out at run time, as the retention store records them (R304, R305) -/
  mapOuts : List Nat
  /-- analogue channels beside their registers, by channel number less one -/
  aio : Tab AioX
  /-- the CAN controllers beside their registers -/
  can : CanSt
  /-- supervisor writes that wait for Rel(n) of the cycle R101 selected, in order of acceptance -/
  relActs : List TickAct
  /-- schedule tables for which event 549 has been raised since power-on (R321) -/
  schedBad : List Nat
  /-- the metering DSP beside its registers -/
  mtr : MtrSt
  /-- the energy store (R357) -/
  energy : Energy
  /-- its newest save in the retention store -/
  energySave : Option EnergySave
  /-- port meters beside the energy store -/
  portMtr : Tab PortMtr
  /-- pulse outputs beside their registers -/
  pulses : Tab PulseX
  /-- update and retention beside their registers -/
  upd : UpdSt
  /-- the flowstone recorder beside its registers -/
  flow : FlowSt
  /-- snapshots -/
  snap : SnapSt
  /-- latched high words, by the key of the high register (R17) -/
  rl : Tab Nat
  /-- objects re-roled at a tick whose image is not released yet (R101) -/
  oldRoles : List OldRole
  /-- what took effect at the newest ticks, the newest first, eight at most (R291) -/
  tickLog : List TickRec
  /-- writes that a force taking effect at the same tick hides until its release (R308), in order of acceptance -/
  hidden : List TickAct
  /-- physical cells mapped out since the last S of their lane, with whether their local memory can be read (R305) -/
  cellFaults : List (Nat × Bool)
deriving DecidableEq, Repr

/-- The module at the reset of its AON domain: no command waits, main power has not been found valid yet, every register
reads its reset value, and no memory holds anything. -/
def State.reset : State where
  pending := []
  regs := []
  mem := []
  mode := .boot
  now := 0
  aon := 0
  freeCount := 0
  sent := []
  pwr := ⟨false, false, false, false, 0, .powerOn, 0, 0, 0, [], false, 0, false⟩
  events := []
  nextSeq := 1
  rates := []
  sessions := []
  usedIds := []
  flights := []
  dying := []
  points := []
  nodeGen := []
  groupGen := []
  groupOwner := []
  forces := []
  acts := []
  image := none
  wideLane := []
  committed := []
  progIn := []
  inBuf := []
  tickNo := 0
  base := 1000
  tickAt := 0
  applyAt := none
  hg := ⟨.reset, .reset, .dual, 0, .boot, .a, none, none, none, none, none, false, false, false, 0, 0, none, [], false, false, false, false, none, none, [], []⟩
  doms := []
  responder := none
  laneA := .reset
  laneB := .reset
  updatePending := false
  keyQ := []
  keys := []
  dbLen := 0
  dbReqLen := 0
  dbReply := none
  backDone := false
  ports := []
  alloc := .reset
  nodeGroups := []
  eth := .reset
  rtc := .reset
  tickDue := 0
  retSet := none
  retSetAt := 0
  mapOuts := []
  aio := []
  can := .reset
  relActs := []
  schedBad := []
  mtr := .reset
  energy := .zero
  energySave := none
  portMtr := []
  pulses := []
  upd := .reset
  flow := .reset
  snap := ⟨none, none⟩
  rl := []
  oldRoles := []
  tickLog := []
  hidden := []
  cellFaults := []

end Sys2Proof.Machine
end

