-- ==== Sys2Proof/Machine/Ops.lean ====
section
/-! DEFINITION. The operations every command is built from: registers and their fields, memories, free values, the event
queue and its rate limits, grants, ownership, resets in force, and what leaves the module. -/

namespace Sys2Proof.Machine
open Sys2Proof

/-! ### Registers -/

/-- Where lane `l`'s own copy of the register or memory byte at address `a` is held (R38, R39). -/
def laneKey (l : Lane) (a : Nat) : Nat := a + 0x100000000 * l.num

/-- Is `a` the address of a register that each lane has for itself (R38)? -/
def isLaneReg (a : Nat) : Bool := (0x180000 ≤ a && a ≤ 0x1DFFFF) || (0x30000 ≤ a && a ≤ 0x30FFF)

/-- The reset value of the gallery configuration word of gallery `g` (R128). -/
def galReset (g : Nat) : Nat := if g = 0 then 0xC01003E8 else 0x00040000 + 1000 + g

/-- The key slots as delivered (R494, R497, R500, R507): slots 0–3 and 64 hold keys, every other slot is empty. -/
def keyReset (n o : Nat) : Nat :=
  match o, n with
  | 0, 0 => 0xC0020004
  | 0, 1 => 0xC0020014
  | 0, 2 | 0, 3 => 0xC0020008
  | 0, 64 => 0x40020004
  | 4, 0 | 4, 1 | 4, 2 | 4, 3 | 4, 64 => 1
  | 8, 1 => 0x00100000
  | 8, 64 => 0x01200000
  | 8, _ => 0xFF000000
  | 12, 1 | 12, 64 => 1
  | _, _ => 0

/-- The reset value of the register held at key `k` (the Reset columns of the register tables). -/
def regReset (k : Nat) : Word :=
  let a := k % 0x100000000
  if 0x12000 ≤ a && a ≤ 0x123FF && (a % 16 == 0 || a % 16 == 8) then BitVec.ofNat 32 (galReset ((a - 0x12000) / 16))
  else if 0x1A0800 ≤ a && a ≤ 0x1A0BFF then
    BitVec.ofNat 32 (((a - 0x1A0800) / 4 / 16 * 17 + (a - 0x1A0800) / 4 % 16) * 0x10000)
  else if 0x35000 ≤ a && a ≤ 0x357FF then BitVec.ofNat 32 (keyReset ((a - 0x35000) / 16) (a % 16))
  else if 0x141000 ≤ a && a ≤ 0x144FFF then
    (match a % 0x1000, decide (a < 0x143000) with
    | 0x000, true => 0xE2000000
    | 0x000, false => 0x80000000
    | 0x00C, _ => 0x2400
    | 0x010, true => BitVec.ofNat 32 (0x300 * 0x100000 + 0xC0 * 0x400 + 0x180)
    | 0x010, false => 0
    | 0x014, false => 0
    | _, _ => match regRow? a with
      | some r => BitVec.ofNat 32 r.reset
      | none => 0)
  else match regRow? a with
    | some r => BitVec.ofNat 32 r.reset
    | none => 0

/-- The register held at key `k`. -/
def State.rd (s : State) (k : Nat) : Word := tabGet regReset s.regs k

/-- The state with `v` in the register held at key `k`. -/
def State.wr (s : State) (k : Nat) (v : Word) : State := { s with regs := tabSet regReset s.regs k v }

/-- The value of field `f` of the block instance at `b`. -/
def State.fget (s : State) (b : Nat) (f : Fld) : Nat := fieldGet (s.rd (b + f.off)).toNat f.lo f.width

/-- The state with `v` (reduced to the field's width) in field `f` of the block instance at `b`. -/
def State.fset (s : State) (b : Nat) (f : Fld) (v : Nat) : State :=
  s.wr (b + f.off) (BitVec.ofNat 32 (fieldPut (s.rd (b + f.off)).toNat f.lo f.width v))

/-- A one-bit field as a truth value. -/
def State.fbit (s : State) (b : Nat) (f : Fld) : Bool := s.fget b f != 0

/-- Write a one-bit field. -/
def State.fsetB (s : State) (b : Nat) (f : Fld) (v : Bool) : State := s.fset b f (if v then 1 else 0)

/-- Add `n` to a counter that saturates at its field's largest value. -/
def State.fadd (s : State) (b : Nat) (f : Fld) (n : Nat) : State := s.fset b f (satAdd f.width (s.fget b f) n)

/-- Count one more in a saturating counter. -/
def State.finc (s : State) (b : Nat) (f : Fld) : State := s.fadd b f 1

/-- Write the largest of a field's value and `v`, `v` held at the field's largest value. -/
def State.fmax (s : State) (b : Nat) (f : Fld) (v : Nat) : State :=
  s.fset b f (max (s.fget b f) (min v (2 ^ f.width - 1)))

/-- Write `v`, held at the field's largest value. -/
def State.fsat (s : State) (b : Nat) (f : Fld) (v : Nat) : State := s.fset b f (min v (2 ^ f.width - 1))

/-- Return every register whose key satisfies `p` to its reset value. -/
def State.regClear (s : State) (p : Nat → Bool) : State := { s with regs := tabDrop p s.regs }

/-! ### Memories -/

/-- What an unlisted byte of a memory reads as: erased flash reads ones (R517), every other memory zero. -/
def memDefault (k : Nat) : Byte := if 0x400000000 ≤ k then 0xFF else 0

/-- The canonical form of the memory. -/
def Memory.wf (m : List Host.Cell) : Bool := tabWf memDefault m

/-- The byte of memory held at key `k`. -/
def State.mget (s : State) (k : Nat) : Byte := tabGet memDefault s.mem k

/-- The state with byte `v` at key `k`. -/
def State.mset (s : State) (k : Nat) (v : Byte) : State := { s with mem := tabSet memDefault s.mem k v }

/-- Write bytes from key `k` upward. -/
def State.mwrite (s : State) (k : Nat) : List Byte → State
  | [] => s
  | v :: vs => (s.mset k v).mwrite (k + 1) vs

/-- The little-endian number in the `n` bytes from key `k`. -/
def State.mnat (s : State) (k : Nat) : Nat → Nat
  | 0 => 0
  | n + 1 => (s.mget k).toNat + 256 * s.mnat (k + 1) n

/-- The `n` bytes from key `k`. -/
def State.mbytes (s : State) (k : Nat) : Nat → List Byte
  | 0 => []
  | n + 1 => s.mget k :: s.mbytes (k + 1) n

/-- Return every byte of memory whose key satisfies `p` to what an unlisted byte reads as. -/
def State.memClear (s : State) (p : Nat → Bool) : State := { s with mem := tabDrop p s.mem }

/-- Where the mirror's front and back buffers, the doorbell's buffers and the lanes' flash are held (R115, R117, R517). -/
def mirrorFront : Nat := 0x200000000
def mirrorBack : Nat := 0x200001000
def doorbellReq : Nat := 0x200002000
def doorbellRep : Nat := 0x200003000
def flashKey (l : Lane) (o : Nat) : Nat := 0x400000000 + 0x4000000 * l.num + o

/-! ### Free values, and what the module sends -/

/-- A fresh free value, and the state that has taken it. -/
def State.free (s : State) : BitVec 32 × State := (Config.freeWord s.freeCount, { s with freeCount := s.freeCount + 1 })

/-- The module sends `o`. -/
def State.send (s : State) (o : Out) : State := { s with sent := o :: s.sent }

/-- Milliseconds since t1 of the last power-on (`SYS_UPTIME`, R41). -/
def State.uptime (s : State) : Nat := s.aon / 1000000

/-- A copy of a SYSTEM page is written in the retention store with the next SEQ (R530, R532); power-fail warning starts no such write. -/
def State.sysPage (s : State) : State :=
  if s.fbit 0 ALLOC_ENTRY_STATUS_PFW then s else { s with upd := { s.upd with retSeq := s.upd.retSeq + 1 } }

/-! ### The event queue (R103–R105) -/

/-- Fully acknowledged (R104). -/
def EvEntry.full (e : EvEntry) : Bool := e.ackOwner && e.ackOp

/-- The SEQ after `n`: 0xFFFF_FFFF is followed by 1 (R103). -/
def seqAfter (n : Nat) : Nat := if n = 0xFFFFFFFF then 1 else n + 1

/-- Append an entry; when all 1,024 are in use it replaces the oldest fully acknowledged entry, or the oldest when there
is none, and the answer then says that an entry lacking a mark was overwritten (R105). -/
def evPush (q : List EvEntry) (e : EvEntry) : List EvEntry × Bool :=
  if q.length < 1024 then (q ++ [e], false)
  else match q.findIdx? EvEntry.full with
    | some i => (q.eraseIdx i ++ [e], false)
    | none => (q.drop 1 ++ [e], true)

/-- The state with queue `q` and the next SEQ `n`. -/
def State.queued (s : State) (q : List EvEntry) (n : Nat) : State := { s with events := q, nextSeq := n }

/-- One occurrence of a source reaches the queue (R105), without event 508. -/
def State.evAdd (s : State) (src gal : Nat) (urgent : Bool) (data : Nat) : State × Bool :=
  let t := s.uptime % 0x100000000
  let seq := s.nextSeq
  match s.events.find? (fun e => e.source == src && e.gallery == gal && !e.full) with
  | some e =>
    let e' : EvEntry := { e with seq := seq, rep := min (e.rep + 1) 255, data := data, time := t,
                                 urgent := e.urgent || urgent, ackOwner := false, ackOp := false }
    (s.queued (s.events.erase e ++ [e']) (seqAfter seq), false)
  | none =>
    let r := evPush s.events ⟨seq, gal, src, urgent, false, false, 1, data, t⟩
    (s.queued r.1 (seqAfter seq), r.2)

/-- A source raises an event in a gallery (R105); when an entry lacking a mark was overwritten, `EVT_STATUS.OVERRUN` sets
and event 508 is raised. -/
def State.event (s : State) (src gal : Nat) (urgent : Bool) (data : Nat) : State :=
  let r := s.evAdd src gal urgent data
  if r.2 then ((r.1.fset 0 EVT_STATUS_OVERRUN 1).evAdd 508 0 true 0).1 else r.1

/-- Does the window belong to source `src` for object `obj`? -/
def RateWin.is (w : RateWin) (src obj : Nat) : Bool := w.source == src && w.obj == obj

/-- Is the window still open at `now` (R549)? -/
def RateWin.isOpen (w : RateWin) (now : Nat) : Bool := now < w.start + w.len

/-- A rate-limited source without a count: raised at the occurrence that opens a window of `len` ns, and not again inside
it (R549). -/
def State.eventLimited (s : State) (src obj gal : Nat) (urgent : Bool) (data len : Nat) : State :=
  if s.rates.any (fun w => w.is src obj && w.isOpen s.now) then s
  else
    let w : RateWin := ⟨src, obj, gal, s.now, len, false, 1, data, urgent⟩
    let s1 : State := { s with rates := s.rates.filter (fun x => !RateWin.is x src obj) ++ [w] }
    s1.event src gal urgent data

/-- A rate-limited source that counts: an occurrence opens a window or is counted in the open one; the event is raised at
the window's end (R549). `n` occurrences come at once. -/
def State.eventCounted (s : State) (src obj gal : Nat) (urgent : Bool) (data len n : Nat) : State :=
  if s.rates.any (fun w => w.is src obj) then
    { s with rates := s.rates.map (fun w => if w.is src obj then { w with count := w.count + n, data := data } else w) }
  else { s with rates := s.rates ++ [⟨src, obj, gal, s.now, len, true, n, data, urgent⟩] }

/-- The data word of a counting source at the end of its window: the count alone for events 504, 507 and 545 (R109, R335), the count
in [15:0] below the last occurrence's other fields for every other one. Event 593 counts two kinds in one word (R470). -/
def RateWin.word (w : RateWin) : Nat :=
  if w.source = 504 ∨ w.source = 507 ∨ w.source = 545 then min w.count 0xFFFFFFFF
  else if w.source = 593 then w.data
  else w.data / 0x10000 * 0x10000 + min w.count 0xFFFF

/-! ### Domains, lanes, grants and ownership -/

/-- Is the domain with bit `d` of `SYS_DOMAINS.IN_RESET` held in reset (R41)? -/
def State.inReset (s : State) (d : Nat) : Bool := (s.fget 0 SYS_DOMAINS_IN_RESET).testBit d

/-- Set or clear a domain's bit of `SYS_DOMAINS.IN_RESET`. -/
def State.setInReset (s : State) (d : Nat) (v : Bool) : State :=
  let x := s.fget 0 SYS_DOMAINS_IN_RESET
  s.fset 0 SYS_DOMAINS_IN_RESET (if v then x ||| 2 ^ d else x - (if x.testBit d then 2 ^ d else 0))

/-- The reset of a domain under way. -/
def State.dom (s : State) (d : Dom) : DomRst := tabGet (fun _ => DomRst.idle) s.doms d.bit

def State.setDom (s : State) (d : Dom) (r : DomRst) : State :=
  { s with doms := tabSet (fun _ => DomRst.idle) s.doms d.bit r }

/-- A shared domain answers nothing: it is in reset or its isolation is engaged (R447). -/
def State.isolated (s : State) (d : Dom) : Bool := s.inReset d.bit || decide ((s.dom d).phase ≠ .idle)

def State.laneHg (s : State) : Lane → LaneHg
  | .a => s.hg.a
  | .b => s.hg.b

def State.setLaneHg (s : State) (l : Lane) (h : LaneHg) : State :=
  match l with
  | .a => { s with hg := { s.hg with a := h } }
  | .b => { s with hg := { s.hg with b := h } }

/-- The lane state of R412. -/
def State.lstate (s : State) (l : Lane) : LState := (s.laneHg l).state

def State.setLstate (s : State) (l : Lane) (x : LState) : State := s.setLaneHg l { s.laneHg l with state := x }

def State.lane (s : State) : Lane → LaneSt
  | .a => s.laneA
  | .b => s.laneB

def State.setLane (s : State) (l : Lane) (x : LaneSt) : State :=
  match l with
  | .a => { s with laneA := x }
  | .b => { s with laneB := x }

def State.cyc (s : State) (l : Lane) : CycSt := (s.lane l).cyc

def State.setCyc (s : State) (l : Lane) (c : CycSt) : State := s.setLane l { s.lane l with cyc := c }

/-- A lane whose processor runs: out of reset and not failed or retired (R412); in SAFE only the responder's (R465), while its domain is out of
reset. -/
def State.procRuns (s : State) (l : Lane) : Bool :=
  if s.mode = .safe then decide (s.responder = some l) && !s.inReset l.dom.bit
  else match s.lstate l with
    | .reset | .failed | .retired => false
    | _ => true

/-- A lane that runs cycles. -/
def State.runsCycles (s : State) (l : Lane) : Bool :=
  match s.lstate l with
  | .active | .wideRun => true
  | _ => false

/-- The base of `HG_GRANTg` (R438). -/
def grantB (g : Nat) : Nat := 0x10100 + 4 * g

/-- The lane the grant table names for gallery `g` (R20). -/
def State.grant (s : State) (g : Nat) : Option Lane :=
  if s.fbit (grantB g) HG_GRANT_VALID then some (if s.fbit (grantB g) HG_GRANT_LANE then .b else .a) else none

/-- Write a grant-table entry. -/
def State.setGrant (s : State) (g : Nat) (l : Lane) (shed takenOver : Bool) : State :=
  ((s.fset (grantB g) HG_GRANT_VALID 1).fset (grantB g) HG_GRANT_LANE l.num |>.fsetB (grantB g) HG_GRANT_SHED shed).fsetB
    (grantB g) HG_GRANT_TAKEN_OVER takenOver

/-- Is gallery `g` shed (R424)? -/
def State.galShed (s : State) (g : Nat) : Bool := s.fbit (grantB g) HG_GRANT_SHED

def galB (g : Nat) : Nat := 0x12000 + 0x10 * g

/-- The live EN of a gallery (R128). -/
def State.galEn (s : State) (g : Nat) : Bool := s.fbit (galB g) HG_GAL_LIVE_EN

/-- The live owners of the resources of R121. -/
def State.portOwner (s : State) (p : Nat) : Nat := s.fget (0x13100 + 4 * p) HG_OWN_PORT_OWNER
def State.inputOwner (s : State) (i : Nat) : Nat := s.fget (0x13200 + 4 * i) HG_OWN_I_OWNER
def State.aioOwner (s : State) (c : Nat) : Nat := s.fget (0x13300 + 4 * c) HG_OWN_AIO_OWNER
def State.pulseOwner (s : State) (k : Nat) : Nat := s.fget (0x13340 + 4 * k) HG_OWN_PULSE_OWNER
def State.canOwner (s : State) (n o : Nat) : Nat := s.fget (0x13400 + 4 * (128 * n + o)) HG_OWN_CAN_OWNER
def State.taskOwner (s : State) (t : Nat) : Nat := s.fget (0x13C00 + 4 * t) HG_OWN_TASK_OWNER
def State.loopOwner (s : State) (l : Nat) : Nat := s.fget (0x14000 + 4 * l) HG_OWN_LOOP_OWNER

/-- The owner of a luminaire group. -/
def State.grpOwner (s : State) (g : Nat) : Nat := tabGet (fun _ => 0) s.groupOwner g

/-- The gallery whose resource a binding names (R123). -/
def State.bindOwner (s : State) (task : Nat) : Binding → Nat
  | .prog => s.taskOwner task
  | .loop l _ => s.loopOwner l.val
  | .aio c => s.aioOwner c.val
  | .can n o _ => s.canOwner n.val o.val
  | .meterIn i _ => s.inputOwner i.val
  | .meterPort p _ => s.portOwner p.val
  | .port p => s.portOwner p.val
  | .node n => s.portOwner (n.val / 4)
  | .group g => s.grpOwner g.val

def State.point (s : State) (e : Nat) : PointEnt := tabGet (fun _ => PointEnt.none) s.points e

def State.setPoint (s : State) (e : Nat) (p : PointEnt) : State :=
  { s with points := tabSet (fun _ => PointEnt.none) s.points e p }

/-- The owner of point-table entry `e` (R123). -/
def State.pointOwner (s : State) (e : Nat) : Nat := s.bindOwner (s.point e).task (s.point e).bind

/-- The base cycle in force, ns (R278). -/
def State.periodNs (s : State) : Nat := 1000 * s.base

/-- The number of the tick about to fall (R278: it wraps from 0xFFFF_FFFF to 0). -/
def State.nextTick (s : State) : Nat := (s.tickNo + 1) % 0x100000000

/-- The number of the first tick at least 20 µs after now (R101). -/
def State.dueTick (s : State) : Nat :=
  let k := if s.periodNs = 0 then 1 else (s.now + 20000 - s.tickAt + s.periodNs - 1) / s.periodNs
  (s.tickNo + max k 1) % 0x100000000

/-- A shared block drops a write from lane `l` for a resource of gallery `g`: it is counted, and event 3 is raised at most once per cycle (R20, R42), in
the windows of R549. -/
def State.grantReject (s : State) (l : Lane) (g : Nat) : State :=
  (s.finc 0 HG_GRANT_REJ).eventLimited 3 0 0 true (l.num * 0x1000000 + g * 0x10000) s.periodNs

/-- May lane `l` write a resource of gallery `g` (R20)? -/
def State.granted (s : State) (l : Lane) (g : Nat) : Bool := decide (s.grant g = some l)

/-- The grant table, as one more than the number of the lane each gallery is granted to. -/
def State.grantTab (s : State) : Tab Nat :=
  (List.range 64).foldl (fun t g => match s.grant g with
    | some l => put0 t g (l.num + 1)
    | none => t) []

/-- What took effect at tick `n` (R291). -/
def State.tickRec (s : State) (n : Nat) : TickRec := (s.tickLog.find? (fun r => r.n == n)).getD ⟨n, s.tickAt, 0, s.forces, s.grantTab⟩

/-- Was gallery `g` granted to lane `l` at tick `n`? A lane sends what its cycle has for a gallery granted to it then; where the grant has moved
since, the shared block drops it (R20). -/
def State.hadGrant (s : State) (l : Lane) (n g : Nat) : Bool := nat0 (s.tickRec n).grants g == l.num + 1

end Sys2Proof.Machine
end

