-- ==== Sys2Proof/Machine/Real.lean ====
section
/-! DEFINITION. Fractions, IEEE 754 binary32 and binary64 as bit patterns, and fixed-point angle functions, for the loop engine
(R315–R321), analogue channels (R365, R366), CAN signals (R392) and metering (R343, R360). -/

namespace Sys2Proof.Machine
open Sys2Proof

/-- A fraction; the denominator is never zero. -/
structure Frac where
  num : Int
  den : Nat
deriving DecidableEq, Repr

def Frac.ofInt (n : Int) : Frac := ⟨n, 1⟩

/-- A binary32 constant 0. -/
def Frac.zero : Frac := ⟨0, 1⟩

def Frac.neg (a : Frac) : Frac := ⟨-a.num, a.den⟩

def Frac.add (a b : Frac) : Frac := ⟨a.num * b.den + b.num * a.den, a.den * b.den⟩

def Frac.sub (a b : Frac) : Frac := a.add b.neg

def Frac.mul (a b : Frac) : Frac := ⟨a.num * b.num, a.den * b.den⟩

/-- A quotient; nothing for a divisor of zero. -/
def Frac.div (a b : Frac) : Option Frac :=
  if b.num = 0 then none
  else if b.num < 0 then some ⟨-(a.num * b.den), a.den * b.num.natAbs⟩
  else some ⟨a.num * b.den, a.den * b.num.natAbs⟩

def Frac.lt (a b : Frac) : Bool := decide (a.num * b.den < b.num * a.den)

def Frac.le (a b : Frac) : Bool := decide (a.num * b.den ≤ b.num * a.den)

def Frac.eq (a b : Frac) : Bool := decide (a.num * b.den = b.num * a.den)

def Frac.min (a b : Frac) : Frac := if b.lt a then b else a

def Frac.max (a b : Frac) : Frac := if a.lt b then b else a

/-- The natural number nearest to `n / d`, the even one of two equally near. -/
def divNearest (n d : Nat) : Nat :=
  let q := n / d
  let r := 2 * (n % d)
  if r < d then q else if d < r then q + 1 else q + q % 2

/-- The integer nearest to a fraction, the even one of two equally near. -/
def Frac.round (a : Frac) : Int := if a.num < 0 then -(divNearest a.num.natAbs a.den : Int) else divNearest a.num.natAbs a.den

/-- The integer part of a fraction, toward minus infinity. -/
def Frac.floor (a : Frac) : Int := a.num / a.den

/-! ### IEEE 754 (binary32: 8 exponent bits and 23 fraction bits; binary64: 11 and 52) -/

/-- The value of a binary format's pattern, if it is finite. -/
def ieeeVal (eb fb x : Nat) : Option Frac :=
  let e := x / 2 ^ fb % 2 ^ eb
  let m := x % 2 ^ fb
  let sgn : Int := if x / 2 ^ (fb + eb) % 2 = 1 then -1 else 1
  let bias := 2 ^ (eb - 1) - 1
  if e = 2 ^ eb - 1 then none
  else
    let mant := if e = 0 then m else m + 2 ^ fb
    let ex := (if e = 0 then 1 else e)
    if bias + fb ≤ ex then some ⟨sgn * (mant * 2 ^ (ex - bias - fb) : Nat), 1⟩
    else some ⟨sgn * (mant : Nat), 2 ^ (bias + fb - ex)⟩

/-- A fraction rounded to the nearest value of a binary format, ties to even; beyond the largest value, infinity. -/
def ieeeRound (eb fb : Nat) (q : Frac) : Nat :=
  let n := q.num.natAbs
  let bias := 2 ^ (eb - 1) - 1
  let sgn := if q.num < 0 then 2 ^ (fb + eb) else 0
  if n = 0 then 0
  else
    -- the exponent of the leading bit, plus `off` to keep it a natural number
    let off := n.log2 + q.den.log2 + bias + fb + 2
    let e0 := off + n.log2 - q.den.log2
    let e1 := if n * 2 ^ q.den.log2 < q.den * 2 ^ n.log2 then e0 - 1 else e0
    -- the exponent of the last place kept, never below that of a subnormal
    let low := off + 1 - bias - fb
    let k := max (e1 - fb) low
    let m := if off ≤ k then divNearest n (q.den * 2 ^ (k - off)) else divNearest (n * 2 ^ (off - k)) q.den
    let bits := (k - low) * 2 ^ fb + m
    sgn + min bits ((2 ^ eb - 1) * 2 ^ fb)

/-- The value of a binary32 pattern, if it is finite. -/
def f32? (x : Nat) : Option Frac := ieeeVal 8 23 x

/-- Is a binary32 a NaN? -/
def f32Nan (x : Nat) : Bool := x / 0x800000 % 256 == 255 && x % 0x800000 != 0

/-- A fraction as a binary32 pattern (rounding to nearest, R315). -/
def f32Of (q : Frac) : Nat := ieeeRound 8 23 q

def f64? (x : Nat) : Option Frac := ieeeVal 11 52 x

def f64Of (q : Frac) : Nat := ieeeRound 11 52 q

/-- A binary32 pattern that is neither NaN nor an infinity. -/
def f32Finite (x : Nat) : Bool := x / 0x800000 % 256 != 255

def f64Finite (x : Nat) : Bool := x / 0x10000000000000 % 2048 != 2047

/-- The largest number whose square is at most `n`, by `k` binary digits. -/
def sqrtBits (n : Nat) : Nat → Nat → Nat
  | 0, r => r
  | k + 1, r => if (r + 2 ^ k) * (r + 2 ^ k) ≤ n then sqrtBits n k (r + 2 ^ k) else sqrtBits n k r

/-- Limit an integer to an interval. -/
def clampI (lo hi x : Int) : Int := max lo (min hi x)

/-! ### Angles -/

/-- The arctangents of 2^-k, k = 0–39, in turns × 2^48. -/
def atanTable : List Nat :=
  [35184372088832, 20770547670515, 10974586953444, 5570871696862, 2796246208089, 1399486241028, 699913886760,
   349978300884, 174991820497, 87496244017, 43748163730, 21874087080, 10937044192, 5468522177,
   2734261099, 1367130551, 683565276, 341782638, 170891319, 85445659, 42722830,
   21361415, 10680707, 5340354, 2670177, 1335088, 667544, 333772,
   166886, 83443, 41722, 20861, 10430, 5215, 2608,
   1304, 652, 326, 163, 81]

/-- A rotation by steps: the vector (x, y) is turned toward the x axis, or, with `toAxis` false, through the angle z (turns × 2^48);
answers x, y and the angle left or passed. -/
def cordic (toAxis : Bool) : List Nat → Nat → Int → Int → Int → Int × Int × Int
  | [], _, x, y, z => (x, y, z)
  | a :: as, k, x, y, z =>
    if (if toAxis then decide (y < 0) else decide (0 ≤ z)) then
      cordic toAxis as (k + 1) (x - y / 2 ^ k) (y + x / 2 ^ k) (z - a)
    else cordic toAxis as (k + 1) (x + y / 2 ^ k) (y - x / 2 ^ k) (z + a)

/-- atan2(y, x) in turns × 2^48, between minus a half and a half turn. -/
def atan2Turns (y x : Int) : Int :=
  if x = 0 ∧ y = 0 then 0
  else
    let s : Int := 2 ^ (80 - min 79 (max x.natAbs y.natAbs).log2)
    let a := if x < 0 then -x else x
    let z := (cordic true atanTable 0 (a * s) (y * s) 0).2.2
    if x < 0 then (if y < 0 then -(2 ^ 47) - z else 2 ^ 47 - z) else z

/-- 2^48 × sin of an angle in turns × 2^48. -/
def sinTurns (t : Int) : Int :=
  let q := t % 2 ^ 48
  let k := (q + 2 ^ 45) / 2 ^ 46 % 4
  let r := q - (q + 2 ^ 45) / 2 ^ 46 * 2 ^ 46
  let v := cordic false atanTable 0 170926505739102 0 r
  if k = 0 then v.2.1 else if k = 1 then v.1 else if k = 2 then -v.2.1 else -v.1

end Sys2Proof.Machine
end

