-- ==== Sys2Proof/Machine/AioOps.lean ====
section
/-! DEFINITION. Analogue process channels: scaling, writes, faults and configuration (chapter "Analogue process channels"). -/

namespace Sys2Proof.Machine
open Sys2Proof

/-- The block of channel AIOnn, `c` = nn − 1. -/
def aioB (c : Nat) : Nat := 0xB0100 + 0x100 * c

def State.aioX (s : State) (c : Nat) : AioX := tabGet (fun _ => AioX.reset) s.aio c

def State.setAioX (s : State) (c : Nat) (x : AioX) : State := { s with aio := tabSet (fun _ => AioX.reset) s.aio c x }

/-- The mode a configuration word selects; 8–15 act as OFF (R364). -/
def aioModeOf (cfg : Nat) : Nat := if fieldGet cfg 28 4 < 8 then fieldGet cfg 28 4 else 0

/-- The mode in force. -/
def State.aioMode (s : State) (c : Nat) : Nat := aioModeOf (s.aioX c).cfg

def aioOut (m : Nat) : Bool := m == 1 || m == 2 || m == 3

def aioIn (m : Nat) : Bool := 4 ≤ m && m ≤ 7

def aioVolt (m : Nat) : Bool := m == 3 || m == 7

/-- Does the VERIFY in force include D, or V (R371, R372)? 00 acts as 11. -/
def aioVerD (cfg : Nat) : Bool := fieldGet cfg 26 2 != 1
def aioVerV (cfg : Nat) : Bool := fieldGet cfg 26 2 != 2

/-! ### Scaling (R365, R366) -/

/-- The terminal quantity of a code, in mA or V. -/
def aioQty (m : Nat) (code : Frac) : Frac := code.mul ⟨if aioVolt m then 12 else 24, 65536⟩

/-- The code of a terminal quantity; a voltage output stops at the code of 11.0 V. -/
def aioCodeOf (m : Nat) (q : Frac) : Nat :=
  let n := ((q.mul ⟨65536, if aioVolt m then 12 else 24⟩).round)
  (min (max 0 n).toNat (if m = 3 then 60075 else 65535))

/-- The quantities at ENG_LO and ENG_HI. -/
def aioLoHi (m : Nat) : Frac × Frac :=
  (⟨if m = 1 ∨ m = 4 ∨ m = 5 then 4 else 0, 1⟩, ⟨if aioVolt m then 10 else 20, 1⟩)

/-- ENG_LO and ENG_HI when they scale: finite and different. -/
def State.aioEng (s : State) (c : Nat) : Option (Frac × Frac) :=
  match f32? (s.fget (aioB c) AIO_CH_ENG_LO), f32? (s.fget (aioB c) AIO_CH_ENG_HI) with
  | some a, some b => if a.eq b then none else some (a, b)
  | _, _ => none

/-- The code of an output value: within the channel's range, or the code at the range's end. -/
def State.aioEncode (s : State) (c : Nat) (x : Frac) : Nat :=
  let m := s.aioMode c
  match s.aioEng c with
  | none => aioCodeOf m x
  | some (lo, hi) =>
    let r := aioLoHi m
    match (x.sub lo).div (hi.sub lo) with
    | none => aioCodeOf m r.1
    | some f => aioCodeOf m (r.1.add ((Frac.min (Frac.max f Frac.zero) ⟨1, 1⟩).mul (r.2.sub r.1)))

/-- The engineering value of a code, as binary32. -/
def State.aioDecode (s : State) (c : Nat) (code : Frac) : Nat :=
  let m := s.aioMode c
  let q := aioQty m code
  match s.aioEng c with
  | none => f32Of q
  | some (lo, hi) =>
    let r := aioLoHi m
    match (q.sub r.1).div (r.2.sub r.1) with
    | none => f32Of lo
    | some f => f32Of (lo.add (f.mul (hi.sub lo)))

/-- The filtered value of an input: the mean of the last 400 conversions, or the latest (R368). -/
def AioX.value (x : AioX) : Frac :=
  if fieldGet x.cfg 24 1 = 1 then ⟨((x.filt.foldl (fun n v => n + v) 0 : Nat) : Int), max 1 x.filt.length⟩ else ⟨x.filt.headD 0, 1⟩

/-- `AIO_CHnn_VALUE`: an input's value, or the value of an output's code in force; 0 when OFF (R370). -/
def State.aioShow (s : State) (c : Nat) : State :=
  let m := s.aioMode c
  let x := s.aioX c
  s.fset (aioB c) AIO_CH_VALUE (if aioIn m then s.aioDecode c x.value else if aioOut m then s.aioDecode c ⟨x.code, 1⟩ else 0)

/-! ### Faults (R371–R374) -/

/-- An output fault is present: cause 0x05–0x09. -/
def AioX.outFault (x : AioX) : Bool := x.causes / 16 != 0

/-- The lowest cause present; 0 none. -/
def lowCause (m : Nat) : Nat := ((List.range 9).find? (fun i => m.testBit i)).elim 0 (fun i => i + 1)

/-- STATUS follows the causes present. -/
def State.aioFaultShow (s : State) (c : Nat) : State :=
  let m := (s.aioX c).causes
  (s.fset (aioB c) AIO_CH_STATUS_CAUSE (lowCause m)).fsetB (aioB c) AIO_CH_STATUS_FAULT (m != 0)

/-- With FAULT_SAFE, an output fault drives the SAFE code (R374). -/
def State.aioSafeDrive (s : State) (c : Nat) : State :=
  let x := s.aioX c
  if aioOut (aioModeOf x.cfg) && fieldGet x.cfg 25 1 == 1 && x.outFault then
    (s.fset (aioB c) AIO_CH_OUT_CODE (s.fget (aioB c) AIO_CH_SAFE_CODE)).fset (aioB c) AIO_CH_STATUS_SAFE_DRIVEN 1
  else s

/-- Is no fault judged on the channel now: domain in reset, surge (R375), OFF, or the idle of a MODE change (R377, R378)? -/
def State.aioQuiet (s : State) (c : Nat) : Bool :=
  s.isolated .aio || s.fbit (aioB c) AIO_CH_STATUS_SUSPENDED || s.aioMode c == 0 || decide (s.now < (s.aioX c).idleUntil)

/-- A cause becomes present (R373, R380): it is counted and event k = 0 is raised for the owner at the fault's start. -/
def State.aioDeclare (s : State) (c cause : Nat) : State :=
  let x := s.aioX c
  if x.causes.testBit (cause - 1) then s
  else
    let base := if cause = 3 ∧ x.causes.testBit 0 then x.causes - 1 else x.causes
    let first := x.causes == 0
    let x1 : AioX := { x with causes := base ||| 2 ^ (cause - 1), since := if first then s.now else x.since, owner := if first then s.aioOwner c else x.owner }
    let s1 := (((s.setAioX c x1).aioFaultShow c).finc (aioB c) AIO_CH_FAULT_CNT).aioSafeDrive c
    let code := if 5 ≤ cause ∧ cause ≤ 8 then s1.fget (aioB c) AIO_CH_READBACK_CODE else s1.fget (aioB c) AIO_CH_IN_CODE
    s1.event (384 + 2 * c) x1.owner true (cause * 0x1000000 + aioModeOf x.cfg * 0x100000 +
      s1.fget (aioB c) AIO_CH_STATUS_SAFE_DRIVEN * 0x80000 + code)

/-- A cause clears; with the last one event k = 1 is raised. -/
def State.aioUndeclare (s : State) (c cause : Nat) : State :=
  let x := s.aioX c
  if !x.causes.testBit (cause - 1) then s
  else
    let m := x.causes - 2 ^ (cause - 1)
    let s1 := (s.setAioX c { x with causes := m }).aioFaultShow c
    if m = 0 then s1.event (385 + 2 * c) x.owner false (cause * 0x1000000 + min ((s.now - x.since) / 1000000) 0xFFFFFF) else s1

/-- Does the readback lie more than 0.5 % of full scale from the code driven (R371)? -/
def State.aioApart (s : State) (c : Nat) : Bool :=
  let a := s.fget (aioB c) AIO_CH_READBACK_CODE
  let b := s.fget (aioB c) AIO_CH_OUT_CODE
  decide (65536 < 200 * (a - b) ∨ 65536 < 200 * (b - a))

/-- Does the latest conversion of an input show a cause of R373 present? The loop supply's overload is no conversion's matter. -/
def State.aioInBad (s : State) (c cause : Nat) : Bool :=
  let m := s.aioMode c
  let x := 240 * s.fget (aioB c) AIO_CH_IN_CODE
  match cause with
  | 1 => (m == 4 || m == 5) && decide (x < 36 * 65536)
  | 2 => aioIn m && decide ((if m = 7 then 210 else if m = 6 then 205 else 210) * 65536 < x)
  | 3 => (m == 4 || m == 5) && decide (x < 5 * 65536)
  | 4 => m == 5
  | _ => false

/-- Is a cause's clearing condition met by the latest conversion, or by the loop supply (R373)? -/
def State.aioGood (s : State) (c cause : Nat) : Bool :=
  let m := s.aioMode c
  let x := 240 * s.fget (aioB c) AIO_CH_IN_CODE
  match cause with
  | 1 | 3 => decide (37 * 65536 ≤ x)
  | 2 => decide (x ≤ (if m = 6 then 204 else 209) * 65536)
  | 4 => s.fbit (aioB c) AIO_CH_STATUS_LS_ON
  | 5 => !s.aioApart c
  | _ => true

/-! ### Writes (R369, R370, R374, R377) -/

/-- A channel's code in force is written: driven, or only recorded while the SAFE code is driven for a fault. -/
def State.aioCode (s : State) (c code : Nat) : State :=
  let x := s.aioX c
  let s1 := s.setAioX c { x with code := code }
  let s2 := if fieldGet x.cfg 25 1 == 1 && x.outFault then s1
    else (s1.fset (aioB c) AIO_CH_OUT_CODE code).fset (aioB c) AIO_CH_STATUS_SAFE_DRIVEN 0
  s2.aioShow c

/-- Does the channel take a value: an output mode, and its domain out of reset? -/
def State.aioTakes (s : State) (c : Nat) : Bool := !s.isolated .aio && aioOut (s.aioMode c)

/-- A writer of R369 gives the channel a binary32 value in [31:0] of `v`. -/
def State.aioWrite (s : State) (c v : Nat) : State :=
  match f32? v with
  | some x => if s.aioTakes c && decide (v < 0x100000000) then s.aioCode c (s.aioEncode c x) else s
  | none => s

/-- The AIO_VALUE point (R370). -/
def State.aioRead (s : State) (c : Nat) : Nat :=
  let b := aioB c
  let m := s.aioMode c
  s.fget b AIO_CH_STATUS_SAFE_DRIVEN * 2 ^ 43 + s.fget b AIO_CH_STATUS_FAULT * 2 ^ 42 + s.fget b AIO_CH_STATUS_CAUSE * 2 ^ 34 +
    (if aioOut m then 2 ^ 32 else if aioIn m then 2 ^ 33 else 0) + s.fget b AIO_CH_VALUE

/-- The written AIO_CHnn_CFG takes effect (R377, R378): a change of MODE idles the terminals for 1 ms, ends the faults and their
timers, and a new output mode drives its SAFE code until the first write. -/
def State.aioApply (s : State) (c : Nat) : State :=
  let x := s.aioX c
  let w := (s.rd (aioB c)).toNat
  let m := aioModeOf w
  if m = aioModeOf x.cfg then ((s.setAioX c { x with cfg := w }).aioSafeDrive c).aioShow c
  else
    let safe := s.fget (aioB c) AIO_CH_SAFE_CODE
    let x1 : AioX := { x with cfg := w, code := if aioOut m then safe else 0, filt := [], causes := 0, idleUntil := s.now + 1000000 }
    let s1 := (s.setAioX c x1).aioFaultShow c
    (((s1.fset (aioB c) AIO_CH_OUT_CODE x1.code).fset (aioB c) AIO_CH_STATUS_SAFE_DRIVEN 0).fsetB (aioB c) AIO_CH_STATUS_LS_ON (m == 5)).aioShow c

/-- A lane has written the channel configuration after a power-on or an AIO reset (R376): it is in force at once; a channel whose mode the
AON latch already held keeps its code. The groups' supplies are taken to be in regulation. -/
def State.aioConfig (s : State) : State :=
  (List.range 16).foldl (fun s c =>
    let s1 := s.aioApply c
    (s1.fsetB (aioB c) AIO_CH_STATUS_LS_ON (s1.aioMode c == 5)).aioShow c) (s.fset 0 AIO_STATUS_GROUP_OK 15)

/-- An AIO reset (R376, R442): the registers return to their reset values, the AON latches keep every mode, output and SAFE code, and nothing
is judged. -/
def State.aioReset (s : State) : State :=
  let latch := fun k => decide (0xB0100 ≤ k ∧ k < 0xB1100) && (k % 0x100 == 0x0C || k % 0x100 == 0x10)
  let s1 := s.regClear (fun k => decide (0xB0000 ≤ k ∧ k ≤ 0xBFFFF) && !latch k)
  { s1 with aio := s1.aio.map (fun e => (e.1, { e.2 with filt := [], causes := 0, idleUntil := 0 })) }

/-- SAFE (R376): every output at its SAFE code. -/
def State.aioSafe (s : State) : State :=
  (List.range 16).foldl (fun s c =>
    if aioOut (s.aioMode c) then (s.aioCode c (s.fget (aioB c) AIO_CH_SAFE_CODE)).fset (aioB c) AIO_CH_OUT_CODE (s.fget (aioB c) AIO_CH_SAFE_CODE)
    else s) s

end Sys2Proof.Machine
end

