-- ==== Sys2Proof/Machine/Aio.lean ====
section
/-! DEFINITION. The events of the analogue channels (R368, R371–R378). -/

namespace Sys2Proof.Machine
open Sys2Proof

/-- A conversion of a channel: an input's value, an output's terminal and readback (R368, R371). -/
def execAioConversion (ch : Fin 16) (code readback : BitVec 16) (s : State) : Host.Outcome State Fault Refusal :=
  let c := ch.val
  let m := s.aioMode c
  let x := s.aioX c
  .next (if s.isolated .aio || m == 0 || decide (s.now < x.idleUntil) then s
    else
      let s1 := s.fset (aioB c) AIO_CH_IN_CODE code.toNat
      if aioIn m then (s1.setAioX c { x with filt := (code.toNat :: x.filt).take 400 }).aioShow c
      else s1.fset (aioB c) AIO_CH_READBACK_CODE readback.toNat)

/-- The readback has differed from the code driven by more than 0.5 % for 10 ms (R371); it is not judged while a D fault is present (R372). -/
def execAioReadbackMismatch (ch : Fin 16) (s : State) : Host.Outcome State Fault Refusal :=
  let c := ch.val
  let x := s.aioX c
  .next (if s.aioQuiet c || !aioOut (s.aioMode c) || !aioVerV x.cfg || x.causes / 32 % 8 != 0 || !s.aioApart c then s else s.aioDeclare c 5)

/-- A headroom below 1.0 V with at least 1.0 mA commanded, or a driver at its 25 mA limit, held for 10 ms (R372). -/
def execAioDriverFault (ch : Fin 16) (headroom current : BitVec 16) (s : State) : Host.Outcome State Fault Refusal :=
  let c := ch.val
  let m := s.aioMode c
  .next (if s.aioQuiet c || !aioOut m || !aioVerD (s.aioX c).cfg then s
    else if m = 3 then (if current < 25000 then s else s.aioDeclare c 8)
    else if s.fget (aioB c) AIO_CH_OUT_CODE * 24 < 65536 ∨ 1000 ≤ headroom.toNat then s
    else s.aioDeclare c (if current < 200 then 6 else 7))

/-- An input fault cause becomes present in a mode that has it, its filter time over (R373); IN_BROKEN stands in place of IN_LOW. -/
def execAioInputFault (ch : Fin 16) (cause : Fin 5) (s : State) : Host.Outcome State Fault Refusal :=
  let c := ch.val
  .next (if s.aioQuiet c || !s.aioInBad c cause.val || cause.val == 1 && (s.aioX c).causes.testBit 2 then s
    else
      let s1 := s.aioDeclare c cause.val
      if cause.val = 4 then s1.fset (aioB c) AIO_CH_STATUS_LS_ON 0 else s1)

/-- A group's isolated supply has been out of regulation for 1 ms (R373). -/
def execAioGroupSupplyFault (group : Fin 4) (s : State) : Host.Outcome State Fault Refusal :=
  let g := group.val
  let ok := s.fget 0 AIO_STATUS_GROUP_OK
  .next (if s.isolated .aio then s
    else
      let s1 := (s.fset 0 AIO_STATUS_GROUP_OK (ok - (if ok.testBit g then 2 ^ g else 0))).fset 0 AIO_STATUS_GROUP_LOST_SEEN
        (s.fget 0 AIO_STATUS_GROUP_LOST_SEEN ||| 2 ^ g)
      (List.range 4).foldl (fun s i => let c := 4 * g + i; if s.aioQuiet c then s else s.aioDeclare c 9) s1)

/-- A cause clears after its filter (R373); a group supply back in regulation shows in GROUP_OK. -/
def execAioFaultCleared (ch : Fin 16) (cause : Fin 10) (s : State) : Host.Outcome State Fault Refusal :=
  let c := ch.val
  .next (if s.isolated .aio || cause.val == 0 || !s.aioGood c cause.val then s
    else
      let s1 := if cause.val = 9 then s.fset 0 AIO_STATUS_GROUP_OK (s.fget 0 AIO_STATUS_GROUP_OK ||| 2 ^ (c / 4)) else s
      s1.aioUndeclare c cause.val)

/-- A switched-off loop supply is retried (R373): it stays on when it holds below its limit of 25 mA for 100 ms. -/
def execAioLsRetry (ch : Fin 16) (current : BitVec 16) (s : State) : Host.Outcome State Fault Refusal :=
  let c := ch.val
  .next (if s.isolated .aio || s.aioMode c != 5 || !(s.aioX c).causes.testBit 3 then s
    else s.fsetB (aioB c) AIO_CH_STATUS_LS_ON (decide (current.toNat < 25000)))

/-- A protection clamp conducts (R375, R378). -/
def execAioSurge (ch : Fin 16) (s : State) : Host.Outcome State Fault Refusal :=
  let c := ch.val
  let g := c / 4
  .next (if s.isolated .aio then s
    else
      let w := s.fget 0 AIO_SURGE_CNT
      let s1 := (s.fset (aioB c) AIO_CH_STATUS_SURGE_SEEN 1).fset (aioB c) AIO_CH_STATUS_SUSPENDED 1
      s1.fset 0 AIO_SURGE_CNT (fieldPut w (8 * g) 8 (satAdd 8 (fieldGet w (8 * g) 8) 1)))

/-- 100 ms after the clamp releases, faults are judged again (R375). -/
def execAioSurgeSuspendEnd (ch : Fin 16) (s : State) : Host.Outcome State Fault Refusal :=
  .next (if s.isolated .aio then s else s.fset (aioB ch.val) AIO_CH_STATUS_SUSPENDED 0)

/-- A written configuration takes effect at Rel(n) (R377). -/
def execAioCfgApply (ch : Fin 16) (s : State) : Host.Outcome State Fault Refusal :=
  .next (if s.isolated .aio then s else s.aioApply ch.val)

end Sys2Proof.Machine
end

