-- ==== Sys2Proof/Machine/Crc.lean ====
section
/-! DEFINITION. The check values of R508. -/

namespace Sys2Proof.Machine

/-- A check-value algorithm (R508): its width, its polynomial (reversed for a reflected algorithm), INIT, whether it is reflected, XOROUT. -/
structure CrcAlgo where
  width : Nat
  poly : Nat
  init : Nat
  refl : Bool
  xorout : Nat

/-- The algorithm that `CKVi_CFG.ALGO` selects (R508). -/
def crcAlgo : Nat → CrcAlgo
  | 0 => ⟨32, 0x82F63B78, 0xFFFFFFFF, true, 0xFFFFFFFF⟩
  | 1 => ⟨32, 0xEDB88320, 0xFFFFFFFF, true, 0xFFFFFFFF⟩
  | 2 => ⟨16, 0x1021, 0xFFFF, false, 0⟩
  | _ => ⟨64, 0x42F0E1EBA9EA3693, 0, false, 0⟩

/-- One bit of a step: shift, and subtract the polynomial when a one falls out. -/
def crcBit (a : CrcAlgo) (v : Nat) : Nat :=
  if a.refl then (if v % 2 = 1 then (v / 2) ^^^ a.poly else v / 2)
  else (if v.testBit (a.width - 1) then (2 * v % 2 ^ a.width) ^^^ a.poly else 2 * v % 2 ^ a.width)

/-- `n` bits. -/
def crcBits (a : CrcAlgo) : Nat → Nat → Nat
  | 0, v => v
  | n + 1, v => crcBits a n (crcBit a v)

/-- One byte is fed into the running register. -/
def crcByte (a : CrcAlgo) (v : Nat) (b : Byte) : Nat :=
  crcBits a 8 (if a.refl then v ^^^ b.toNat else v ^^^ (b.toNat * 2 ^ (a.width - 8)))

/-- Bytes are fed in order. -/
def crcFeed (a : CrcAlgo) (v : Nat) (bs : List Byte) : Nat := bs.foldl (crcByte a) v

/-- The CRC-32C of some bytes. -/
def crc32c (bs : List Byte) : Nat := crcFeed (crcAlgo 0) 0xFFFFFFFF bs ^^^ 0xFFFFFFFF

end Sys2Proof.Machine
end

