-- ==== Sys2Proof/Machine/Crypto.lean ====
section
/-! DEFINITION. The engines of the key store, on bytes (chapter "Key store and check-value units"): SHA-256 and SHA-384, HMAC-SHA-256, HKDF-SHA-256,
AES-256, AES-256-GCM, the key wrap of RFC 3394, and ECDSA-P-384 verification. The spec names these algorithms by their standards; DEDUCED: they are
written here from FIPS 180-4, FIPS 197, FIPS 198-1, RFC 5869, NIST SP 800-38D, RFC 3394 and FIPS 186 (log entry 14). -/

namespace Sys2Proof.Machine
open Sys2Proof

/-- The round constants of SHA-256 (FIPS 180-4), word t in bits [32 t + 31 : 32 t]. -/
def sha256K : Nat :=
  0xC67178F2BEF9A3F7A4506CEB90BEFFFA8CC7020884C8781478A5636F748F82EE682E6FF35B9CCA4F4ED8AA4A391C0CB334B0BCB52748774C1E376C0819A4C116106AA070F40E3585D6990624D192E819C76C51A3C24B8B70A81A664BA2BFE8A192722C8581C2C92E766A0ABB650A735453380D134D2C6DFC2E1B213827B70A851429296706CA6351D5A79147C6E00BF3BF597FC7B00327C8A831C66D983E515276F988DA5CB0A9DC4A7484AA2DE92C6F240CA1CC0FC19DC6EFBE4786E49B69C1C19BF1749BDC06A780DEB1FE72BE5D74550C7DC3243185BE12835B01D807AA98AB1C5ED5923F82A459F111F13956C25BE9B5DBA5B5C0FBCF71374491428A2F98

/-- The round constants of SHA-384 (FIPS 180-4), word t in bits [64 t + 63 : 64 t]. -/
def sha512K : Nat :=
  0x6C44198C4A4758175FCB6FAB3AD6FAEC597F299CFC657E2A4CC5D4BECB3E42B6431D67C49C100D4C3C9EBE0A15C9BEBC32CAAB7B40C7249328DB77F523047D841B710B35131C471B113F9804BEF90DAE0A637DC5A2C898A606F067AA72176FBAF57D4F7FEE6ED178EADA7DD6CDE0EB1ED186B8C721C0C207CA273ECEEA26619CC67178F2E372532BBEF9A3F7B2C67915A4506CEBDE82BDE990BEFFFA23631E288CC702081A6439EC84C87814A1F0AB7278A5636F43172F60748F82EE5DEFB2FC682E6FF3D6B2B8A35B9CCA4F7763E3734ED8AA4AE3418ACB391C0CB3C5C95A6334B0BCB5E19B48A82748774CDF8EEB991E376C085141AB5319A4C116B8D2D0C8106AA07032BBD1B8F40E35855771202AD69906245565A910D192E819D6EF5218C76C51A30654BE30C24B8B70D0F89791A81A664BBC423001A2BFE8A14CF1036492722C851482353B81C2C92E47EDAEE6766A0ABB3C77B2A8650A73548BAF63DE53380D139D95B3DF4D2C6DFC5AC42AED2E1B21385C26C92627B70A8546D22FFC142929670A0E6E7006CA6351E003826FD5A79147930AA725C6E00BF33DA88FC2BF597FC7BEEF0EE4B00327C898FB213FA831C66D2DB43210983E5152EE66DFAB76F988DA831153B55CB0A9DCBD41FBD44A7484AA6EA6E4832DE92C6F592B0275240CA1CC77AC9C650FC19DC68B8CD5B5EFBE4786384F25E3E49B69C19EF14AD2C19BF174CF6926949BDC06A725C7123580DEB1FE3B1696B172BE5D74F27B896F550C7DC3D5FFB4E2243185BE4EE4B28C12835B0145706FBED807AA98A3030242AB1C5ED5DA6D8118923F82A4AF194F9B59F111F1B605D0193956C25BF348B538E9B5DBA58189DBBCB5C0FBCFEC4D3B2F7137449123EF65CD428A2F98D728AE22

/-- The substitution table of AES (FIPS 197), entry x in bits [8 x + 7 : 8 x]. -/
def aesSbox : Nat :=
  0x16BB54B00F2D99416842E6BF0D89A18CDF2855CEE9871E9B948ED9691198F8E19E1DC186B95735610EF6034866B53E708A8BBD4B1F74DDE8C6B4A61C2E2578BA08AE7A65EAF4566CA94ED58D6D37C8E779E4959162ACD3C25C2406490A3A32E0DB0B5EDE14B8EE4688902A22DC4F816073195D643D7EA7C41744975FEC130CCDD2F3FF1021DAB6BCF5389D928F40A351A89F3C507F02F94585334D43FBAAEFD0CF584C4A39BECB6A5BB1FC20ED00D153842FE329B3D63B52A05A6E1B1A2C830975B227EBE28012079A059618C323C7041531D871F1E5A534CCF73F362693FDB7C072A49CAFA2D4ADF04759FA7DC982CA76ABD7FE2B670130C56F6BF27B777C63

/-- Its inverse. -/
def aesInvSbox : Nat :=
  0x7D0C2155631469E126D677BA7E042B17619953833CBBEBC8B0F52AAE4D3BE0A0EF9CC9939F7AE52D0D4AB519A97F51605FEC8027591012B131C7078833A8DD1FF45ACD78FEC0DB9A2079D2C64B3E56FC1BBE18AA0E62B76F89C5291D711AF1476EDF751CE837F9E28535ADE72274AC9673E6B4F0CECFF297EADC674F4111913A6B8A130103BDAFC1020F3FCA8F1E2CD00645B3B80558E4F70AD3BC8C00ABD890849D8DA75746155EDAB9EDFD5048706C92B6655DCC5CA4D41698688664F6F87225D18B6D49A25B76B224D92866A12E084EC3FA420B954CEE3D23C2A632947B54CBE9DEC444438E3487FF2F9B8239E37CFBD7F3819EA340BF38A53630D56A0952

/-- The big-endian number that bytes spell. -/
def bytesNum (bs : List Byte) : Nat := bs.foldl (fun v b => v * 256 + b.toNat) 0

/-- Bytes in chunks of `n`, the last one as short as it comes; `fuel` bounds their number. -/
def chunksOf (n : Nat) : Nat → List Byte → List (List Byte)
  | 0, _ => []
  | fuel + 1, bs => if bs.isEmpty then [] else bs.take n :: chunksOf n fuel (bs.drop n)

/-- The bytes exclusive-or'd one by one, as many as the shorter list has. -/
def xorBytes (a b : List Byte) : List Byte := List.zipWith (fun x y => x ^^^ y) a b

/-! ### SHA-256 and SHA-384 (FIPS 180-4) -/

/-- A hash of this family: the width of its words in bits, its rounds, its constants, the three rotations of Σ0 and Σ1, and the two
rotations and the shift of σ0 and σ1. -/
structure ShaKind where
  w : Nat
  rounds : Nat
  k : Nat
  s0 : Nat × Nat × Nat
  s1 : Nat × Nat × Nat
  m0 : Nat × Nat × Nat
  m1 : Nat × Nat × Nat
  init : List Nat

def sha256Kind : ShaKind :=
  ⟨32, 64, sha256K, (2, 13, 22), (6, 11, 25), (7, 18, 3), (17, 19, 10),
   [0x6A09E667, 0xBB67AE85, 0x3C6EF372, 0xA54FF53A, 0x510E527F, 0x9B05688C, 0x1F83D9AB, 0x5BE0CD19]⟩

def sha384Kind : ShaKind :=
  ⟨64, 80, sha512K, (28, 34, 39), (14, 18, 41), (1, 8, 7), (19, 61, 6),
   [0xCBBB9D5DC1059ED8, 0x629A292A367CD507, 0x9159015A3070DD17, 0x152FECD8F70E5939, 0x67332667FFC00B31, 0x8EB44A8768581511,
    0xDB0C2E0D64F98FA7, 0x47B5481DBEFA4FA4]⟩

/-- A word rotated right by `n`. -/
def ShaKind.rot (h : ShaKind) (n x : Nat) : Nat := (x >>> n) ||| ((x <<< (h.w - n)) % 2 ^ h.w)

/-- Σ: three rotations. -/
def ShaKind.big (h : ShaKind) (r : Nat × Nat × Nat) (x : Nat) : Nat := h.rot r.1 x ^^^ h.rot r.2.1 x ^^^ h.rot r.2.2 x

/-- σ: two rotations and a shift. -/
def ShaKind.small (h : ShaKind) (r : Nat × Nat × Nat) (x : Nat) : Nat := h.rot r.1 x ^^^ h.rot r.2.1 x ^^^ (x >>> r.2.2)

/-- `n` rounds from round `t`: `ws` holds the sixteen words of the schedule from word t on, `v` the working variables a–h. -/
def ShaKind.run (h : ShaKind) : Nat → Nat → List Nat → List Nat → List Nat
  | 0, _, _, v => v
  | n + 1, t, ws, v =>
    let g (i : Nat) := v.getD i 0
    let w (i : Nat) := ws.getD i 0
    let m := 2 ^ h.w
    let ch := (g 4 &&& g 5) ^^^ ((m - 1 - g 4) &&& g 6)
    let maj := (g 0 &&& g 1) ^^^ (g 0 &&& g 2) ^^^ (g 1 &&& g 2)
    let t1 := g 7 + h.big h.s1 (g 4) + ch + (h.k >>> (h.w * t)) % m + w 0
    let t2 := h.big h.s0 (g 0) + maj
    let next := (h.small h.m1 (w 14) + w 9 + h.small h.m0 (w 1) + w 0) % m
    h.run n (t + 1) (ws.drop 1 ++ [next]) [(t1 + t2) % m, g 0, g 1, g 2, (g 3 + t1) % m, g 4, g 5, g 6]

/-- The state after one block. -/
def ShaKind.block (h : ShaKind) (v : List Nat) (b : List Byte) : List Nat :=
  let ws := (chunksOf (h.w / 8) 16 b).map bytesNum
  List.zipWith (fun x y => (x + y) % 2 ^ h.w) v (h.run h.rounds 0 ws v)

/-- The message with its padding: a one bit, zeros, and its length in bits. -/
def ShaKind.pad (h : ShaKind) (m : List Byte) : List Byte :=
  let blk := 2 * h.w
  let len := h.w / 4
  let z := (2 * blk - len - 1 - m.length % blk) % blk
  m ++ [0x80] ++ List.replicate z 0 ++ beBytes len (8 * m.length)

/-- The first `n` words of the hash of a message. -/
def ShaKind.hash (h : ShaKind) (n : Nat) (m : List Byte) : List Byte :=
  let p := h.pad m
  let v := (chunksOf (2 * h.w) (p.length / (2 * h.w)) p).foldl h.block h.init
  ((v.take n).map (beBytes (h.w / 8))).flatten

def sha256 (m : List Byte) : List Byte := sha256Kind.hash 8 m
def sha384 (m : List Byte) : List Byte := sha384Kind.hash 6 m

/-! ### HMAC and HKDF (FIPS 198-1, RFC 5869) -/

/-- HMAC-SHA-256 of `m` under `k`. -/
def hmacSha256 (k m : List Byte) : List Byte :=
  let k0 := if k.length > 64 then sha256 k else k
  let key := k0 ++ List.replicate (64 - k0.length) 0
  sha256 (key.map (fun b => b ^^^ 0x5C) ++ sha256 (key.map (fun b => b ^^^ 0x36) ++ m))

/-- HKDF-Extract. -/
def hkdfExtract (salt ikm : List Byte) : List Byte := hmacSha256 salt ikm

/-- HKDF-Expand to 32 bytes, the only length the spec uses: one block. -/
def hkdfExpand (prk info : List Byte) : List Byte := hmacSha256 prk (info ++ [1])

/-! ### AES-256 (FIPS 197) -/

def aesSub (x : Byte) : Byte := BitVec.ofNat 8 (aesSbox >>> (8 * x.toNat))
def aesInvSub (x : Byte) : Byte := BitVec.ofNat 8 (aesInvSbox >>> (8 * x.toNat))

/-- Twice a byte in the field of AES. -/
def aesX (x : Byte) : Byte := (x <<< 1) ^^^ (if x.getLsbD 7 then 0x1B else 0)

/-- A byte times a constant below 16. -/
def aesMul (c : Nat) (x : Byte) : Byte :=
  (if c.testBit 0 then x else 0) ^^^ (if c.testBit 1 then aesX x else 0) ^^^ (if c.testBit 2 then aesX (aesX x) else 0) ^^^
  (if c.testBit 3 then aesX (aesX (aesX x)) else 0)

/-- The key schedule from word `i` on, newest word first. -/
def aesExpand : Nat → Nat → Byte → List (List Byte) → List (List Byte)
  | 0, _, _, ws => ws
  | n + 1, i, rcon, ws =>
    let last := ws.getD 0 []
    let old := ws.getD 7 []
    let t := if i % 8 = 0 then xorBytes ((last.drop 1 ++ last.take 1).map aesSub) [rcon, 0, 0, 0]
      else if i % 8 = 4 then last.map aesSub else last
    aesExpand n (i + 1) (if i % 8 = 0 then aesX rcon else rcon) (xorBytes old t :: ws)

/-- The fifteen round keys. -/
def aesKeys (k : List Byte) : List (List Byte) :=
  let ws := (aesExpand 52 8 1 (chunksOf 4 8 k).reverse).reverse
  (List.range 15).map (fun r => ((ws.drop (4 * r)).take 4).flatten)

/-- Byte r + 4 c of the state comes from column c + d r. -/
def aesShift (d : Nat) (b : List Byte) : List Byte :=
  (List.range 16).map (fun i => b.getD (i % 4 + 4 * ((i / 4 + d * (i % 4)) % 4)) 0)

/-- The columns multiplied by the circulant of `m`. -/
def aesMix (m : List Nat) (b : List Byte) : List Byte :=
  (List.range 16).map (fun i => (List.range 4).foldl (fun x j =>
    x ^^^ aesMul (m.getD ((j + 4 - i % 4) % 4) 0) (b.getD (4 * (i / 4) + j) 0)) 0)

/-- The cipher of one block, the state in column order. -/
def aesEncrypt (k b : List Byte) : List Byte :=
  let ks := aesKeys k
  let rounds := (List.range 13).foldl (fun x r =>
    xorBytes (aesMix [2, 3, 1, 1] (aesShift 1 (x.map aesSub))) (ks.getD (r + 1) [])) (xorBytes b (ks.getD 0 []))
  xorBytes (aesShift 1 (rounds.map aesSub)) (ks.getD 14 [])

/-- Its inverse. -/
def aesDecrypt (k b : List Byte) : List Byte :=
  let ks := aesKeys k
  let rounds := (List.range 13).foldl (fun x r =>
    aesMix [14, 11, 13, 9] (xorBytes ((aesShift 3 x).map aesInvSub) (ks.getD (13 - r) []))) (xorBytes b (ks.getD 14 []))
  xorBytes ((aesShift 3 rounds).map aesInvSub) (ks.getD 0 [])

/-! ### GCM (NIST SP 800-38D) -/

/-- The product in the field of GHASH, `n` bits of `x` from its highest on. -/
def ghashMul (x : Nat) : Nat → Nat → Nat → Nat
  | 0, _, z => z
  | n + 1, v, z =>
    ghashMul x n ((v >>> 1) ^^^ (if v.testBit 0 then 0xE1000000000000000000000000000000 else 0)) (if x.testBit n then z ^^^ v else z)

/-- GHASH under `h` of bytes cut into blocks, the last filled with zeros. -/
def ghash (h : Nat) (y : Nat) (bs : List Byte) : Nat :=
  (chunksOf 16 (bs.length / 16 + 1) bs).foldl (fun y c => ghashMul (y ^^^ bytesNum (c ++ List.replicate (16 - c.length) 0)) 128 h 0) y

/-- The keystream of counter mode for `n` blocks from counter `i`, the nonce being 96 bits. -/
def gcmStream (k nonce : List Byte) (i n : Nat) : List Byte :=
  ((List.range n).map (fun j => aesEncrypt k (nonce ++ beBytes 4 (i + j)))).flatten

/-- Counter-mode encryption, which is its own inverse. -/
def gcmCrypt (k nonce p : List Byte) : List Byte := xorBytes p (gcmStream k nonce 2 (p.length / 16 + 1))

/-- The 16-byte tag of a ciphertext `c` with additional data `aad`. -/
def gcmTag (k nonce aad c : List Byte) : List Byte :=
  let h := bytesNum (aesEncrypt k (List.replicate 16 0))
  let y := ghash h (ghash h 0 aad) c
  let z := ghashMul (y ^^^ (8 * aad.length * 2 ^ 64 + 8 * c.length)) 128 h 0
  xorBytes (beBytes 16 z) (gcmStream k nonce 1 1)

/-! ### Key wrap (RFC 3394) -/

/-- The unwrapping steps t = `n` down to 1 on A and the four blocks R1–R4. -/
def unwrapSteps (k : List Byte) : Nat → List Byte → List (List Byte) → List Byte × List (List Byte)
  | 0, a, rs => (a, rs)
  | t + 1, a, rs =>
    let i := t % 4
    let b := aesDecrypt k (xorBytes a (beBytes 8 (t + 1)) ++ rs.getD i [])
    unwrapSteps k t (b.take 8) (rs.set i (b.drop 8))

/-- The 32-byte key in 40 wrapped bytes, if its integrity value is the default initial value. -/
def keyUnwrap (k wrapped : List Byte) : Option (List Byte) :=
  let r := unwrapSteps k 24 (wrapped.take 8) (chunksOf 8 4 (wrapped.drop 8))
  if wrapped.length = 40 ∧ r.1 = List.replicate 8 0xA6 then some r.2.flatten else none

/-! ### ECDSA on P-384 (FIPS 186) -/

def p384P : Nat := 2 ^ 384 - 2 ^ 128 - 2 ^ 96 + 2 ^ 32 - 1
def p384N : Nat := 0xFFFFFFFFFFFFFFFFFFFFFFFFFFFFFFFFFFFFFFFFFFFFFFFFC7634D81F4372DDF581A0DB248B0A77AECEC196ACCC52973
def p384B : Nat := 0xB3312FA7E23EE7E4988E056BE3F82D19181D9C6EFE8141120314088F5013875AC656398D8A2ED19D2A85C8EDD3EC2AEF
def p384G : Nat × Nat :=
  (0xAA87CA22BE8B05378EB1C71EF320AD746E1D3B628BA79B9859F741E082542A385502F25DBF55296C3A545E3872760AB7,
   0x3617DE4A96262C6F5D9E98BF9292DC29F8F41DBD289A147CE9DA3113B5F0B8C00A60B1CE1D7E819D7A431D7C90EA0E5F)

/-- `x` to the power whose lowest `n` bits are those of `e`, modulo `m`, from bit n − 1 down. -/
def powMod (m x e : Nat) : Nat → Nat → Nat
  | 0, a => a
  | n + 1, a => powMod m x e n (if e.testBit n then a * a % m * x % m else a * a % m)

/-- The inverse modulo a prime of at most 384 bits. -/
def invMod (m x : Nat) : Nat := powMod m (x % m) (m - 2) 384 1

/-- The sum of two points of the curve, none being the point at infinity. -/
def p384Add (a b : Option (Nat × Nat)) : Option (Nat × Nat) :=
  match a, b with
  | none, q => q
  | q, none => q
  | some (x1, y1), some (x2, y2) =>
    let p := p384P
    if x1 = x2 ∧ (y1 + y2) % p = 0 then none
    else
      let l := if x1 = x2 then (3 * x1 * x1 + p - 3) % p * invMod p (2 * y1) % p else (y2 + p - y1) % p * invMod p (x2 + p - x1) % p
      let x := (l * l + 2 * p - x1 - x2) % p
      some (x, (l * (x1 + p - x) + p - y1) % p)

/-- The multiple of a point by the lowest `n` bits of `e`, from bit n − 1 down. -/
def p384Mul (q : Option (Nat × Nat)) (e : Nat) : Nat → Option (Nat × Nat) → Option (Nat × Nat)
  | 0, a => a
  | n + 1, a =>
    let d := p384Add a a
    p384Mul q e n (if e.testBit n then p384Add d q else d)

/-- The point in a 97-byte uncompressed public key, if it lies on the curve. -/
def p384Point (k : List Byte) : Option (Nat × Nat) :=
  let x := bytesNum ((k.drop 1).take 48)
  let y := bytesNum ((k.drop 49).take 48)
  let p := p384P
  if k.length = 97 ∧ k.head? = some 4 ∧ x < p ∧ y < p ∧ y * y % p = (x * x * x + (p - 3) * x + p384B) % p then some (x, y) else none

/-- Is the 96-byte signature, r then s, of the 48-byte hash valid under a public key? -/
def ecdsaValid (k sig hash : List Byte) : Bool :=
  let n := p384N
  let r := bytesNum (sig.take 48)
  let t := bytesNum (sig.drop 48)
  match p384Point k with
  | none => false
  | some q =>
    decide (sig.length = 96) && decide (0 < r) && decide (r < n) && decide (0 < t) && decide (t < n) &&
    (let w := invMod n t
     match p384Add (p384Mul (some p384G) (bytesNum hash * w % n) 384 none) (p384Mul (some q) (r * w % n) 384 none) with
     | none => false
     | some v => decide (v.1 % n = r))

end Sys2Proof.Machine
end

