-- ==== Sys2Proof/Machine/PortState.lean ====
section
/-! DEFINITION. What the other blocks need of a port: its registers, its two state fields and its record beside them. -/

namespace Sys2Proof.Machine
open Sys2Proof

/-- The block of port Pnn, `p` = nn − 1 (R177). -/
def portB (p : Nat) : Nat := 0x80000 + 0x400 * p

/-- The states of R142. -/
def stOff : Nat := 0
def stDetect : Nat := 1
def stClassify : Nat := 2
def stPending : Nat := 3
def stInrush : Nat := 4
def stOn : Nat := 5
def stBackoff : Nat := 6
def stLockout : Nat := 7
def stShed : Nat := 8
def stSafeOff : Nat := 9

def State.portX (s : State) (p : Nat) : PortX := tabGet (fun _ => PortX.reset) s.ports p

def State.setPortX (s : State) (p : Nat) (x : PortX) : State :=
  { s with ports := tabSet (fun _ => PortX.reset) s.ports p x }

/-- Is the port dual-signature (`PORT_STATUS.SIG`, R145)? -/
def State.dual (s : State) (p : Nat) : Bool := s.fget (portB p) PORT_STATUS_SIG == 2

/-- The state of a pair-set; STATE_B equals STATE unless the port is dual-signature (R177). -/
def State.pst (s : State) (p : Nat) : PairSet → Nat
  | .a => s.fget (portB p) PORT_STATUS_STATE
  | .b => s.fget (portB p) PORT_STATUS_STATE_B

/-- Move a pair-set, or the whole port when it is not dual-signature, to a state. -/
def State.setPst (s : State) (p : Nat) (ps : PairSet) (st : Nat) : State :=
  if s.dual p then match ps with
    | .a => s.fset (portB p) PORT_STATUS_STATE st
    | .b => s.fset (portB p) PORT_STATUS_STATE_B st
  else (s.fset (portB p) PORT_STATUS_STATE st).fset (portB p) PORT_STATUS_STATE_B st

/-- Move both pair-sets to a state. -/
def State.setBoth (s : State) (p st : Nat) : State :=
  (s.fset (portB p) PORT_STATUS_STATE st).fset (portB p) PORT_STATUS_STATE_B st

/-- A pair-set is powered in INRUSH and ON (R142). -/
def State.psPowered (s : State) (p : Nat) (ps : PairSet) : Bool := s.pst p ps == stInrush || s.pst p ps == stOn

/-- A port is powered while one of its pair-sets is. -/
def State.powered (s : State) (p : Nat) : Bool := s.psPowered p .a || s.psPowered p .b

/-- A port is ON while one of its pair-sets is. -/
def State.portOn (s : State) (p : Nat) : Bool := s.pst p .a == stOn || s.pst p .b == stOn

/-- A port is in SHED. -/
def State.portShed (s : State) (p : Nat) : Bool := s.pst p .a == stShed || s.pst p .b == stShed

/-- A port is in PENDING. -/
def State.portPending (s : State) (p : Nat) : Bool := s.pst p .a == stPending || s.pst p .b == stPending

/-- The pair-sets a per-pair-set event concerns: both, or one of a dual-signature port. -/
def State.units (s : State) (p : Nat) (ps : PairSet) : List PairSet := if s.dual p then [ps] else [.a, .b]

/-- The sequencers run: REFCLK is present and PORTPWR is out of reset (R30, R34). -/
def State.seqRuns (s : State) : Bool := !s.pwr.refclkLost && !s.inReset 1

/-- The ports whose number satisfies `f`, as a mask. -/
def portMask (f : Nat → Bool) : Nat := (List.range 64).foldl (fun a p => if f p then a + 2 ^ p else a) 0

/-- How many ports satisfy `f`. -/
def portCount (f : Nat → Bool) : Nat := ((List.range 64).filter f).length

/-- Fold a state change over the 64 ports in ascending order. -/
def State.forPorts (s : State) (f : State → Nat → State) : State := (List.range 64).foldl f s

/-- The block of port `k` of the switch, 1–64 the jacks, 65 and 66 the uplinks, 67 and 68 the lanes (R264). -/
def ethB (k : Nat) : Nat := 0x100000 + 0x1000 * k

/-- What the switch keeps of port `k` beside its registers. -/
def State.ethX (s : State) (k : Nat) : EthX := tabGet (fun _ => EthX.reset) s.eth.ports k

def State.setEthX (s : State) (k : Nat) (x : EthX) : State :=
  { s with eth := { s.eth with ports := tabSet (fun _ => EthX.reset) s.eth.ports k x } }

/-- The removal of a port abandons a rate change under way on it (R263). -/
def State.rateAbandon (s : State) (p : Nat) : State := s.setEthX (p + 1) { s.ethX (p + 1) with changing := none }

/-- The data link of jack Pnn is up, `p` = nn − 1. -/
def State.linkUp (s : State) (p : Nat) : Bool := s.fbit (ethB (p + 1)) ETH_PORT_STATUS_LINK_UP

end Sys2Proof.Machine
end

