-- ==== Sys2Proof/Machine/PliakOps.lean ====
section
/-! DEFINITION. Serving a Pliak request: which lane answers, STATUS, authentication and replay, limits, and the reply
(chapter "Pliak command packets"). -/

namespace Sys2Proof.Machine
open Sys2Proof

/-- The result codes of R96. -/
inductive Res
  | ok | partial_ | noSuchObject | staleHandle | denied | badOpcode | badLength | busy | blockInReset | keyOrphaned
  | keyEmpty | keyAttr | replay | range | state | timeout | shed | hwFault | cancelled | verifyFailed | tagInUse
deriving DecidableEq, Repr

/-- The number of a result code (R96). -/
def Res.code : Res → Nat
  | .ok => 0
  | .partial_ => 1
  | .noSuchObject => 0x10
  | .staleHandle => 0x11
  | .denied => 0x12
  | .badOpcode => 0x13
  | .badLength => 0x14
  | .busy => 0x15
  | .blockInReset => 0x16
  | .keyOrphaned => 0x17
  | .keyEmpty => 0x18
  | .keyAttr => 0x19
  | .replay => 0x1A
  | .range => 0x1B
  | .state => 0x1C
  | .timeout => 0x1D
  | .shed => 0x1E
  | .hwFault => 0x1F
  | .cancelled => 0x20
  | .verifyFailed => 0x21
  | .tagInUse => 0x22

/-! ### STATUS -/

/-- Is lane `l` not yet back in service (DEG_ONE_LANE, R438)? -/
def State.laneOut (s : State) (l : Lane) : Bool :=
  match s.mode with
  | .boot | .safe => false
  | m => match s.lstate l with
    | .reset | .starting | .failed | .retired | .syncing => true
    | .serviceTest => decide (m ≠ .service)
    | _ => false

/-- A cluster without a free spare (R438), over all sixteen. -/
def State.noSpare (s : State) : Bool :=
  (List.range 16).any (fun c => !s.fbit (0x1A0700 + 4 * c) CYC_CLUSTER_SPARE_FREE)

/-- A loop datapath out of service on a lane that is out of reset (DEG_DATAPATH, R438). -/
def State.dpOut (s : State) : Bool :=
  [Lane.a, Lane.b].any (fun l => s.procRuns l && decide (s.mode ≠ .safe) && decide (s.fget (laneKey l 0) LOOP_CTRL_DP_OK ≠ 15))

/-- The six causes of `STATUS.DEGRADED` as [15:9] of `HG_STATUS` shows them (R438). -/
def State.degBits (s : State) : Nat :=
  (if s.hg.degOther.isEmpty then 0 else 0x8000) +
  (match s.hg.hg with | .single0 | .single1 => 0x4000 | _ => 0) +
  (if s.dpOut then 0x2000 else 0) +
  (if s.noSpare || s.hg.unplaced then 0x1000 else 0) +
  (if s.laneOut .a || s.laneOut .b then 0x800 else 0) +
  (if s.hg.copyStale then 0x400 else 0) +
  (if s.hg.a.wireImp || s.hg.a.culvImp || s.hg.b.wireImp || s.hg.b.culvImp then 0x200 else 0)

/-- `STATUS.DEGRADED` (R95, R438). -/
def State.degraded (s : State) : Bool := s.degBits != 0

/-- Is an entry visible to sessions of gallery `g` (R104)? -/
def EvEntry.visible (e : EvEntry) (g : Nat) : Bool := g == 0 || e.gallery == g

/-- Is an entry visible to a session of gallery `g` lacking that gallery's mark (R104)? -/
def EvEntry.unmarked (e : EvEntry) (g : Nat) : Bool :=
  if g = 0 then !e.ackOp else e.gallery == g && !e.ackOwner

/-- The owner of a forced object. -/
def State.forceOwner (s : State) (f : ForceEnt) : Nat :=
  if f.ptype = 16 then s.portOwner (f.index / 4) else s.pointOwner f.index

/-- A port of gallery `g` is in SHED (R188); for gallery 0, any port. -/
def State.shedding (s : State) (g : Nat) : Bool :=
  (List.range 64).any (fun p => s.portShed p && (g == 0 || s.portOwner p == g))

/-- The flowstone store is full (R95). -/
def State.recorderFull (s : State) : Bool := s.fbit 0 FLOW_STATUS_H_FULL || s.fbit 0 FLOW_STATUS_X_FULL

/-- The module-wide bits [28:21] of STATUS (R95, R134). -/
def State.statusCommon (s : State) (l : Lane) : Nat :=
  0x4000000 * s.mode.code + 0x2000000 * l.num + (if s.degraded then 0x1000000 else 0) +
  (if s.updatePending then 0x800000 else 0) + (if s.fbit 0 RTC_STATUS_OSF then 0x400000 else 0) +
  (if s.recorderFull then 0x200000 else 0)

/-- STATUS as a session of gallery `g` receives it from lane `l` (R95). -/
def State.status (s : State) (l : Lane) (g : Nat) (r : Res) : Nat :=
  (if s.events.any (fun e => e.unmarked g) then 0x80000000 else 0) +
  (if s.events.any (fun e => e.unmarked g && e.urgent) then 0x40000000 else 0) +
  (if s.forces.any (fun f => g == 0 || s.forceOwner f == g) then 0x20000000 else 0) +
  s.statusCommon l + (if s.shedding g then 0x100000 else 0) + r.code

/-- STATUS of a clear reply: ATTN, ATTN_URGENT, FORCED and SHEDDING are zero (R83). -/
def State.statusClear (s : State) (l : Lane) (r : Res) : Nat := s.statusCommon l + r.code

/-! ### Which lane answers -/

/-- The first lane whose processor runs, lane A before lane B. -/
def State.firstUp (s : State) : Option Lane :=
  if s.procRuns .a then some .a else if s.procRuns .b then some .b else none

/-- A lane that answers in WIDE: it runs, or it did before HOLD or SERVICE (R89, R432). -/
def State.wideUp (s : State) (l : Lane) : Bool :=
  match s.lstate l with
  | .wideRun | .serviceTest | .held => true
  | _ => false

/-- The lane that answers sessions of gallery `g` in WIDE (R89): the granted lane, and lane A before lane B for gallery 0. -/
def State.answerWide (s : State) (g : Nat) : Option Lane :=
  let first := if s.wideUp .a then some Lane.a else if s.wideUp .b then some Lane.b else none
  if g = 0 then first else match s.grant g with
    | some l => if s.wideUp l then some l else none
    | none => first

/-- The lane that answers sessions of gallery `g` in a mode, or in HOLD from it (R89). -/
def State.answerIn (s : State) (m : Mode) (g : Nat) : Option Lane :=
  let act := if s.procRuns s.hg.active then some s.hg.active else none
  match m with
  | .boot => s.firstUp
  | .wide => s.answerWide g
  | .service => ((if (s.image.map ProgImage.wide).getD false then s.answerWide g else act).or s.firstUp)
  | _ => act

/-- The lane that answers sessions of gallery `g` (R89, R432, R465), if any does. -/
def State.answering (s : State) (g : Nat) : Option Lane :=
  match s.mode with
  | .safe => if s.procRuns .a then some .a else if s.procRuns .b then some .b else none
  | .hold => (s.answerIn s.hg.heldMode g).or (if s.hg.holdCause = 3 then s.firstUp else none)
  | m => s.answerIn m g

/-! ### Keys -/

/-- What slot `n` holds when nothing has been loaded into it (R494, R496, R497): the root key derived from the fuses and the serial number with the
ASCII salt "grenno-fc64-root" and the info "slot 0", the factory's keys, and in slot 64 the key derived under slot 1 from "grenno-gallery-0" and
24 zero bytes. -/
def State.slotDefault (s : State) (n : Nat) : List Byte :=
  if n = 0 then
    hkdfExpand (hkdfExtract (beBytes 16 0x6772656E6E6F2D666336342D726F6F74) (beBytes 32 Config.rootBits.toNat))
      (beBytes 6 0x736C6F742030 ++ beBytes 4 (s.rd 0x00C).toNat ++ beBytes 4 (s.rd 0x008).toNat)
  else if n = 1 then beBytes 32 Config.commissioningKey.toNat
  else if n = 2 ∨ n = 3 then beBytes 97 (Config.verifyKey (n == 3)).toNat
  else if n = 64 then hkdfExpand (beBytes 32 Config.commissioningKey.toNat) (beBytes 16 0x6772656E6E6F2D67616C6C6572792D30 ++ beBytes 24 0)
  else []

/-- The key in slot `n` (R494, R495): no register, operation or reply carries it. -/
def State.slotKey (s : State) (n : Nat) : List Byte :=
  match tabGet (fun _ => []) s.keys n with
  | [] => s.slotDefault n
  | k => k

/-! ### Packets -/

/-- The 24-byte header (R78). `flags`: the FLAGS byte. -/
def packetHeader (flags : Byte) (id seq tag opcode len : Nat) : List Byte :=
  beBytes 2 0x504C ++ [1, flags] ++ beBytes 4 id ++ beBytes 8 seq ++ beBytes 2 tag ++ beBytes 2 opcode ++ beBytes 2 len ++ beBytes 2 0

/-- The number in the `n` bytes of a datagram from offset `o` on. -/
def packetNum (d : List Byte) (o n : Nat) : Nat := bytesNum ((d.drop o).take n)

/-- Is the SECURE bit of a datagram set (R78)? -/
def packetSecure (d : List Byte) : Bool := (d.getD 3 0).getLsbD 6

/-- The module drops such a datagram in silence (R79): its size, MAGIC, VERSION, a reserved bit, REPLY, or SECURE clear in an opcode other
than SESSION_OPEN. -/
def packetMalformed (d : List Byte) : Bool :=
  decide (d.length < 24) || decide (d.length ≠ 24 + packetNum d 20 2 + (if packetSecure d then 16 else 0)) ||
  decide (packetNum d 0 2 ≠ 0x504C) || decide (packetNum d 2 1 ≠ 1) || decide (packetNum d 3 1 % 64 ≠ 0) || decide (packetNum d 22 2 ≠ 0) ||
  decide (128 ≤ packetNum d 3 1) || (!packetSecure d && decide (packetNum d 18 2 ≠ 1))

/-- The nonce of a packet (R81). -/
def packetNonce (id seq : Nat) : List Byte := beBytes 4 id ++ beBytes 8 seq

/-- A secure packet of session `id` whose body `p` is encrypted under key `k` and authenticated (R78, R81). -/
def sealPacket (k : List Byte) (flags : Byte) (id seq tag opcode : Nat) (p : List Byte) : List Byte :=
  let h := packetHeader flags id seq tag opcode p.length
  let n := packetNonce id seq
  let c := gcmCrypt k n p
  h ++ c ++ gcmTag k n h c

/-- The ICV of a secure datagram is the one its session's K_S2M gives (R78, R81). -/
def icvGood (k d : List Byte) : Bool :=
  let c := (d.drop 24).take (packetNum d 20 2)
  decide (d.drop (24 + packetNum d 20 2) = gcmTag k (packetNonce (packetNum d 4 4) (packetNum d 8 8)) (d.take 24) c)

/-! ### Sessions -/

def State.session? (s : State) (id : Nat) : Option Session := s.sessions.find? (fun x => x.id == id)

/-- A secure datagram names an open session and its ICV is right (R86). -/
def State.authentic (s : State) (d : List Byte) : Bool :=
  match s.session? (packetNum d 4 4) with
  | some x => icvGood x.kIn d
  | none => false

/-- Replace the session that has `x`'s identity, open or closed with operations in flight. -/
def State.setSession (s : State) (x : Session) : State :=
  { s with sessions := s.sessions.map (fun y => if y.id == x.id then x else y), dying := s.dying.map (fun y => if y.id == x.id then x else y) }

/-- A transfer whose session has closed is abandoned (R521). -/
def State.xferKeep (s : State) : State :=
  match s.upd.xfer with
  | some x => if s.sessions.any (fun y => y.id == x.session) then s else { s with upd := { s.upd with xfer := none } }
  | none => s

/-- A closed session leaves no state behind (R84, R521). -/
def State.dropSession (s : State) (id : Nat) : State :=
  let s1 : State := { s with sessions := s.sessions.filter (fun x => x.id != id), dying := s.dying.filter (fun x => x.id != id) }
  s1.xferKeep

/-- Every open session that `p` picks closes. Its operations in flight complete and are answered under its keys (R84, R85, R112). -/
def State.closeSessions (s : State) (p : Session → Bool) : State :=
  let late := s.sessions.filter (fun x => p x && s.flights.any (fun f => f.session == x.id))
  let s1 : State := { s with sessions := s.sessions.filter (fun x => !p x), dying := s.dying ++ late }
  s1.xferKeep

/-- The session with identity `id` closes. -/
def State.closeSession (s : State) (id : Nat) : State := s.closeSessions (fun x => x.id == id)

/-- The session whose operations in flight are to be answered, open or closed. -/
def State.holder (s : State) (id : Nat) : Option Session := (s.session? id).or (s.dying.find? (fun x => x.id == id))

/-- The largest sequence number (R84). -/
def seqMax : Nat := 0xFFFFFFFFFFFFFFFF

/-- A reply leaves by its transport; on the doorbell it waits to be written to the reply buffer (R118). -/
def State.sendReply (s : State) (t : Transport) (secure : Bool) (id seq tag opcode : Nat) (body wire : List Byte) : State :=
  let s1 := s.send (.reply t secure id seq tag opcode body wire)
  if t = .doorbell then { s1 with dbReply := some wire } else s1

/-- Send the reply numbered next in the session, encrypted under K_M2S, and close the session when that number is the largest (R78, R81,
R84, R88). -/
def State.replyTo (s : State) (x : Session) (t : Transport) (tag opcode : Nat) (l : Lane) (r : Res) (body : List Byte) : State :=
  let n := x.replies + 1
  let b := beBytes 4 (s.status l x.gallery r) ++ body
  let s1 := (s.setSession { x with replies := n }).sendReply t true x.id n tag opcode b (sealPacket x.kOut 0xC0 x.id n tag opcode b)
  if n ≥ seqMax then s1.dropSession x.id else s1

/-- Once a closing session has no operation in flight but its SESSION_CLOSE, that is answered and the session is gone; a session closed
otherwise is gone with its last answer (R84, R85). -/
def State.settle (s : State) (id : Nat) (l : Lane) : State :=
  match s.holder id with
  | none => s
  | some x =>
    let mine := s.flights.filter (fun f => f.session == id)
    if x.closing && mine.all (fun f => f.opcode == 3) then
      (match mine.head? with
      | some f => ({ s with flights := s.flights.erase f } : State).replyTo x f.transport f.tag 3 l .ok []
      | none => s).dropSession id
    else if mine.isEmpty && (s.session? id).isNone then s.dropSession id
    else s

/-- An operation in flight is answered by lane `l` (R92): under the old keys when its session has closed (R85). -/
def State.answerBy (s : State) (l : Lane) (f : Flight) (r : Res) (body : List Byte) : State :=
  let s0 : State := { s with flights := s.flights.erase f }
  match s.holder f.session with
  | some x => (s0.replyTo x f.transport f.tag f.opcode l r body).settle x.id l
  | none => s0

/-- An operation in flight is answered by the lane that answers its session; with none its answer is lost. -/
def State.answerFlight (s : State) (f : Flight) (r : Res) (body : List Byte) : State :=
  match (s.holder f.session).bind (fun x => s.answering x.gallery) with
  | some l => s.answerBy l f r body
  | none => { s with flights := s.flights.erase f }

/-- A request dropped on the doorbell leaves it IDLE (R118). -/
def State.dbDrop (s : State) (t : Transport) : State :=
  if t = .doorbell ∧ s.fget 0 CAB_STATUS_DB_STATE = 1 then s.fset 0 CAB_STATUS_DB_STATE 0 else s

/-- A packet that names no open session, or whose ICV fails (R86): dropped and counted, event 504 once per second. -/
def State.authFail (s : State) (t : Transport) : State :=
  if s.pwr.refclkLost then s else ((s.finc 0 EVT_PLIAK_AUTHFAIL).eventCounted 504 0 0 true 0 1000000000 1).dbDrop t

/-- A malformed datagram is dropped and counted (R79). -/
def State.dropPacket (s : State) (t : Transport) : State := (s.finc 0 EVT_PLIAK_DROP).dbDrop t

/-- The datagram in the doorbell's request buffer (R117, R118). -/
def State.dbPacket (s : State) : List Byte := s.mbytes doorbellReq s.dbReqLen

/-- The doorbell holds request `r`, taken and not answered yet (R118). -/
def State.dbHolds (s : State) (r : Req) (opcode : Nat) : Bool :=
  decide (s.fget 0 CAB_STATUS_DB_STATE = 1) && s.dbReply.isNone &&
  decide (s.dbPacket.take 24 = packetHeader 0x40 r.session.toNat r.seq.toNat r.tag.toNat opcode r.length.toNat)

/-- Has SEQ `q` been used, or does it lie below the window (R87)? -/
def Session.replayed (x : Session) (q : Nat) : Bool :=
  q == 0 || (x.h ≥ 256 && q ≤ x.h - 256) || (q ≤ x.h && x.window.getLsbD (x.h - q))

/-- Mark SEQ `q` as accepted; H rises when `q` is above it (R87). -/
def Session.mark (x : Session) (q : Nat) : Session :=
  if q > x.h then { x with h := q, window := (x.window <<< (q - x.h)) ||| 1#256 }
  else { x with window := x.window ||| (1#256 <<< (x.h - q)) }

/-- An opcode that the mode does not serve to this gallery (R10, R99, R465). -/
def State.modeRefuses (s : State) (g opcode : Nat) : Bool :=
  match s.mode with
  | .boot => (0x20 ≤ opcode && opcode ≤ 0x26) || opcode == 0x80 || opcode == 0x81
  | .hold => opcode == 0x21 || opcode == 0x23 || opcode == 0x24 || opcode == 0x25 || opcode == 0x80
  | .service => g != 0 && (opcode == 0x21 || opcode == 0x23 || opcode == 0x31)
  | .safe => !([1, 2, 3, 4, 5, 0x10, 0x30, 0x31, 0x62, 0x70].contains opcode ||
      (g == 0 && [0x11, 0x90, 0x50, 0x51, 0x52].contains opcode))
  | _ => false

/-- The opcodes that R97 lists. -/
def opcodes : List Nat :=
  [1, 2, 3, 4, 5, 0x10, 0x11, 0x12, 0x13, 0x20, 0x21, 0x22, 0x23, 0x24, 0x25, 0x26, 0x30, 0x31, 0x40, 0x41, 0x42, 0x50,
   0x51, 0x52, 0x53, 0x60, 0x61, 0x62, 0x70, 0x80, 0x81, 0x90]

/-- The opcodes marked for gallery 0 only (R97). -/
def gallery0Only (opcode : Nat) : Bool :=
  [0x11, 0x12, 0x13, 0x24, 0x25, 0x40, 0x41, 0x42, 0x50, 0x51, 0x52, 0x53, 0x60, 0x61, 0x80, 0x81, 0x90].contains opcode

/-- What an operation gives: the state after it, and its result and reply body, or no answer yet. -/
structure Answer where
  st : State
  out : Option (Res × List Byte)

/-- An answer with a result alone. -/
def State.ans (s : State) (r : Res) : Answer := ⟨s, some (r, [])⟩

/-- An answer with a result and a body after STATUS. -/
def State.ansB (s : State) (r : Res) (b : List Byte) : Answer := ⟨s, some (r, b)⟩

/-- An answer whose body follows STATUS only with OK or PARTIAL (R80). -/
def State.ansOk (s : State) (r : Res) (b : List Byte) : Answer := s.ansB r (if r = .ok ∨ r = .partial_ then b else [])

/-- The result an accepted request receives before its operation runs, if it is refused: limits (R92), a session that
opens or closes (R84), an opcode that is unknown or not for its gallery (R97), a LENGTH that does not fit, and the mode
(R99). -/
def State.early (s : State) (x : Session) (tag opcode len want : Nat) : Option Res :=
  if (s.flights.filter (fun f => f.session == x.id)).length ≥ 256 ∨ s.flights.length ≥ 2048 then some .busy
  else if s.flights.any (fun f => f.session == x.id && f.tag == tag) then some .tagInUse
  else if !opcodes.contains opcode then some .badOpcode
  else if gallery0Only opcode && x.gallery != 0 then some .denied
  else if x.closing then some .state
  else if !x.established && opcode != 2 then some .state
  else if len ≠ want then some .badLength
  else if s.modeRefuses x.gallery opcode then some .state
  else none

/-- What an accepted request gives: the early result, or what its operation gives. -/
def State.runReq (s : State) (x : Session) (r : Req) (opcode want : Nat) (l : Lane) (run : State → Session → Lane → Answer) : Answer :=
  match s.early x r.tag.toNat opcode r.length.toNat want with
  | some e => s.ans e
  | none => run s x l

/-- The answer is sent in the session with identity `id`, if it is still open; `next` follows a reply with OK. -/
def Answer.sendTo (a : Answer) (id : Nat) (r : Req) (opcode : Nat) (l : Lane) (next : State → State) : State :=
  match a.out with
  | none => a.st
  | some (res, body) => match a.st.session? id with
    | none => a.st
    | some z =>
      let t := a.st.replyTo z r.transport r.tag.toNat opcode l res body
      if res = .ok then next t else t

/-- The session after it has accepted SEQ `q` at `now` (R84, R87). -/
def Session.accepted (x : Session) (q now : Nat) : Session := { x.mark q with last := now }

/-- The SWITCH domain answers. -/
def State.ethUp (s : State) : Bool := !s.isolated .switch && !s.pwr.refclkLost

/-- The switch forwards frames (R37, R241). -/
def State.ethReady (s : State) : Bool := s.ethUp && s.fbit 0 ETH_STATUS_FW_LOADED

/-- A datagram can reach the module by this transport: an uplink carries none while the switch forwards nothing or the link is down (R241). -/
def State.reached (s : State) : Transport → Bool
  | .uplinkA _ => s.ethReady && s.fbit (ethB 65) ETH_PORT_STATUS_LINK_UP
  | .uplinkB _ => s.ethReady && s.fbit (ethB 66) ETH_PORT_STATUS_LINK_UP
  | _ => true

/-- Serve a request (R86–R88, R92, R97): drop it, refuse it, or run its operation, and answer it; `next` follows a reply with OK. `want` is
the LENGTH that fits the opcode's parameters. A request that no lane can take is lost; on the doorbell the request served is the one in its
request buffer. -/
def State.serveThen (s : State) (r : Req) (opcode want : Nat) (run : State → Session → Lane → Answer) (next : State → State) : State :=
  if (r.transport = .doorbell ∧ !s.dbHolds r opcode) ∨ !s.reached r.transport then s
  else match s.session? r.session.toNat with
  | none => s.authFail r.transport
  | some x =>
    match s.answering x.gallery with
    | none => s
    | some l =>
      let q := r.seq.toNat
      if x.replayed q then
        ((s.finc 0 EVT_PLIAK_REPLAY).eventCounted 507 x.gallery x.gallery true 0 1000000000 1).replyTo { x with last := s.now } r.transport
          r.tag.toNat opcode l .replay []
      else
        let y := x.accepted q s.now
        let t := ((s.setSession y).runReq y r opcode want l run).sendTo y.id r opcode l next
        if q ≥ seqMax then t.closeSession y.id else t

/-- Serve a request that has no consequence after its reply. -/
def State.serve (s : State) (r : Req) (opcode want : Nat) (run : State → Session → Lane → Answer) : State :=
  s.serveThen r opcode want run (fun s => s)

end Sys2Proof.Machine
end

