-- ==== Sys2Proof/Machine/Frames.lean ====
section
/-! DEFINITION. Ethernet frames as bytes: what the switch reads in them, and the frames that the lanes send (R207–R210, R242–R250, R256). A frame is
held from its destination address on and without its FCS. -/

namespace Sys2Proof.Machine
open Sys2Proof

/-- What a frame is, as far as the switch tells frames apart (R244, R246, R247, R256). -/
inductive FrameKind | plain | pliak | luminaire | solicit | ptpEvent | ptpGeneral
deriving DecidableEq, Repr

/-! ### Reading a frame -/

/-- The FCS of a frame as it stands on the wire (IEEE 802.3); a stomped one is its ones' complement (R250). -/
def frameFcs (d : List Byte) (stomped : Bool) : List Byte :=
  let c := crcFeed (crcAlgo 1) 0xFFFFFFFF d
  leBytes 4 (if stomped then c else c ^^^ 0xFFFFFFFF)

/-- The PCP and the VID of a frame's tag, if it has one. -/
def frameTag (d : List Byte) : Option (Nat × Nat) :=
  if packetNum d 12 2 = 0x8100 then some (packetNum d 14 2 / 0x2000, packetNum d 14 2 % 0x1000) else none

/-- A frame without its tag. -/
def untag (d : List Byte) : List Byte := if (frameTag d).isSome then d.take 12 ++ d.drop 16 else d

/-- A frame with a tag. -/
def addTag (pcp vid : Nat) (d : List Byte) : List Byte := d.take 12 ++ beBytes 2 0x8100 ++ beBytes 2 (0x2000 * pcp + vid) ++ d.drop 12

/-- The UDP datagram in an untagged frame of IPv6 or unfragmented IPv4, from its header on. -/
def frameUdp (u : List Byte) : Option (List Byte) :=
  if packetNum u 12 2 = 0x86DD then (if packetNum u 20 1 = 17 then some (u.drop 54) else none)
  else if packetNum u 12 2 = 0x800 then
    (if packetNum u 23 1 = 17 ∧ packetNum u 20 2 % 0x4000 = 0 then some (u.drop (14 + packetNum u 14 1 % 16 * 4)) else none)
  else none

/-- fe80::1 (R207). -/
def lumAddress : Nat := 0xFE800000000000000000000000000001

/-- An untagged frame is a neighbour solicitation for fe80::1. -/
def frameSolicits (u : List Byte) : Bool :=
  decide (packetNum u 12 2 = 0x86DD) && decide (packetNum u 20 1 = 58) && decide (packetNum u 54 1 = 135) && decide (packetNum u 62 16 = lumAddress)

/-- What an untagged frame is. -/
def frameKind (u : List Byte) : FrameKind :=
  if packetNum u 12 2 = 0x88F7 then (if packetNum u 14 1 % 16 < 4 then .ptpEvent else .ptpGeneral)
  else match frameUdp u with
    | some d => if packetNum d 2 2 = 39220 then .pliak else if packetNum d 2 2 = 39221 then .luminaire else .plain
    | none => if frameSolicits u then .solicit else .plain

/-! ### Building a frame -/

/-- The sum of the 16-bit words that bytes spell, a last odd byte filled up with zero. -/
def sumWords : List Byte → Nat
  | [] => 0
  | [b] => 256 * b.toNat
  | b :: c :: bs => 256 * b.toNat + c.toNat + sumWords bs

/-- The ones' complement of the ones' complement sum (RFC 1071). -/
def checksum (d : List Byte) : Nat :=
  let n := sumWords d
  let n1 := n / 0x10000 + n % 0x10000
  0xFFFF - (n1 / 0x10000 + n1 % 0x10000)

/-- The link-local address formed from a MAC address (R207, RFC 4862). -/
def linkLocal (mac : Nat) : Nat :=
  let hi := mac / 0x1000000
  let lo := mac % 0x1000000
  0xFE800000000000000000000000000000 + ((hi ^^^ 0x020000) * 0x10000000000 + 0xFFFE000000 + lo)

/-- The checksum of an upper-layer packet between two IPv6 addresses (RFC 8200). -/
def ip6Checksum (src dst next : Nat) (body : List Byte) : Nat :=
  checksum (beBytes 16 src ++ beBytes 16 dst ++ beBytes 4 body.length ++ beBytes 4 next ++ body)

/-- An untagged frame that carries an IPv6 packet, with hop limit 255 (DESIGN CHOICE, log entry 100). -/
def ip6Frame (srcMac dstMac src dst next : Nat) (body : List Byte) : List Byte :=
  beBytes 6 dstMac ++ beBytes 6 srcMac ++ beBytes 2 0x86DD ++ beBytes 4 0x60000000 ++ beBytes 2 body.length ++ beBytes 1 next ++ beBytes 1 255 ++
    beBytes 16 src ++ beBytes 16 dst ++ body

/-- A frame with a luminaire datagram of the module, from fe80::1, UDP port 39221 to port 39221 (R207). -/
def lumFrame (lumMac dstMac dst : Nat) (d : List Byte) : List Byte :=
  let head (sum : Nat) : List Byte := beBytes 2 39221 ++ beBytes 2 39221 ++ beBytes 2 (8 + d.length) ++ beBytes 2 sum
  let sum := ip6Checksum lumAddress dst 17 (head 0 ++ d)
  ip6Frame lumMac dstMac lumAddress dst 17 (head (if sum = 0 then 0xFFFF else sum) ++ d)

/-- The neighbour advertisement for fe80::1 that answers a solicitation (R207, RFC 4861). -/
def advertFrame (lumMac : Nat) (u : List Byte) : List Byte :=
  let asker := packetNum u 22 16
  let dst := if asker = 0 then 0xFF020000000000000000000000000001 else asker
  let dstMac := if asker = 0 then 0x333300000001 else packetNum u 6 6
  let body (sum : Nat) : List Byte := beBytes 2 0x8800 ++ beBytes 2 sum ++ beBytes 4 (if asker = 0 then 0x20000000 else 0x60000000) ++
    beBytes 16 lumAddress ++ beBytes 2 0x0201 ++ beBytes 6 lumMac
  ip6Frame lumMac dstMac lumAddress dst 58 (body (ip6Checksum lumAddress dst 58 (body 0)))

end Sys2Proof.Machine
end

