-- ==== Sys2Proof/Machine/SwitchOps.lean ====
section
/-! DEFINITION. The switch: counters, VLANs, buffer and queues, pause, low-power idle, and the frames of the lanes (chapter "Ethernet switch and
uplinks"). -/

namespace Sys2Proof.Machine
open Sys2Proof

/-! ### Ports -/

/-- A luminaire port (R239). -/
def isJack (k : Nat) : Bool := 1 ≤ k && k ≤ 64

/-- An uplink. -/
def isUplink (k : Nat) : Bool := k == 65 || k == 66

/-- The uplink of a supply-like letter. -/
def uplinkK : Bus → Nat
  | .a => 65
  | .b => 66

/-- A port outside the module. -/
def isExternal (k : Nat) : Bool := 1 ≤ k && k ≤ 66

/-- The internal port of a lane. -/
def laneK : Lane → Nat
  | .a => 67
  | .b => 68

/-- The link of port `k` is up; the internal ports have theirs while the lane is out of reset. -/
def State.ethLink (s : State) (k : Nat) : Bool :=
  if k = 67 then !s.inReset 6 else if k = 68 then !s.inReset 7 else s.fbit (ethB k) ETH_PORT_STATUS_LINK_UP

/-- Add to counter `i` of port `k` (R260, R261): it rolls over; a change of bit 31 sets its HALF bit and raises event 453 when
its mask allows, at most once per 10 ms. -/
def State.cnt (s : State) (k i n : Nat) : State :=
  let f : Fld := ⟨ETH_PORT_CNT.off + 4 * i, 0, 32⟩
  let old := s.fget (ethB k) f
  let new := (old + n) % 0x100000000
  let s1 := s.fset (ethB k) f new
  if old / 0x80000000 = new / 0x80000000 then s1
  else
    let h : Fld := if i < 32 then ETH_PORT_HALF_LO else ETH_PORT_HALF_HI_FLIP
    let m : Fld := if i < 32 then ETH_PORT_HALF_MASK_LO else ETH_PORT_HALF_MASK_HI_MASK
    let b := 2 ^ (i % 32)
    let s2 := s1.fset (ethB k) h (s1.fget (ethB k) h ||| b)
    if (s2.fget (ethB k) m).testBit (i % 32) then
      s2.eventLimited 453 0 0 false (k * 0x1000000 + i * 0x10000 + new / 0x80000000) 10000000
    else s2

/-- The size counter for a length on the wire, from its first index `b` (R260). -/
def sizeCounter (b n : Nat) : Nat :=
  if n ≤ 64 then b else if n ≤ 127 then b + 1 else if n ≤ 255 then b + 2 else if n ≤ 511 then b + 3
  else if n ≤ 1023 then b + 4 else if n ≤ 1518 then b + 5 else b + 6

/-- The address counter for a destination, from the unicast index `b` (R260). -/
def addrCounter (b dst : Nat) : Nat :=
  if dst = 0xFFFFFFFFFFFF then b + 2 else if dst / 0x10000000000 % 2 = 1 then b + 1 else b

/-- MTU of a port (R249). -/
def State.mtu (s : State) (k : Nat) : Nat :=
  if isExternal k then min (max (s.fget (ethB k) ETH_PORT_MTU) 1518) 9216 else 9216

/-- The common counters of a frame received whole or sent whole, at `b` 0 or 24. -/
def State.cntFrame (s : State) (k b n dst : Nat) : State :=
  (((s.cnt k b 1).cnt k (b + 1) n).cnt k (addrCounter (b + 2) dst) 1).cnt k (sizeCounter (b + 6) n) 1

/-- Octets received and sent on port `k` enter the means of R251 and R265. -/
def State.octets (s : State) (k rx tx : Nat) : State :=
  let x := s.ethX k
  s.setEthX k { x with rxSec := x.rxSec + rx, txSec := x.txSec + tx, rxTenth := x.rxTenth + rx, txTenth := x.txTenth + tx }

/-! ### VLANs (R137, R242, R243) -/

/-- The live VID of gallery `g`. -/
def State.galVid (s : State) (g : Nat) : Nat := s.fget (galB g) HG_GAL_LIVE_VID

/-- The enabled gallery that has VID `v`. -/
def State.vidGal (s : State) (v : Nat) : Option Nat := (List.range 64).find? (fun g => s.galEn g && s.galVid g == v)

def State.mgmtVid (s : State) : Nat := s.fget 0 ETH_MGMT_VID

def State.mgmtUntagged (s : State) : Bool := s.fbit 0 ETH_MGMT_VID_UNTAGGED

/-- Does uplink `k` carry gallery `g`'s VID (R242)? -/
def State.upMember (s : State) (k g : Nat) : Bool :=
  let lo := if k = 65 then s.fget 0 ETH_UPLA_MEMBER_LO else s.fget 0 ETH_UPLB_MEMBER_LO
  let hi := if k = 65 then s.fget 0 ETH_UPLA_MEMBER_HI else s.fget 0 ETH_UPLB_MEMBER_HI
  (lo + 0x100000000 * hi).testBit g

/-- Does uplink `k` carry VID `v`? -/
def State.upVid (s : State) (k v : Nat) : Bool :=
  v == s.mgmtVid || match s.vidGal v with
    | some g => s.upMember k g
    | none => false

/-- The uplink that sends frames of VID `v`: for a VID both carry, UPLINK-A while its link is up (R243). -/
def State.upChoice (s : State) (v : Nat) : List Nat :=
  let a := s.upVid 65 v
  let b := s.upVid 66 v
  if v = s.mgmtVid then [65, 66]
  else if a && b then (if s.ethLink 65 then [65] else [66]) else if a then [65] else if b then [66] else []

/-- The VID a received frame belongs to; none where it is dropped (R137, R242). -/
def State.frameVid (s : State) (k : Nat) (d : List Byte) : Option Nat :=
  let t := ((frameTag d).map (fun t => t.2)).getD 0
  if isJack k then (if t = 0 then some (s.galVid (s.portOwner (k - 1))) else none)
  else if isUplink k then
    (if t = 0 then (if s.mgmtUntagged then some s.mgmtVid else none) else if s.upVid k t then some t else none)
  else if t = 0 then none else if t = s.mgmtVid ∨ (s.vidGal t).isSome then some t else none

/-- The PCP of a frame (R247). -/
def State.framePcp (s : State) (k : Nat) (d : List Byte) : Nat :=
  match frameTag d with
  | some (p, _) => p
  | none => s.fget (ethB k) ETH_PORT_CTRL_DEF_PCP

/-- The queue of a frame (R247): gPTP messages and the lanes' luminaire frames always go to queue 3. -/
def State.frameQueue (s : State) (k : Nat) (d : List Byte) : Nat :=
  match frameKind (untag d) with
  | .ptpEvent | .ptpGeneral => 3
  | .luminaire => if isExternal k then s.framePcp k d / 2 else 3
  | _ => s.framePcp k d / 2

def State.lumMacAddr (s : State) : Nat :=
  s.fget 0 LUM_MAC_LO + 0x100000000 * s.fget 0 LUM_MAC_HI

def State.mgmtMacAddr (s : State) : Nat := s.fget 0 ETH_MGMT_MAC_LO + 0x100000000 * s.fget 0 ETH_MGMT_MAC_HI

/-- Every port a frame of VID `v` is flooded to, except its ingress (R137, R242). -/
def State.floodTo (s : State) (k v : Nat) : List Nat :=
  let jacks := match s.vidGal v with
    | some g => ((List.range 64).filter (fun p => s.portOwner p == g)).map (fun p => p + 1)
    | none => []
  let ups := if isUplink k then [] else s.upChoice v
  (jacks ++ ups ++ [67, 68]).filter (fun e => e != k)

/-- The lane that takes a frame for the management interface (R245): the one that answers the session a Pliak datagram names, or for SESSION_OPEN its
GALLERY; every other frame goes to the lane that answers gallery 0. -/
def State.mgmtLane (s : State) (u : List Byte) : Option Lane :=
  match frameUdp u with
  | some d =>
    if packetNum d 2 2 ≠ 39220 then s.answering 0
    else match s.session? (packetNum d 12 4) with
      | some x => s.answering x.gallery
      | none => if packetNum d 26 2 = 1 then s.answering (packetNum d 32 1) else s.answering 0
  | none => s.answering 0

/-- The egress ports of an untagged frame (R207, R242–R245). -/
def State.egress (s : State) (k v : Nat) (u : List Byte) : List Nat :=
  let d := packetNum u 0 6
  if d / 0x10000000000 % 2 = 1 then s.floodTo k v
  else if d = s.lumMacAddr then
    (match s.vidGal v with
    | some g => match s.grant g with
      | some l => [laneK l]
      | none => []
    | none => [])
  else if d = s.mgmtMacAddr then
    (if isUplink k then match s.mgmtLane u with
      | some l => [laneK l]
      | none => []
    else [])
  else match s.eth.macs.find? (fun e => e.vid == v && e.mac == d) with
    | some e =>
      if isUplink e.port then (if isUplink k then [] else if v = s.mgmtVid then [e.port] else s.upChoice v)
      else if (s.floodTo k v).contains e.port then [e.port] else []
    | none => s.floodTo k v

/-! ### Buffer, queues and pause (R246–R248) -/

/-- The frames in the buffer, each once. -/
def heldOnce : List EthQ → List EthQ
  | [] => []
  | q :: qs => if qs.any (fun r => r.num == q.num) then heldOnce qs else q :: heldOnce qs

/-- The cells of the frames that satisfy `f`. -/
def State.cellsOf (s : State) (f : EthQ → Bool) : Nat := ((heldOnce s.eth.queue).filter f).foldl (fun a q => a + q.cells) 0

/-- The ingress use of port `k`, bytes. -/
def State.ingressUse (s : State) (k : Nat) : Nat := 256 * s.cellsOf (fun q => q.ing == k)

/-- The frames queued for port `k`, bytes. -/
def State.egressUse (s : State) (k : Nat) : Nat := (s.eth.queue.filter (fun q => q.egr == k)).foldl (fun a q => a + 256 * q.cells) 0

/-- The pools in use, bytes. -/
def State.sharedUse (s : State) : Nat := 256 * s.cellsOf (fun q => !q.reserved)
def State.reservedUse (s : State) : Nat := 256 * s.cellsOf (fun q => q.reserved)

/-- Port `k` sends a PAUSE frame (R248). -/
def State.sendPause (s : State) (k q : Nat) : State := (s.cnt k 29 1).send (.pause k q)

/-- Ingress use has reached HIGH (R248). -/
def State.pauseHigh (s : State) (k use : Nat) : State :=
  if isExternal k && s.fbit (ethB k) ETH_PORT_CTRL_TX_PAUSE_EN && !s.fbit (ethB k) ETH_PORT_STATUS_PAUSING &&
      decide (use ≥ 1024 * s.fget (ethB k) ETH_PORT_FLOW_HIGH) then
    ((s.fset (ethB k) ETH_PORT_STATUS_PAUSING 1).cnt k 46 1).sendPause k (s.fget (ethB k) ETH_PORT_PAUSE_QUANTA)
  else s

/-- May port `k` send: its link is up, it is not paused and no rate change holds its frames? -/
def State.canSend (s : State) (k : Nat) : Bool :=
  s.ethLink k && !s.fbit (ethB k) ETH_PORT_STATUS_PAUSED && (s.ethX k).changing.isNone

/-! ### Low-power idle (R254) -/

/-- Port `k` uses low-power idle: copper at 100BASE-TX or 1000BASE-T, with EEE_EN and a partner that advertises it. -/
def State.lpiUsed (s : State) (k : Nat) : Bool :=
  isJack k && s.fbit (ethB k) ETH_PORT_CTRL_EEE_EN && (s.ethX k).eee && 2 ≤ s.fget (ethB k) ETH_PORT_STATUS_SPEED

/-- Port `k` has nothing to send: its transmit side enters low-power idle. -/
def State.lpiEnter (s : State) (k : Nat) : State :=
  let x := s.ethX k
  if s.lpiUsed k && x.lpiAt.isNone && s.canSend k then
    ((s.setEthX k { x with lpiAt := some s.now }).fset (ethB k) ETH_PORT_STATUS_LPI_TX 1).cnt k 41 1
  else s

/-- Port `k` leaves it; whole milliseconds there are counted. -/
def State.lpiLeave (s : State) (k : Nat) : State :=
  let x := s.ethX k
  match x.lpiAt with
  | none => s
  | some t =>
    let ns := x.lpiRem + (s.now - t)
    ((s.setEthX k { x with lpiAt := none, lpiRem := ns % 1000000 }).fset (ethB k) ETH_PORT_STATUS_LPI_TX 0).cnt k 45 (ns / 1000000)

/-- The milliseconds so far are counted while transmit stays there. -/
def State.lpiCount (s : State) (k : Nat) : State :=
  let x := s.ethX k
  match x.lpiAt with
  | none => s
  | some t =>
    let ns := x.lpiRem + (s.now - t)
    (s.setEthX k { x with lpiAt := some s.now, lpiRem := ns % 1000000 }).cnt k 45 (ns / 1000000)

/-! ### Sending -/

/-- Send one frame on its egress port and count it (R250, R260). A lane discards a frame whose FCS fails. -/
def State.emit (s : State) (q : EthQ) : State :=
  let n := q.data.length + 4
  let s0 := s.lpiLeave q.egr
  let s1 := (if q.stomped then s0 else s0.cntFrame q.egr 24 n (packetNum q.data 0 6)).octets q.egr 0 n
  if q.stomped && !isExternal q.egr then s1 else s1.send (.eth q.egr (q.data ++ frameFcs q.data q.stomped))

/-- Port `k` may send again: its queues are served in strict priority, each in order of arrival (R247). -/
def State.drain (s : State) (k : Nat) : State :=
  if s.canSend k then
    let mine (n : Nat) : List EthQ := s.eth.queue.filter (fun q => q.egr == k && q.queue == n)
    let out := mine 3 ++ mine 2 ++ mine 1 ++ mine 0
    let s1 : State := { s with eth := { s.eth with queue := s.eth.queue.filter (fun q => q.egr != k) } }
    (out.foldl (fun s q => s.emit q) s1).lpiEnter k
  else s

/-- The frames queued for port `k` are dropped and counted (R243, R247, R252). -/
def State.dropQueue (s : State) (k : Nat) : State :=
  let n := (s.eth.queue.filter (fun q => q.egr == k)).length
  let s1 : State := { s with eth := { s.eth with queue := s.eth.queue.filter (fun q => q.egr != k) } }
  if n = 0 then s1 else s1.cnt k 38 n

/-- An untagged frame of VID `v` leaves by port `e` (R137, R247, R250): tagged on the uplinks but for an untagged management VID and on the internal
ports, cut when it would exceed the MTU there, and sent or queued. -/
def State.forwardTo (s : State) (e v pcp : Nat) (q : EthQ) : State :=
  let tagged := if isJack e then false else if isUplink e then !(v == s.mgmtVid && s.mgmtUntagged) else true
  let d := if tagged then addTag pcp v q.data else q.data
  let m := s.mtu e
  let cut := decide (d.length + 4 > m)
  let s1 := if cut then s.cnt e 37 1 else s
  let r : EthQ := { q with egr := e, data := if cut then d.take (m - 4) else d, stomped := q.stomped || cut }
  if s1.canSend e then (s1.emit r).lpiEnter e
  else if s1.ethLink e || (s1.ethX e).changing.isSome then { s1 with eth := { s1.eth with queue := s1.eth.queue ++ [r] } }
  else s1

/-- An untagged frame of VID `v` that arrived on port `k` with `n` bytes on the wire is charged and forwarded to the ports `es`, or dropped (R246–R248). -/
def State.frameIn (s : State) (k n v pcp queue : Nat) (u : List Byte) (stomped event : Bool) (es : List Nat) : State :=
  let cells := (n + 255) / 256
  let wantRes := !isExternal k || es.any (fun e => !isExternal e) || event
  let res := wantRes && decide (s.reservedUse + 256 * cells ≤ 524288)
  let use := s.ingressUse k + 256 * cells
  if isExternal k && decide (use > 1024 * s.fget (ethB k) ETH_PORT_FLOW_LIMIT) then s.cnt k 19 1
  else if !res && decide (s.sharedUse + 256 * cells > 7864320) then s.cnt k 19 1
  else
    let q : EthQ := ⟨s.eth.nextNum, k, 0, queue, u, stomped, cells, res⟩
    let s2 : State := { s with eth := { s.eth with nextNum := s.eth.nextNum + 1 } }
    (es.foldl (fun s e => s.forwardTo e v pcp q) s2).pauseHigh k use

/-- Learn a source address (R264); a full table learns nothing. -/
def State.learn (s : State) (k v mac : Nat) : State :=
  if s.fbit 0 ETH_CTRL_LEARN_EN && mac / 0x10000000000 % 2 == 0 then
    let rest := s.eth.macs.filter (fun e => !(e.vid == v && e.mac == mac))
    if rest.length ≥ 16384 then s else { s with eth := { s.eth with macs := rest ++ [⟨v, mac, k⟩] } }
  else s

/-! ### Frames of the lanes (R207, R209) -/

/-- A lane sends an untagged frame of VID `v` to the ports `es`: the switch takes it on the lane's port, tagged, and in queue 3 (R247). -/
def State.laneSend (s : State) (l : Lane) (v : Nat) (es : List Nat) (u : List Byte) : State :=
  let k := laneK l
  let n := u.length + 8
  (((s.cntFrame k 0 n (packetNum u 0 6)).cnt k 23 n).octets k n 0).frameIn k n v 6 3 u false false es

/-- A neighbour solicitation for fe80::1 on a gallery's VLAN is answered by the lane that holds the gallery's grant (R207). -/
def State.solicited (s : State) (k v : Nat) (u : List Byte) : State :=
  match s.vidGal v with
  | some g => match s.grant g with
    | some l => if s.procRuns l then s.laneSend l v [k] (advertFrame s.lumMacAddr u) else s
    | none => s
  | none => s

/-- A good or cut frame, received with `n` bytes on the wire, is filtered and forwarded (R242–R247). -/
def State.switchFrame (s : State) (k n : Nat) (d : List Byte) (stomped : Bool) : State :=
  match s.frameVid k d with
  | none => s.cnt k 18 1
  | some v =>
    let u := untag d
    let s1 := (s.learn k v (packetNum u 6 6)).frameIn k n v (s.framePcp k d) (s.frameQueue k d) u stomped (frameKind u == .ptpEvent) (s.egress k v u)
    if frameKind u == .solicit && !stomped then s1.solicited k v u else s1

end Sys2Proof.Machine
end

