-- ==== Sys2Proof/Machine/LumOps.lean ====
section
/-! DEFINITION. The luminaire link: device states, frames and what the other blocks change in it (chapter "Luminaire
link"). -/

namespace Sys2Proof.Machine
open Sys2Proof

/-- Where lane `l` keeps the LUM registers of port `p`, node `n` and group `g` (R238). -/
def lumP (l : Lane) (p : Nat) : Nat := laneKey l (0x1B0100 + 0x10 * p)
def lumN (l : Lane) (n : Nat) : Nat := laneKey l (0x1B0800 + 0x10 * n)
def lumG (l : Lane) (g : Nat) : Nat := laneKey l (0x1B2000 + 8 * g)

/-- The device states of R213. -/
def dsNone : Nat := 0
def dsWaitHello : Nat := 1
def dsConfig : Nat := 2
def dsLinked : Nat := 3
def dsLost : Nat := 4
def dsPlain : Nat := 5

def State.dstate (s : State) (l : Lane) (p : Nat) : Nat := s.fget (lumP l p) LUM_PORT_STATE_DSTATE

def State.setDstate (s : State) (l : Lane) (p d : Nat) : State := s.fset (lumP l p) LUM_PORT_STATE_DSTATE d

def State.accept (s : State) (l : Lane) (p : Nat) : Nat := s.fget (lumP l p) LUM_PORT_STATE_ACCEPT

def State.lum (s : State) (l : Lane) : LumSt := (s.lane l).lum

def State.setLum (s : State) (l : Lane) (x : LumSt) : State := s.setLane l { s.lane l with lum := x }

/-- The lane that serves the device of port `p`: the one that holds the grant of the port's owner (R207). -/
def State.lumLane (s : State) (p : Nat) : Option Lane := s.grant (s.portOwner p)

/-- A lane sends luminaire frames while it runs cycles, or in HOLD with its state intact (R216, R236). -/
def State.lumLive (s : State) (l : Lane) : Bool :=
  match s.mode with
  | .paired | .wide => s.runsCycles l
  | .hold => s.lstate l == .held && (s.laneHg l).held != .syncing && (s.laneHg l).held != .standby
  | _ => false

/-- Count a valid frame received (R238: RX_CNT wraps). -/
def State.lumRx (s : State) (l : Lane) : State := s.fset (laneKey l 0) LUM_RX_CNT (s.fget (laneKey l 0) LUM_RX_CNT + 1)

/-- A datagram that R208 or R214 refuses. -/
def State.lumBad (s : State) (l : Lane) : State := s.finc (laneKey l 0) LUM_BAD_CNT

/-- The MAC bound to port `p`. -/
def State.lumMac (s : State) (l : Lane) (p : Nat) : Nat :=
  s.fget (lumP l p) LUM_PORT_MAC_LO + 0x100000000 * s.fget (lumP l p) LUM_PORT_MAC_HI

/-- The groups of node `n` (R215). -/
def State.groupsOf (s : State) (n : Nat) : List Nat := tabGet (fun _ => []) s.nodeGroups n

/-- The member nodes of group `g`. -/
def State.members (s : State) (g : Nat) : List Nat := (List.range 256).filter (fun n => (s.groupsOf n).contains g)

/-- Is node `n` accepted on lane `l`, its port in state `d`? -/
def State.nodeIn (s : State) (l : Lane) (n d : Nat) : Bool := s.dstate l (n / 4) == d && decide (n % 4 < s.accept l (n / 4))

/-- A luminaire datagram of the module (R209): no session, no encryption; `flags` tells a reply. -/
def lumPacket (flags : Byte) (seq tag op : Nat) (body : List Byte) : List Byte := packetHeader flags 0 seq tag op body.length ++ body

/-- SEQ of a request of lane `l` (R209): the epoch, and the count of the last light tick. -/
def State.lumSeq (s : State) (l : Lane) : Nat :=
  s.fget (laneKey l 0) LUM_EPOCH * 0x100000000 + s.fget (laneKey l 0) LUM_COUNT

/-- A request of lane `l` (R209): TAG is the low half of the count. -/
def State.lumRequest (s : State) (l : Lane) (op : Nat) (body : List Byte) : List Byte := lumPacket 0 (s.lumSeq l) (s.lumSeq l % 0x10000) op body

/-- May lane `l` send luminaire frames: `LUM_CTRL.EN`, cycles or a HOLD with its state intact, and a switch that forwards (R37, R216, R236, R238)? -/
def State.lumMay (s : State) (l : Lane) : Bool := s.fbit (laneKey l 0) LUM_CTRL_EN && s.lumLive l && s.ethReady

/-- Count a frame sent (R238: TX_CNT wraps). -/
def State.lumTx (s : State) (l : Lane) : State := s.fset (laneKey l 0) LUM_TX_CNT (s.fget (laneKey l 0) LUM_TX_CNT + 1)

/-- Lane `l` sends a luminaire datagram to the device bound to port `p`, on the VLAN of the port's owner (R207). -/
def State.lumSend (s : State) (l : Lane) (p : Nat) (d : List Byte) : State :=
  if s.lumMay l then
    let m := s.lumMac l p
    (s.laneSend l (s.galVid (s.portOwner p)) [p + 1] (lumFrame s.lumMacAddr m (linkLocal m) d)).lumTx l
  else s

/-- Lane `l` sends a luminaire datagram to group `g`, on the VLAN of its owner (R207). -/
def State.lumCast (s : State) (l : Lane) (g : Nat) (d : List Byte) : State :=
  if s.lumMay l then
    let v := s.galVid (s.grpOwner g)
    (s.laneSend l v (s.floodTo (laneK l) v) (lumFrame s.lumMacAddr (0x3333004C0000 + g) (0xFF02000000000000000000000000004C * 0x10000 + g) d)).lumTx l
  else s

/-- The body of LUM_CONFIG for node `k` of port `p` (R210, R215). -/
def State.lumConfigBody (s : State) (l : Lane) (p k : Nat) : List Byte :=
  let gs := (s.groupsOf (4 * p + k)).take 16
  beBytes 1 k ++ beBytes 1 gs.length ++ beBytes 2 (s.fget (lumN l (4 * p + k)) LUM_NODE_CFG_SAFE) ++ beBytes 2 (s.lum l).hold ++ beBytes 2 0 ++
    gs.flatMap (fun g => beBytes 1 g) ++ List.replicate (16 - gs.length) 0

/-- Send LUM_CONFIG to the nodes of `todo` on port `p` (R215). -/
def State.lumConfig (s : State) (l : Lane) (p : Nat) : State :=
  (List.range 4).foldl (fun s k =>
    if (nat0 (s.lum l).todo p).testBit k then s.lumSend l p (s.lumRequest l 0x0101 (s.lumConfigBody l p k)) else s) s

/-- Mark the nodes of `mask` as not having answered their LUM_CONFIG. -/
def State.lumTodo (s : State) (l : Lane) (p mask : Nat) : State :=
  s.setLum l { s.lum l with todo := put0 (s.lum l).todo p mask }

/-- A change of a node's safe level, groups or hold time: a LINKED node that lane `l` serves is sent LUM_CONFIG (R215). -/
def State.lumChanged (s : State) (l : Lane) (n : Nat) : State :=
  if s.nodeIn l n dsLinked && s.lumLane (n / 4) == some l && s.lumLive l then (s.lumTodo l (n / 4) (nat0 (s.lum l).todo (n / 4) ||| 2 ^ (n % 4))).lumConfig l (n / 4) else s

/-- Forget what is under way with the device of port `p`. -/
def State.lumForget (s : State) (l : Lane) (p : Nat) : State :=
  let x := s.lum l
  s.setLum l { x with todo := put0 x.todo p 0, miss := put0 x.miss p 0, sent := put0 x.sent p 0,
                      got := x.got.filter (fun e => e.1 != p) }

/-- The port leaves ON, or its data link goes down: NONE (R213). -/
def State.lumNone (s : State) (p : Nat) : State :=
  [Lane.a, Lane.b].foldl (fun s l =>
    ((s.setDstate l p dsNone).fset (lumP l p) LUM_PORT_STATE_ACCEPT 0).lumForget l p) s

/-- A port that is ON with its data link up leaves NONE (R213). -/
def State.lumArrive (s : State) (p : Nat) : State :=
  match s.lumLane p with
  | some l => if s.portOn p && s.linkUp p && s.dstate l p == dsNone && s.lumLive l then s.setDstate l p dsWaitHello else s
  | none => s

/-- The light cycle in force for a divider, in base cycles of `t` µs (R216). -/
def lightDiv (div t : Nat) : Nat :=
  let d := max div 1
  if t = 0 then d
  else if d * t < 5000 then (5000 + t - 1) / t
  else if d * t > 1000000 then max (1000000 / t) 1
  else d

/-- The hold time in force, ms (R216). -/
def holdTime (hold div t : Nat) : Nat := min (max (max hold (10 * div * t / 1000)) 1500) 60000

/-- What was commanded of node `n` at tick `m` or before (R219). -/
def State.lumLevel (s : State) (l : Lane) (m n : Nat) : Nat :=
  let x := s.lum l
  nat0 (((x.levels.find? (fun h => h.1 == m)).map (fun h => h.2)).getD x.cmd) n

/-- The value to which a node is forced in cycle `m`. -/
def State.nodeForce (s : State) (m n : Nat) : Option Nat :=
  let fs := ((s.tickLog.find? (fun r => r.n == m)).map (fun r => r.forces)).getD s.forces
  (fs.find? (fun f => f.ptype == 16 && f.index == n)).map (fun f => f.value)

/-- The VALUE a node is sent in cycle `m`: its safe level with FADE 1,000 ms while its gallery is shed (R424), its forced value, or the commanded one
(R219, R221). -/
def State.nodeValue (s : State) (l : Lane) (m n : Nat) : Nat :=
  if s.galShed (s.portOwner (n / 4)) then s.fget (lumN l n) LUM_NODE_CFG_SAFE + 0x10000 * 1000
  else (s.nodeForce m n).getD (s.lumLevel l m n)

/-- LEVEL, FADE and CCT of a VALUE as frames carry them (R210, R223). -/
def levelEntry (v : Nat) : List Byte := beBytes 2 v ++ beBytes 2 (v / 0x10000) ++ beBytes 2 (v / 0x100000000)

/-- May a VALUE be written to a node or group (R211, R223)? -/
def levelOk (v : Nat) : Bool :=
  let c := v / 0x100000000 % 0x10000
  v / 0x1000000000000 == 0 && v % 0x10000 ≤ 10000 && (c == 0 || (1800 ≤ c && c ≤ 10000))

/-- A write to a node takes effect (R219, R221). -/
def State.nodeWrite (s : State) (l : Lane) (n v : Nat) : State :=
  s.setLum l { s.lum l with cmd := put0 (s.lum l).cmd n v }

/-- A write to a group takes effect: every unforced member takes the value; a group with no members changes nothing
(R221, R224). -/
def State.groupWrite (s : State) (l : Lane) (g v : Nat) : State :=
  let ms := s.members g
  if ms.isEmpty then s
  else
    let s1 := ms.foldl (fun s n => if s.forces.any (fun f => f.ptype == 16 && f.index == n) then s else s.nodeWrite l n v) s
    let x := s1.lum l
    s1.setLum l { x with grp := put0 x.grp g v, writes := x.writes ++ [(s.tickNo, g, v)] }

/-- The scene of one group write at the light tick of cycle `m` (R220); without luminaire frames neither kind is counted. -/
def State.lumScene (s : State) (l : Lane) (m : Nat) (w : Nat × Nat × Nat) : State :=
  let g := w.2.1
  if !s.lumMay l then s
  else if ((s.members g).filter (fun n => s.nodeIn l n dsLinked)).all (fun n => s.nodeValue l m n == w.2.2) then
    (s.lumCast l g (s.lumRequest l 0x0111 (beBytes 1 g ++ beBytes 1 0 ++ levelEntry w.2.2))).finc (lumG l g) LUM_GRP_CNT_MULTICAST
  else s.finc (lumG l g) LUM_GRP_CNT_UNICAST

/-- The light cycle and the hold time in force follow LUM_CTRL and the base cycle (R216); a changed hold time is sent to the nodes
(R215). -/
def State.lumForce (s : State) (l : Lane) : State :=
  let d := lightDiv (s.fget (laneKey l 0) LUM_CTRL_DIV) s.base
  let h := holdTime (s.fget (laneKey l 0) LUM_CTRL_HOLD) d s.base
  let s1 := (s.setLum l { s.lum l with div := d, hold := h }).fset (laneKey l 0) LUM_CYCLE (d * s.base)
  if h = (s.lum l).hold then s1
  else (List.range 256).foldl (fun s n => s.lumChanged l n) s1

/-- The body of the level frame of port `p` in cycle `m` (R210, R219). -/
def State.lumLevelBody (s : State) (l : Lane) (m p : Nat) : List Byte :=
  let c := s.accept l p
  beBytes 1 c ++ beBytes 3 0 ++ (List.range c).flatMap (fun k => levelEntry (s.nodeValue l m (4 * p + k)) ++ beBytes 2 0)

/-- A light tick on lane `l` in cycle `n` (R216–R219): scenes of the group writes in effect by the cycle's tick, then one level frame for each LINKED or
LOST port, whose reply the window awaits also where LUM_CTRL.EN sends none. -/
def State.lightTick (s : State) (l : Lane) (n : Nat) : State :=
  if s.lumLive l && n % (s.lum l).div == 0 then
    let s0 := s.fset (laneKey l 0) LUM_COUNT n
    let now (w : Nat × Nat × Nat) : Bool := (n + 0x100000000 - w.1) % 0x100000000 < 0x80000000
    let s1 := ((s0.lum l).writes.filter now).foldl (fun s w => s.lumScene l n w) s0
    let s2 := s1.setLum l { s1.lum l with writes := (s1.lum l).writes.filter (fun w => !now w), sent := [] }
    let s3 := s2.forPorts (fun s p =>
      let d := s.dstate l p
      if s.lumLane p == some l && (d == dsLinked || d == dsLost) then
        let s1 := s.lumSend l p (s.lumRequest l 0x0110 (s.lumLevelBody l n p))
        s1.setLum l { s1.lum l with sent := put0 (s1.lum l).sent p (s.accept l p) }
      else if (d == dsLinked || d == dsLost) && s.fbit (laneKey l 0) LUM_CTRL_EN && s.hadGrant l n (s.portOwner p) then s.grantReject l (s.portOwner p)
      else s)
    s3.lumForce l
  else s

/-- The levels commanded by tick `n` are kept for its cycle (R219). -/
def State.lumNote (s : State) (l : Lane) (n : Nat) : State :=
  let x := s.lum l
  s.setLum l { x with levels := ((n, x.cmd) :: x.levels).take 8 }

/-- A temperature of 0.1 °C per unit in whole °C, rounded toward zero (R223); a free value where eight bits do not hold it. -/
def State.wholeDeg (s : State) (t : Nat) : Nat × State :=
  let v := (toSigned 16 t).tdiv 10
  if -128 ≤ v ∧ v ≤ 127 then (ofSigned 8 v, s) else (s.free.1.toNat % 256, s.free.2)

/-- Latch one node's status (R223, R238). -/
def State.lumLatchNode (s : State) (l : Lane) (n : Nat) (e : LumStatus) : State :=
  let t := s.wholeDeg e.temp.toNat
  ((((t.2.fset (lumN l n) LUM_NODE_STAT_ACTUAL e.actual.toNat).fset (lumN l n) LUM_NODE_STAT_FLAGS e.flags.toNat).fset (lumN l n)
    LUM_NODE_SENS_LUX e.lux.toNat).fset (lumN l n) LUM_NODE_SENS_POWER e.power.toNat).fset (lumN l n) LUM_NODE_CFG_TEMP t.1

/-- The replies received by the close of the window are latched together, with LINK, at the first cycle tick after it (R217,
R223). -/
def State.lumLatch (s : State) (l : Lane) : State :=
  if (s.lum l).shut then
    let s1 := (s.lum l).got.foldl (fun s g =>
      (List.range g.2.length).foldl (fun s k => match g.2[k]? with
        | some e => s.lumLatchNode l (4 * g.1 + k) e
        | none => s) s) s
    let t := (List.range 256).foldl (fun t n => put0 t n (if s1.nodeIn l n dsLinked then 1 else 0)) []
    s1.setLum l { s1.lum l with shut := false, got := [], link := t }
  else s

/-- What a LUM_NODE handle reads (R223). -/
def State.nodeRead (s : State) (l : Lane) (n : Nat) : Nat :=
  let f := s.fget (lumN l n) LUM_NODE_STAT_FLAGS
  let b (i o : Nat) : Nat := if f.testBit i then 2 ^ o else 0
  s.fget (lumN l n) LUM_NODE_STAT_ACTUAL * 2 ^ 48 + s.fget (lumN l n) LUM_NODE_SENS_LUX * 2 ^ 32 +
    s.fget (lumN l n) LUM_NODE_SENS_POWER * 2 ^ 16 + s.fget (lumN l n) LUM_NODE_CFG_TEMP * 2 ^ 8 +
    (if nat0 (s.lum l).link n = 1 then 128 else 0) + b 14 6 + b 13 5 + b 12 4 + b 11 3 + b 15 2

/-- How many members of group `g` are LINKED. -/
def State.groupLinked (s : State) (l : Lane) (g : Nat) : Nat :=
  ((s.members g).filter (fun n => s.nodeIn l n dsLinked)).length

/-- What a LUM_GROUP handle reads (R224). -/
def State.groupRead (s : State) (l : Lane) (g : Nat) : Nat :=
  let v := nat0 (s.lum l).grp g
  v % 0x10000 * 2 ^ 48 + v / 0x10000 % 0x10000 * 2 ^ 32 + (s.members g).length * 2 ^ 16 + s.groupLinked l g

/-- The other lane takes over the device state of port `p` (R222). -/
def State.lumMove (s : State) (p : Nat) (src dst : Lane) : State :=
  let keys := (List.range 4).map (fun i => 0x1B0100 + 0x10 * p + 4 * i) ++
    (List.range 16).map (fun i => 0x1B0800 + 0x40 * p + 4 * i)
  let s1 := keys.foldl (fun s a => s.wr (laneKey dst a) (s.rd (laneKey src a))) s
  let x := s1.lum src
  let y := s1.lum dst
  let cmds (t : Tab Nat) : Tab Nat := (List.range 4).foldl (fun t k => put0 t (4 * p + k) (nat0 x.cmd (4 * p + k))) t
  let z : LumSt := { y with todo := put0 y.todo p (nat0 x.todo p), miss := put0 y.miss p (nat0 x.miss p), cmd := cmds y.cmd, levels := y.levels.map (fun h => (h.1, cmds h.2)), link := (List.range 4).foldl (fun t k => put0 t (4 * p + k) (nat0 x.link (4 * p + k))) y.link }
  s1.setLum dst z

/-- A port changes owner (R222): its nodes leave the groups of other galleries, and LINKED nodes are sent the reduced
list. -/
def State.lumOwner (s : State) (p : Nat) : State :=
  (List.range 4).foldl (fun s k =>
    let n := 4 * p + k
    let gs := s.groupsOf n
    let keep := gs.filter (fun g => s.grpOwner g == s.portOwner p)
    if keep.length = gs.length then s
    else
      let s1 : State := { s with nodeGroups := tabSet (fun _ => []) s.nodeGroups n keep }
      match s1.lumLane p with
      | some l => s1.lumChanged l n
      | none => s1) s

/-- Every device state of lane `l` begins at NONE, and ports that are ON and linked wait for a HELLO (R236). -/
def State.lumStart (s : State) (l : Lane) : State :=
  s.forPorts (fun s p => (((s.setDstate l p dsNone).fset (lumP l p) LUM_PORT_STATE_ACCEPT 0).lumForget l p).lumArrive p)

end Sys2Proof.Machine
end

