-- ==== Sys2Proof/Machine/PortOps.lean ====
section
/-! DEFINITION. Port power: classes, the voltage to run at, removals and entries to the states (chapter "Port power
delivery"). -/

namespace Sys2Proof.Machine
open Sys2Proof

/-! ### Classes (R147, R148) -/

/-- PSE power of a class, mW. -/
def classPower (dual : Bool) (c : Nat) : Nat :=
  match c with
  | 1 => 4000
  | 2 => 7000
  | 4 => 30000
  | 5 => 45000
  | 6 => if dual then 15400 else 60000
  | 7 => if dual then 15400 else 75000
  | 8 => if dual then 15400 else 90000
  | _ => 15400

/-- PD power of a class, mW (R147). -/
def classPd (dual : Bool) (c : Nat) : Nat :=
  match c with
  | 1 => 3840
  | 2 => 6490
  | 4 => 25500
  | 5 => if dual then 35600 else 40000
  | 6 => if dual then 13000 else 51000
  | 7 => if dual then 13000 else 62000
  | 8 => if dual then 13000 else 71300
  | _ => 13000

/-- The current limit ILIM of a class, mA for each pair-set (R147). -/
def classIlim (dual : Bool) (c : Nat) : Nat :=
  match c with
  | 4 => if dual then 700 else 400
  | 5 => if dual then 1050 else 700
  | 6 => if dual then 400 else 700
  | 7 | 8 => if dual then 400 else 1050
  | _ => 400

/-- The class minimum, mW (R182). -/
def classFloor (dual : Bool) (c : Nat) : Nat :=
  if dual then (if c = 4 then 15400 else if c = 5 then 30000 else classPower true c)
  else if c = 4 then 15400 else if c = 5 ∨ c = 6 then 30000 else if c = 7 ∨ c = 8 then 45000 else classPower false c

/-- CLASS_MAX as the sequencer takes it (R148, R177). -/
def classMax (m : Nat) : Nat := if m < 3 then 3 else if m > 8 then 8 else m

/-- The class granted to a requested class (R148). -/
def classGranted (dual : Bool) (m c : Nat) : Nat :=
  if c ≤ 3 ∨ c ≤ classMax m then c
  else if dual then 3
  else if classMax m = 3 then 3 else 4

/-- Is a decoded class one that the signature can have (R147)? -/
def classValid (dual : Bool) (c : Nat) : Bool := if dual then 1 ≤ c && c ≤ 5 else decide (c ≤ 8)

/-- The class of a pair-set: `CLASS`, or `CLASS_B` for pair-set B of a dual-signature port. -/
def State.cls (s : State) (p : Nat) (ps : PairSet) : Nat :=
  if s.dual p && ps == .b then s.fget (portB p) PORT_STATUS_CLASS_B else s.fget (portB p) PORT_STATUS_CLASS

/-- A sum over the pair-sets of a port for which `f` holds; a port that is not dual-signature counts once. -/
def State.psSum (s : State) (p : Nat) (f : PairSet → Bool) (v : PairSet → Nat) : Nat :=
  if s.dual p then (if f .a then v .a else 0) + (if f .b then v .b else 0)
  else if f .a || f .b then v .a else 0

/-! ### The voltage to run at (R51, R141, R167, R168) -/

/-- The ceiling code for a bus voltage of `mv` (R51). -/
def ceilCode (mv : Nat) : Nat := min ((mv - 50400) / 25) 280

/-- A present bus's voltage. -/
def State.busMv (s : State) : Bus → Nat
  | .a => s.fget 0 ALLOC_BUS_A_VOLTAGE
  | .b => s.fget 0 ALLOC_BUS_B_VOLTAGE

def State.busPresent (s : State) : Bus → Bool
  | .a => s.fbit 0 ALLOC_ENTRY_STATUS_A_PRESENT
  | .b => s.fbit 0 ALLOC_ENTRY_STATUS_B_PRESENT

/-- The limits of R141 and R51 on a code: 280, 52.000 V at least for a port powered at class 7 or 8, and the ceiling on top. -/
def State.codeLimit (s : State) (p c : Nat) : Nat :=
  let c1 := min c 280
  let c2 := if s.powered p && !s.dual p && s.cls p .a ≥ 7 && c1 < 80 then 80 else c1
  min c2 s.alloc.ceil

/-- What a pair-set asks for: a dual-signature port's by pair-set, otherwise the port's. -/
def PortX.claim (x : PortX) : PairSet → Nat
  | .a => x.claimA
  | .b => x.claimB

/-- The claim of the pair-sets that are in state `st` (R182, R186). -/
def State.askOf (s : State) (p st : Nat) : Nat := s.psSum p (fun q => s.pst p q == st) (fun q => (s.portX p).claim q)

/-- Does the port run at the CABLE target (R167)? -/
def State.cableRun (s : State) (p : Nat) : Bool := s.fbit (portB p) PORT_CTRL_VMODE && (s.portX p).valid

/-- The trim in force: none in FIXED mode, with BALANCE_EN 0, on a dual-signature port or before a valid measurement
(R168). -/
def State.trims (s : State) (p : Nat) : Nat × Nat :=
  if s.cableRun p && s.fbit (portB p) PORT_CTRL_BALANCE_EN && !s.dual p then ((s.portX p).trimA, (s.portX p).trimB) else (0, 0)

/-- The code the higher pair-set is moved to. -/
def State.goal (s : State) (p : Nat) : Nat :=
  s.codeLimit p (if s.cableRun p then s.fget (portB p) PORT_VOUT_V_TARGET else s.fget (portB p) PORT_VSET)

/-- The code pair-set `q` is moved to with trim `t` (R141, R151, R168): in INRUSH toward VSET, otherwise toward the port's code; the limits
apply to the code with its trim. 0 when it is not powered. -/
def State.goalOf (s : State) (p : Nat) (q : PairSet) (t : Nat) : Nat :=
  if s.pst p q == stInrush then s.codeLimit p (s.fget (portB p) PORT_VSET)
  else if s.pst p q == stOn then s.codeLimit p (s.goal p - t)
  else 0

/-- The codes the pair-sets are moved to. -/
def State.goals (s : State) (p : Nat) : Nat × Nat :=
  let t := s.trims p
  (s.goalOf p .a t.1, s.goalOf p .b t.2)

/-- Is a powered pair-set at its ILIM (R154, R159)? Its mean current has reached it; for classes 7 and 8 the weir's clamp counts too. -/
def State.atIlim (s : State) (p : Nat) (q : PairSet) : Bool :=
  let i := match q with
    | .a => s.fget (portB p) PORT_PS_A_CURRENT
    | .b => s.fget (portB p) PORT_PS_B_CURRENT
  let clamp := match q with
    | .a => (s.portX p).clampA
    | .b => (s.portX p).clampB
  s.psPowered p q && (decide (classIlim (s.dual p) (s.cls p q) ≤ i) || (clamp && !s.dual p && decide (7 ≤ s.cls p q)))

/-- `PORT_STATUS.LIMIT` (R154). -/
def State.showLimit (s : State) (p : Nat) : State := s.fsetB (portB p) PORT_STATUS_LIMIT (s.atIlim p .a || s.atIlim p .b)

/-- Show the codes in force and the trim (`PORT_VOUT.V_NOW`, `PORT_TRIM`, TRIM_SAT). -/
def State.showV (s : State) (p : Nat) : State :=
  let x := s.portX p
  let t := s.trims p
  let s1 := s.fset (portB p) PORT_VOUT_V_NOW (max x.nowA x.nowB)
  ((s1.fset (portB p) PORT_TRIM_TRIM_A (256 - t.1)).fset (portB p) PORT_TRIM_TRIM_B (256 - t.2)).fsetB (portB p)
    PORT_STATUS_TRIM_SAT (x.trimSat && (t.1 != 0 || t.2 != 0))

/-- The CABLE-mode target is computed afresh (R167): the highest code not above 280, VMAX and the ceiling. -/
def State.retarget (s : State) (p : Nat) : State :=
  if s.fbit (portB p) PORT_CTRL_VMODE then
    s.fset (portB p) PORT_VOUT_V_TARGET (min (min 280 (s.fget (portB p) PORT_VSET_VMAX)) s.alloc.ceil)
  else s

/-- One ramp step of at most one code toward `g` (R169). -/
def rampStep (v g : Nat) : Nat := if v < g then v + 1 else if g < v then v - 1 else v

/-- The ceiling of R51 is judged afresh: kept while no bus is present; each CABLE target follows, and a fall takes effect
without the ramp except during a measurement step (R169, R176). -/
def State.ceiling (s : State) : State :=
  let v := match s.busPresent .a, s.busPresent .b with
    | true, true => some (min (s.busMv .a) (s.busMv .b))
    | true, false => some (s.busMv .a)
    | false, true => some (s.busMv .b)
    | false, false => none
  match v with
  | none => s
  | some mv =>
    let c := ceilCode mv
    if c = s.alloc.ceil then s
    else
      let s1 : State := { s with alloc := { s.alloc with ceil := c } }
      s1.forPorts (fun s p =>
        let s2 := s.retarget p
        let x := s2.portX p
        if s2.powered p && !x.measuring then (s2.setPortX p { x with nowA := min x.nowA c, nowB := min x.nowB c }).showV p
        else s2)

/-! ### Microcode and entries to DETECT (R143, R173) -/

/-- A port adopts the staged microcode, unless one of its pair-sets is powered (R173). -/
def State.adopt (s : State) (p : Nat) : State :=
  let v := s.fget (portB p) PORT_MCODE_STAGED
  if v = 0 || s.powered p then s else s.fset (portB p) PORT_MCODE_IN_USE v

/-- Enter DETECT: RESTART reads 0 again and the earlier pass is forgotten. A pair-set left at 0 V is detected again with the
other. -/
def State.toDetect (s : State) (p : Nat) (ps : PairSet) : State :=
  let s0 := s.adopt p
  let other := match ps with
    | .a => PairSet.b
    | .b => PairSet.a
  let s1 := if s0.pst p other == stOff then s0.setBoth p stDetect else s0.setPst p ps stDetect
  let x := s1.portX p
  (s1.setPortX p { x with sigA := false, sigB := false, asked := none, granted := false }).fset (portB p) PORT_CMD_RESTART 0

/-- OFF is left when EN and REQ are 1, configuration and microcode are loaded and the module is not in SAFE (R143, R37). -/
def State.portStart (s : State) (p : Nat) : State :=
  if s.pst p .a == stOff && s.pst p .b == stOff && s.fbit (portB p) PORT_CTRL_EN && s.fbit (portB p) PORT_STATUS_REQ &&
      s.alloc.config && s.fget (portB p) PORT_MCODE_STAGED != 0 && s.mode != .safe && s.seqRuns then
    let s2 := s.setBoth p stDetect
    s2.setPortX p { s2.portX p with sigA := false, sigB := false, asked := none, granted := false }
  else s

/-! ### Removals (R156–R158, R163) -/

/-- The number of port Pnn's event `k` (R179). -/
def portEv (p k : Nat) : Nat := 64 + 4 * p + k

/-- Is the reason a counted fault (R158)? -/
def countedReason (r : Nat) : Bool := [3, 4, 5, 6, 8, 9, 10].contains r

/-- Set REASON and the matching bit of PORT_FAULT (R158). -/
def State.reason (s : State) (p r : Nat) : State :=
  let s1 := s.fset (portB p) PORT_STATUS_REASON r
  if 2 ≤ r then s1.fset (portB p) PORT_FAULT_SEEN (s1.fget (portB p) PORT_FAULT_SEEN ||| 2 ^ (r - 2)) else s1

/-- The port's fault event (R158, R179), with the states and power as they stand now. -/
def State.faultEvent (s : State) (p r : Nat) : State :=
  if 2 ≤ r ∧ r ≤ 10 then
    s.event (portEv p 0) (s.portOwner p) (r != 2) (r * 0x1000000 + s.pst p .a * 0x100000 + s.pst p .b * 0x10000 +
      min (s.fget (portB p) PORT_POWER / 100) 0xFFFF)
  else s

/-- Count a fault (R157): the fifth within 60 s asks for LOCKOUT. -/
def State.countFault (s : State) (p : Nat) : State :=
  let x := s.portX p
  (s.setPortX p { x with faults := s.now :: x.faults.filter (fun t => s.now < t + 60000000000) }).finc (portB p) PORT_FAULT_CNT_TOTAL

/-- Counted faults in the last 60 s (`PORT_FAULT_CNT.RECENT`). -/
def State.recentFaults (s : State) (p : Nat) : Nat := ((s.portX p).faults.filter (fun t => s.now < t + 60000000000)).length

/-- The weir's fault event ends (R160, R163): the energy is shown, and the weir-trip event is raised after a weir removal
(`trip` 1–3) or above 0.10 J. -/
def State.weirEnd (s : State) (p trip : Nat) : State :=
  let x := s.portX p
  let mj := min (x.energy / 1000) 0xFFFF
  let s1 := s.setPortX p { x with faultEvent := false, clampA := false, clampB := false, energy := 0 }
  let s2 := (if x.faultEvent then s1.fset (portB p) PORT_WEIR_LAST_ENERGY mj else s1).fset (portB p) PORT_STATUS_WEIR_LIMIT 0
  if trip ≠ 0 ∨ (x.faultEvent ∧ x.energy > 100000) then
    s2.event (portEv p 2) (s2.portOwner p) true (trip * 0x1000000 + mj)
  else s2

/-- What a pair-set (or the port) loses when its power goes: the codes in force, and, once nothing of the port is powered,
its grant, its measurement, its luminaire and a rate change under way (R263). It is not powered again for 1.0 s (R156). `st` is the state it
enters. -/
def State.depower (s : State) (p : Nat) (ps : PairSet) (st trip : Nat) : State :=
  let wasOn := s.portOn p
  let x := s.portX p
  let us := s.units p ps
  let t := s.now + 1000000000
  let cut (q : PairSet) : Bool := us.contains q && s.psPowered p q
  let s1 := (s.setPortX p { x with nowA := if us.contains .a then 0 else x.nowA, nowB := if us.contains .b then 0 else x.nowB, holdOffA := if cut .a then t else x.holdOffA, holdOffB := if cut .b then t else x.holdOffB }).setPst p ps st
  let s2 := if s1.powered p then s1
    else
      let y := s1.portX p
      let s3 := s1.setPortX p { y with valid := false, measuring := false, measDue := false, granted := false, peaks := [], autoReq := false, trimA := 0, trimB := 0, trimSat := false }
      let s4 := ((((s3.fset (portB p) PORT_GRANT 0).fset (portB p) PORT_CMD_REMEASURE 0).fset (portB p) PORT_STATUS_MPS_OK 0).fset (portB p)
        PORT_STATUS_LIMIT 0).fset (portB p) PORT_PD_END_CABLE_LOSS 0 |>.fset (portB p) PORT_PD_END_VPD 0
      s4.weirEnd p trip
  let s5 := (s2.showV p).showLimit p
  if wasOn && !s5.portOn p then (s5.lumNone p).rateAbandon p else s5

/-- A removal for a fault or for MPS loss (R143, R156–R158): the reason, the fault event, the count, and BACKOFF, or LOCKOUT at
the fifth counted fault within 60 s. -/
def State.removeFault (s : State) (p : Nat) (ps : PairSet) (r trip : Nat) : State :=
  let s1 := (s.faultEvent p r).reason p r
  let s2 := if countedReason r then s1.countFault p else s1
  let lock := countedReason r && s2.fbit (portB p) PORT_CTRL_LOCKOUT_EN && decide (s2.recentFaults p ≥ 5)
  let x := s2.portX p
  let us := s2.units p ps
  let s3 := s2.setPortX p { x with holdOffA := if us.contains .a then s2.now + 1000000000 else x.holdOffA, holdOffB := if us.contains .b then s2.now + 1000000000 else x.holdOffB, asked := none, removedAt := some s2.now }
  let s4 := s3.depower p ps (if lock then stLockout else stBackoff) trip
  if lock then s4.adopt p else s4

/-- A removal by the weir (R160–R163): both pair-sets open, or one; the weir refuses the port for 1.0 s, and its removal is
counted. `code` is [31:24] of the weir-trip event. -/
def State.removeWeir (s : State) (p : Nat) (pss : List PairSet) (r code : Nat) : State :=
  let s1 := (s.faultEvent p r).reason p r
  let s2 := (s1.countFault p).finc (portB p) PORT_WEIR_TRIPS
  let lock := s2.fbit (portB p) PORT_CTRL_LOCKOUT_EN && decide (s2.recentFaults p ≥ 5)
  let x := s2.portX p
  let t := s2.now + 1000000000
  let s3 := s2.setPortX p { x with holdOffA := if pss.contains .a then t else x.holdOffA, holdOffB := if pss.contains .b then t else x.holdOffB, asked := none, refused := true, removedAt := some s2.now }
  let alive := (s3.units p .a ++ s3.units p .b).any (fun q => s3.psPowered p q && !(pss.flatMap (s3.units p)).contains q)
  let s4 := pss.foldl (fun s q => if s.psPowered p q then s.depower p q (if lock then stLockout else stBackoff) code else s) s3
  let s5 := if alive then s4.event (portEv p 2) (s4.portOwner p) true (code * 0x1000000 + min ((s4.portX p).energy / 1000) 0xFFFF)
    else s4
  if lock then s5.adopt p else s5

/-- The allocator sheds a port (R143, R184, R197): SHED with REASON SHED, no fault counted, no port event. The claim it comes back with is that
of the pair-sets that were powered. -/
def State.shedPort (s : State) (p : Nat) : State :=
  let st := s.pst p .a
  if (st == stOff && s.pst p .b == stOff) || st == stSafeOff then s
  else
    let y := s.portX p
    let s0 := if s.powered p then s.setPortX p { y with claimA := if s.psPowered p .a then y.claimA else 0, claimB := if s.psPowered p .b then y.claimB else 0 } else s
    let s1 := s0.reason p 11
    let s2 := if s1.dual p then (s1.depower p .a stShed 0).depower p .b stShed 0 else s1.depower p .a stShed 0
    let x := s2.portX p
    (s2.setPortX p { x with asked := none, granted := false, wasShed := true, queuedAt := s2.now, earmark := none }).adopt p

/-- Switch a port OFF: EN or REQ has become 0 (R143); REASON ADMIN if it was powered. -/
def State.adminOff (s : State) (p : Nat) : State :=
  if s.pst p .a == stSafeOff || (s.pst p .a == stOff && s.pst p .b == stOff) then s
  else
    let s1 := if s.powered p then s.reason p 1 else s
    let s2 := (s1.depower p .a stOff 0).depower p .b stOff 0
    let x := s2.portX p
    ((s2.setPortX p { x with asked := none, granted := false, earmark := none, wasShed := false }).fset (portB p) PORT_CMD_RESTART 0).adopt p

/-- EN or REQ has changed: the port goes OFF, or leaves OFF. -/
def State.portEnable (s : State) (p : Nat) : State :=
  if s.fbit (portB p) PORT_CTRL_EN && s.fbit (portB p) PORT_STATUS_REQ then s.portStart p else s.adminOff p

/-- A PORT_STATE point takes a value (R174, R175). -/
def State.portRequest (s : State) (p : Nat) (on : Bool) : State := (s.fsetB (portB p) PORT_STATUS_REQ on).portEnable p

/-- The module enters SAFE: a port with SAFE_OFF 1 goes to SAFE_OFF (R143). -/
def State.portSafe (s : State) (p : Nat) : State :=
  if s.fbit (portB p) PORT_CTRL_SAFE_OFF && !(s.pst p .a == stOff && s.pst p .b == stOff) then
    let s1 := if s.powered p then s.reason p 12 else s
    let s2 := (s1.depower p .a stSafeOff 0).depower p .b stSafeOff 0
    let x := s2.portX p
    s2.setPortX p { x with asked := none, granted := false, earmark := none }
  else s

/-- A measurement under way or due is counted as skipped (R164, R176). -/
def State.measSkip (s : State) (p : Nat) : State :=
  ((s.setPortX p { s.portX p with measuring := false, measDue := false }).finc (portB p) PORT_MEAS_SKIPPED).fset (portB p) PORT_CMD_REMEASURE 0

/-- No ramp is under way: each powered pair-set is at its code (R169). -/
def State.ramped (s : State) (p : Nat) : Bool :=
  let g := s.goals p
  (s.portX p).nowA == g.1 && (s.portX p).nowB == g.2

/-- A measurement falls due (R164): it starts when every condition holds, and is otherwise counted as skipped. -/
def State.measDue (s : State) (p : Nat) : State :=
  let b := portB p
  if s.portOn p && decide (s.fget b PORT_POWER - s.fget b PORT_PD_END_CABLE_LOSS ≥ 5000) && !s.fbit b PORT_STATUS_LIMIT &&
      !s.fbit b PORT_STATUS_WEIR_LIMIT && decide (100 * s.fget b PORT_POWER < 95 * s.fget b PORT_GRANT) &&
      !s.fbit 0 ALLOC_ENTRY_STATUS_PFW then
    -- it starts at once, or when the ramp under way has ended (R169)
    (if s.ramped p then s.setPortX p { s.portX p with measuring := true } else s.setPortX p { s.portX p with measDue := true })
  else s.measSkip p

/-- Seconds since the last valid measurement (`PORT_MEAS.AGE`). -/
def State.measAge (s : State) (p : Nat) : Nat :=
  match (s.portX p).measAt with
  | none => 0xFFFFFF
  | some t => min ((s.now - t) / 1000000000) 0xFFFFFE

/-- A write of 1 to RESTART (R176, R177): ignored unless the port is in LOCKOUT, PENDING or BACKOFF; in BACKOFF detection
starts at the end of the 1.0 s; in SAFE the port stays where it is. -/
def State.portRestart (s : State) (p : Nat) : State :=
  let inAny (q : PairSet) : Bool := s.pst p q == stLockout || s.pst p q == stPending || s.pst p q == stBackoff
  if !(inAny .a || inAny .b) then s.fset (portB p) PORT_CMD_RESTART 0
  else
    let s1 := s.fset (portB p) PORT_CMD_RESTART 1
    if s.mode = .safe then s1
    else [PairSet.a, PairSet.b].foldl (fun s q =>
      if s.pst p q == stLockout || s.pst p q == stPending then s.toDetect p q else s) s1

/-- A write of PORT_CTRL or PORT_VSET has reached the sequencer (R176, R178). -/
def State.portCtrlChanged (s : State) (p : Nat) : State := ((s.retarget p).portEnable p).showV p

end Sys2Proof.Machine
end

