-- ==== Sys2Proof/Machine/AllocOps.lean ====
section
/-! DEFINITION. The allocator, the sluice and the power-fail steps on ports (chapter "Power budget, sluice and power
failure"), and the power entry (R46–R54, R70, R71). -/

namespace Sys2Proof.Machine
open Sys2Proof

/-- Set or clear a cause of DEGRADED that another chapter names (R438): 1 grants without the reserve (R196), 2 the sluice
failed (R195). -/
def State.setDeg (s : State) (k : Nat) (on : Bool) : State :=
  let rest := s.hg.degOther.filter (fun c => c != k)
  { s with hg := { s.hg with degOther := if on then rest ++ [k] else rest } }

/-! ### The sluice (R190–R196) -/

/-- Energy of the bank at `v` mV with `c` mF, nJ. -/
def bankEnergy (c v : Nat) : Nat := c * v * v / 2

/-- The integer square root of a number below 2^128. -/
def isqrt (n : Nat) : Nat := sqrtBits n 64 0

/-- V_RESERVE in mV, rounded up, for `c` mF (R192). -/
def vReserve (c : Nat) : Nat :=
  let x := 16200 * 16200 + (900000000000 + c - 1) / c
  let r := isqrt x
  if c = 0 then 0xFFFF else min (if r * r = x then r else r + 1) 0xFFFF

/-- E_peak in nJ at `v` mV (R192). -/
def State.ePeakAt (s : State) (v : Nat) : Nat :=
  let c := s.fget 0 SLU_CAP_C
  bankEnergy c v - bankEnergy c (s.fget 0 SLU_LEVELS_V_RESERVE)

def State.ePeak (s : State) : Nat := s.ePeakAt (s.fget 0 SLU_BANK_VOLTAGE)

def State.ePeakMax (s : State) : Nat := s.ePeakAt (s.fget 0 SLU_LEVELS_V_MAX)

/-- `SLU_ENERGY` (R192). -/
def State.sluEnergy (s : State) : State :=
  let c := s.fget 0 SLU_CAP_C
  (s.fsat 0 SLU_ENERGY_PEAK (s.ePeak / 1000000000)).fsat 0 SLU_ENERGY_STORED
    ((bankEnergy c (s.fget 0 SLU_BANK_VOLTAGE) - bankEnergy c 16200) / 1000000000)

/-- Event 48 carries `SLU_STATUS` [7:0] (R206). -/
def State.sluFault (s : State) : State := s.event 48 0 true ((s.rd 0x90180).toNat % 256)

/-- FAILED sets when C falls below 2.00 F or V_MAX below V_RESERVE + 4.0 V (R195). -/
def State.sluJudge (s : State) : State :=
  if (s.fget 0 SLU_CAP_C < 2000 ∨ s.fget 0 SLU_LEVELS_V_MAX < s.fget 0 SLU_LEVELS_V_RESERVE + 4000) ∧
      s.fbit 0 SLU_STATUS_FAILED = false then
    ((s.fset 0 SLU_STATUS_FAILED 1).setDeg 2 true).sluFault
  else s

/-- PORTPWR is released (R34, R36): the sluice is judged with the capacitance kept (R194, R195). -/
def State.portpwrUp (s : State) : State := (s.setInReset 1 false).sluJudge

/-- V_MAX as R195 sets it. -/
def State.sluVmax (s : State) : State :=
  let v := if s.alloc.hot then 30000 else 32400
  s.fset 0 SLU_LEVELS_V_MAX (match s.alloc.cellVmax with
    | some m => min v m
    | none => v)

/-! ### Input capacity, claims and reservations (R180–R183) -/

/-- B_in in mW (R180). -/
def State.bIn (s : State) : Nat :=
  min 7500000 ((if s.busPresent .a then s.busMv .a * 625 / 10 else 0) + (if s.busPresent .b then s.busMv .b * 625 / 10 else 0))

/-- B_ports in mW (R180). -/
def State.bPorts (s : State) : Nat :=
  min (min (s.fget 0 ALLOC_LIMIT) 5760000 * s.fget 0 ALLOC_THERM_DERATE_PERCENT / 100) (s.bIn - 220000)

/-- A powered port's claim in mW (R182). -/
def State.claimOf (s : State) (p : Nat) : Nat :=
  if !s.dual p && s.fbit (portB p) PORT_STATUS_AUTOCLASS then s.fget (portB p) PORT_AUTOCLASS
  else s.psSum p (s.psPowered p) (fun q => classPower (s.dual p) (s.cls p q))

/-- The class minimum in mW (R182). -/
def State.floorOf (s : State) (p : Nat) : Nat := s.psSum p (s.psPowered p) (fun q => classFloor (s.dual p) (s.cls p q))

/-- The highest 1 ms mean over the last 10 s (R183). -/
def State.peak10 (s : State) (p : Nat) : Nat :=
  (((s.portX p).peaks.filter (fun e => s.now < e.1 + 10000000000)).map (fun e => e.2)).foldl max 0

/-- Keep a 1 ms mean, with the earlier ones that are larger and not older than 10 s. -/
def keepPeaks (now w : Nat) (l : List (Nat × Nat)) : List (Nat × Nat) :=
  (now, w) :: l.filter (fun e => decide (now < e.1 + 10000000000) && decide (w < e.2))

/-- A powered port's reservation in mW (R183). -/
def State.reservation (s : State) (p : Nat) : Nat :=
  let c := s.claimOf p
  let x := s.portX p
  if s.fbit 0 ALLOC_CTRL_POLICY && s.portOn p && decide (s.now ≥ x.onAt + 10000000000) then
    let f := s.floorOf p
    if s.fbit (portB p) PORT_STATUS_AUTOCLASS && decide (c < f) then c else min c (max f (110 * s.peak10 p / 100))
  else c

/-- Does the port hold budget: powered, or granted and about to be? -/
def State.holdsBudget (s : State) (p : Nat) : Bool := s.powered p || (s.portX p).granted

/-- What a port takes of the budget: its reservation, or the claim just granted. -/
def State.budgetOf (s : State) (p : Nat) : Nat :=
  (if s.powered p then s.reservation p else 0) + (if (s.portX p).granted then s.askOf p stClassify else 0)

/-- A port's measured draw. -/
def State.drawOf (s : State) (p : Nat) : Nat := if s.powered p then s.fget (portB p) PORT_POWER else 0

/-- A sum over the 64 ports. -/
def portSum (f : Nat → Nat) : Nat := ((List.range 64).map f).foldl (fun a b => a + b) 0

/-! ### Shed and grant order (R185–R187) -/

/-- Insert port `p` into a list ordered by `before`. -/
def orderInsert (before : Nat → Nat → Bool) (p : Nat) : List Nat → List Nat
  | [] => [p]
  | q :: qs => if before p q then p :: q :: qs else q :: orderInsert before p qs

/-- The ports of a list in the order `before`. -/
def orderPorts (before : Nat → Nat → Bool) (l : List Nat) : List Nat := l.foldl (fun a p => orderInsert before p a) []

def State.prio (s : State) (p : Nat) : Nat := s.fget (portB p) PORT_CTRL_PRIO

/-- Shed order: priority 0 first, and within one priority the port powered most recently first (R185). -/
def State.shedBefore (s : State) (p q : Nat) : Bool :=
  s.prio p < s.prio q || (s.prio p == s.prio q && decide ((s.portX p).t4 > (s.portX q).t4))

/-- Grant order among ports with an instant each: highest priority first, then the earliest (R186). -/
def State.grantBefore (s : State) (at_ : Nat → Nat) (p q : Nat) : Bool :=
  s.prio q < s.prio p || (s.prio p == s.prio q && decide (at_ p < at_ q))

/-- The powered ports in shed order. -/
def State.shedList (s : State) : List Nat := orderPorts s.shedBefore ((List.range 64).filter s.powered)

/-- Shed ports in order until R ≤ B and D ≤ 0.95 B (R184); how many is in `SHED_CNT` and the answer. -/
def shedLoop (b : Nat) : List Nat → Nat → Nat → State → Nat → State × Nat
  | [], _, _, s, k => (s, k)
  | p :: ps, r, d, s, k =>
    if r ≤ b ∧ 100 * d ≤ 95 * b then (s, k)
    else shedLoop b ps (r - s.budgetOf p) (d - s.drawOf p) (s.shedPort p) (k + 1)

/-- Ports are shed outside PFW (R184, R206), for cause 1 DIP_RIDE, 2 E_peak low, 3 converter limit; the dip ends. -/
def State.allocShed (s : State) (cause : Nat) : State :=
  let r := shedLoop (s.fget 0 ALLOC_B_PORTS) s.shedList (s.fget 0 ALLOC_RESERVED) (s.fget 0 ALLOC_DRAW) s 0
  let s1 : State := { r.1 with alloc := { r.1.alloc with restoreAt := r.1.now + 5000000000 } }
  let s2 := ((s1.fset 0 ALLOC_STATUS_DIP 0).fadd 0 ALLOC_SHED_CNT r.2).fsetB 0 ALLOC_STATUS_SHED_LAST (r.2 != 0)
  if r.2 = 0 then s2
  else
    let s3 : State := { s2 with alloc := { s2.alloc with restored := 0 } }
    s3.event 43 0 true (cause * 0x1000000 + r.2)

/-- May the allocator grant at all: RESERVE_OK, or the start-up of R196? -/
def State.mayGrant (s : State) : Bool := s.fbit 0 SLU_STATUS_RESERVE_OK || s.alloc.noReserve

/-- No grants (`ALLOC_STATUS.GRANT_HOLD`). -/
def State.grantHold (s : State) : Bool :=
  s.fbit 0 ALLOC_STATUS_DIP || s.fbit 0 ALLOC_ENTRY_STATUS_PFW || !s.mayGrant

/-- Has the wait of R186 for shed ports passed or been waived? -/
def State.restoreOk (s : State) : Bool := s.alloc.waived || decide (s.now ≥ s.alloc.restoreAt)

/-- May the port be powered again: 1.0 s has passed since its removal (R156) and the weir does not refuse it (R160)? -/
def State.holdOver (s : State) (p : Nat) : Bool :=
  let x := s.portX p
  decide (s.now ≥ x.holdOffA) && decide (s.now ≥ x.holdOffB) && !x.refused

/-- A request is granted (R186): the claim is reserved; when the last shed port is granted again event 44 is raised. -/
def State.allocGrant (s : State) (p : Nat) : State :=
  let x := s.portX p
  let s1 := (s.setPortX p { x with granted := true, asked := none, earmark := none, wasShed := false }).fset (portB p) PORT_GRANT
    (s.askOf p stClassify + (if s.powered p then s.claimOf p else 0))
  if x.wasShed then
    let s2 : State := { s1 with alloc := { s1.alloc with restored := s1.alloc.restored + 1 } }
    if (List.range 64).any (fun q => (s2.portX q).wasShed) then s2 else s2.event 44 0 false s2.alloc.restored
  else s1

/-- A shed or PENDING port is told of budget (R187): its last claim is set aside, and it returns to DETECT. -/
def State.allocReport (s : State) (p st : Nat) : State :=
  let x := s.portX p
  let s1 := s.setPortX p { x with earmark := some (s.askOf p st) }
  [PairSet.a, PairSet.b].foldl (fun s q => if s.pst p q == st then s.toDetect p q else s) s1

/-- Serve candidates, in state `st`, while the free budget allows; the first that does not fit blocks every one after it (R186). `f` gives
one what it asks for. -/
def grantLoop (st : Nat) (f : State → Nat → State) : List Nat → State × Nat × Bool → State × Nat × Bool
  | [], r => r
  | p :: ps, (s, free, blocked) =>
    if blocked then (s, free, true)
    else
      let c := s.askOf p st
      if c ≤ free then grantLoop st f ps (f s p, free - c, false) else (s, free, true)

/-- The budget that stands in earmarks. -/
def State.earmarks (s : State) : Nat := portSum (fun p => ((s.portX p).earmark).getD 0)

/-- Requests, shed ports and PENDING ports are served in the order of R186 (R184). A request whose earmark stands and has not
grown is granted first and at once (R187). -/
def State.allocServe (s : State) : State :=
  if s.grantHold then s
  else
    let asking (s : State) (p : Nat) : Bool := (s.portX p).asked.isSome && s.holdOver p
    let marked := (List.range 64).filter (fun p => asking s p && ((s.portX p).earmark).any (fun e => s.askOf p stClassify ≤ e))
    let s1 := marked.foldl (fun s p => s.allocGrant p) s
    let free := s1.fget 0 ALLOC_B_PORTS - portSum (fun p => if s1.holdsBudget p then s1.budgetOf p else 0) - s1.earmarks
    let reqs := orderPorts (s1.grantBefore (fun p => ((s1.portX p).asked).getD 0)) ((List.range 64).filter (asking s1))
    let r1 := grantLoop stClassify (fun s p => s.allocGrant p) reqs (s1, free, false)
    let queued (at_ : Nat) : List Nat :=
      if s1.mode = .safe then [] else orderPorts (s1.grantBefore (fun p => (s1.portX p).queuedAt))
        ((List.range 64).filter (fun p => (s1.pst p .a == at_ || s1.pst p .b == at_) && s1.holdOver p))
    let shed := if s1.restoreOk then queued stShed else []
    let r2 := grantLoop stShed (fun s p => s.allocReport p stShed) shed r1
    let r3 := grantLoop stPending (fun s p => s.allocReport p stPending) (queued stPending) r2
    if s1.restoreOk && s1.alloc.waived then { r3.1 with alloc := { r3.1.alloc with waived := false, restoreAt := r3.1.now } } else r3.1

/-! ### Measured values -/

/-- The registers of a port take their 1 ms means (R177), and `PORT_PD_END` follows (R166). -/
def State.portMeas (s : State) (m : PortMeas) : State :=
  let p := m.port.val
  let b := portB p
  let s1 := ((((((s.fset b PORT_PS_A_VOLTAGE m.va.toNat).fset b PORT_PS_B_VOLTAGE m.vb.toNat).fset b PORT_PS_A_CURRENT m.ia.toNat).fset b
    PORT_PS_B_CURRENT m.ib.toNat).fset b PORT_POWER m.power.toNat).fset b PORT_AVG3S m.avg3s.toNat)
  let s2 := (s1.fsetB b PORT_STATUS_MPS_OK m.mps).showLimit p
  let ra := s2.fget b PORT_LOOP_R_LOOP_A
  let rb := s2.fget b PORT_LOOP_R_LOOP_B
  let pa := s2.psPowered p .a
  let pb := s2.psPowered p .b
  let s3 := if (!pa && !pb) || (pa && ra == 0xFFFF) || (pb && rb == 0xFFFF) then
      (s2.fset b PORT_PD_END_CABLE_LOSS 0).fset b PORT_PD_END_VPD 0
    else
      let ia := m.ia.toNat
      let ib := m.ib.toNat
      let loss := ((if pa then ia * ia * ra else 0) + (if pb then ib * ib * rb else 0)) / 1000000
      let a := m.va.toNat - ia * ra / 1000
      let c := m.vb.toNat - ib * rb / 1000
      (s2.fsat b PORT_PD_END_CABLE_LOSS loss).fset b PORT_PD_END_VPD
        (if s2.dual p then (if pa then a else c) else (a + c) / 2)
  if s3.powered p then
    let x := s3.portX p
    s3.setPortX p { x with peaks := keepPeaks s3.now m.power.toNat x.peaks }
  else s3

/-- Outside a power failure the converter stops discharging into the rail once E_peak is zero (R193). -/
def State.sluSpent (s : State) : State :=
  if s.ePeak = 0 ∧ s.fbit 0 ALLOC_ENTRY_STATUS_PFW = false then s.fset 0 SLU_STATUS_DISCHARGING 0 else s

/-- The registers of the power entry, the sluice and the fans take their 1 ms means (R53, R192, R205). -/
def State.entryMeas (s : State) (m : EntryMeas) : State :=
  let f (w i : Nat) : Nat := w / 0x10000 ^ i % 0x10000
  let w := m.fans.toNat
  let s1 := ((((s.fset 0 ALLOC_BUS_A_VOLTAGE m.va.toNat).fset 0 ALLOC_BUS_B_VOLTAGE m.vb.toNat).fset 0 ALLOC_BUS_A_CURRENT
    m.ia.toNat).fset 0 ALLOC_BUS_B_CURRENT m.ib.toNat).fset 0 ALLOC_RAIL_VOLTAGE m.rail.toNat
  let s2 := (((s1.fset 0 ALLOC_INPUT_P m.input.toNat).fset 0 ALLOC_THERM_HOTSPOT m.hotspot.toNat).fset 0 ALLOC_THERM_INLET
    m.inlet.toNat).fset 0 ALLOC_FAN_STATUS_DUTY m.duty.toNat
  let s3 := s2.fset 0 ALLOC_FAN_STATUS_FAN_OK (s2.fget 0 ALLOC_FAN_STATUS_FAN_OK ||| m.fanOk.toNat)
  let s4 := (((s3.fset 0 ALLOC_FAN_SPEED_12_FAN1 (f w 0)).fset 0 ALLOC_FAN_SPEED_12_FAN2 (f w 1)).fset 0 ALLOC_FAN_SPEED_34_FAN3
    (f w 2)).fset 0 ALLOC_FAN_SPEED_34_FAN4 (f w 3)
  let s5 := (((s4.fset 0 SLU_BANK_VOLTAGE m.bankV.toNat).fset 0 SLU_BANK_CURRENT m.bankI.toNat).fset 0 SLU_CELLS_CELL_MAX
    m.cellMax.toNat).fset 0 SLU_CELLS_CELL_MIN m.cellMin.toNat
  ((((s5.fset 0 SLU_TEMP m.bankT.toNat).fset 0 SLU_LEVELS_V_RESERVE (vReserve (s5.fget 0 SLU_CAP_C))).sluVmax.sluEnergy).sluSpent).ceiling

/-- The charge limit of R191, W. -/
def State.chargeLimit (s : State) (self : Nat) : Nat :=
  if s.fbit 0 ALLOC_STATUS_DIP || s.fbit 0 ALLOC_ENTRY_STATUS_PFW then 0
  else min 1500000 (98 * s.bIn / 100 - s.fget 0 ALLOC_DRAW - self) / 1000

/-- DIP_RIDE as the allocator takes it, ns (R205). -/
def State.dipRide (s : State) : Nat := min (s.fget 0 ALLOC_CTRL_DIP_RIDE) 1000 * 1000000

/-- Why ports must be shed in a dip, if they must (R184). -/
def State.mustShed (s : State) (atLimit : Bool) : Option Nat :=
  if s.now ≥ s.alloc.dipStart + s.dipRide then some 1
  else if 10 * s.ePeak < s.ePeakMax then some 2
  else if atLimit then some 3
  else none

/-- Steps of R184 up to the dip: the budget, the reservations, R and D, and whether a dip starts or ends. -/
def State.allocDip (s : State) : State :=
  let s0 := (s.fset 0 ALLOC_B_IN s.bIn).fset 0 ALLOC_B_PORTS s.bPorts
  let s1 := s0.forPorts (fun s p => if s.holdsBudget p then s.fset (portB p) PORT_GRANT (s.budgetOf p) else s)
  let r := portSum (fun p => if s1.holdsBudget p then s1.budgetOf p else 0)
  let d := portSum s1.drawOf
  let b := s1.fget 0 ALLOC_B_PORTS
  let s2 := ((((s1.fsat 0 ALLOC_RESERVED r).fsat 0 ALLOC_DRAW d).fsetB 0 ALLOC_STATUS_EXCESS (b < r)).fsetB 0
    ALLOC_STATUS_OVERDRAW (b < d)).fset 0 ALLOC_STATUS_SHED_LAST 0
  let dip := s2.fbit 0 ALLOC_STATUS_DIP
  if r > b ∨ d > b then
    if dip then s2.fsat 0 ALLOC_DIP_TIME ((s2.now - s2.alloc.dipStart) / 1000000)
    else if s2.fbit 0 ALLOC_ENTRY_STATUS_PFW then s2
    else
      -- a waiver of R186 concerns the ports shed before this dip
      let s3 : State := { s2 with alloc := { s2.alloc with dipStart := s2.now, waived := false } }
      ((s3.fset 0 ALLOC_STATUS_DIP 1).fset 0 ALLOC_DIP_TIME 0).event 45 0 false
        (min ((r - b) / 1000) 0xFFFF * 0x10000 + min ((d - b) / 1000) 0xFFFF)
  else if dip then
    let s3 : State := { s2 with alloc := { s2.alloc with restoreAt := s2.now + 5000000000 } }
    (s3.fset 0 ALLOC_STATUS_DIP 0).fsat 0 ALLOC_DIP_TIME ((s3.now - s3.alloc.dipStart) / 1000000)
  else s2

/-! ### Power-fail warning (R197–R202) -/

/-- The RIDE ports admitted to the ride (R198): in the shed order reversed, while both bounds hold; the first that fails ends
the list. Powers in mW, `t` in ms, `e` in µJ. -/
def rideLoop (draw : Nat → Nat) (t e : Nat) : List Nat → Nat → List Nat
  | [], _ => []
  | p :: ps, sum =>
    let n := sum + draw p
    if n ≤ 1360000 ∧ (n + 140000) * t ≤ e then p :: rideLoop draw t e ps n else []

/-- RIDE_TIME as latched at PFW, ms (R205). -/
def State.rideTime (s : State) : Nat := min (max (s.fget 0 ALLOC_CTRL_RIDE_TIME) 1) 1000

/-- The power-fail steps on the ports and the allocator (R197, R198, R204). `cause` as event 40: 1 buses, 2 MATE_N. -/
def State.pfwPorts (s : State) (cause : Nat) : State :=
  let s0 := ((((s.fset 0 ALLOC_ENTRY_STATUS_PFW 1).fset 0 ALLOC_ENTRY_STATUS_PFW_SEEN 1).finc 0 ALLOC_PFW_CNT_COUNT).fset 0
    PFW_LAST_TIME s.uptime).fset 0 SLU_CHG_LIMIT 0 |>.fset 0 SLU_STATUS_CHARGING 0
  let ended := s0.fbit 0 ALLOC_STATUS_DIP
  let a := { s0.alloc with pfwAt := s0.now, saving := true, restoreAt := if ended then s0.now + 5000000000 else s0.alloc.restoreAt, waived := false }
  let s1 : State := { s0 with alloc := a }
  let s2 := (s1.fset 0 ALLOC_STATUS_DIP 0).event 40 0 true (cause * 0x1000000 + min (s1.ePeak / 1000000000) 0xFFFFFF)
  let s3 := s2.forPorts (fun s p => if (s.portX p).measuring then s.measSkip p else s)
  let keep (s : State) (p : Nat) : Bool := s.fbit (portB p) PORT_CTRL_RIDE && decide (s.prio p ≠ 0) && s.portOn p &&
    (s.pst p .a == stOn || !s.psPowered p .a) && (s.pst p .b == stOn || !s.psPowered p .b)
  let cands := (orderPorts s3.shedBefore ((List.range 64).filter (keep s3))).reverse
  let ride := if s3.fbit 0 SLU_STATUS_RESERVE_OK then
      rideLoop s3.drawOf s3.rideTime (94 * (s3.ePeak / 1000) / 100) cands 0 else []
  -- a port that the sequencer or the weir has removed in this allocator tick keeps its reason (R204)
  let fresh (p : Nat) : Bool := (s3.portX p).removedAt.any (fun t => decide (s3.alloc.tickAt ≤ t)) && !s3.powered p
  let s4 := s3.forPorts (fun s p => if ride.contains p || s.portShed p && !s.powered p || fresh p then s else s.shedPort p)
  let m := portMask (fun p => ride.contains p)
  let s5 := (((s4.fset 0 ALLOC_RIDE_LO m).fset 0 ALLOC_RIDE_HI (m / 0x100000000)).fset 0 PFW_LAST_RIDE_HELD ride.length).fset 0
    PFW_LAST_RIDE_DURATION 0
  let off := (List.range 64).filter (fun p => s5.portShed p)
  let s6 : State := { s5 with alloc := { s5.alloc with riding := !ride.isEmpty, phyOff := off } }
  s6.fset 0 ALLOC_FAN_STATUS_DUTY 0

/-- The ride ends (R199, R202): its length is written; `shed` sheds the admitted ports still powered. -/
def State.rideStop (s : State) (shed : Bool) : State :=
  if s.alloc.riding then
    let m := s.fget 0 ALLOC_RIDE_LO + 0x100000000 * s.fget 0 ALLOC_RIDE_HI
    let s1 := if shed then s.forPorts (fun s p => if m.testBit p && s.powered p then s.shedPort p else s) else s
    let a := { s1.alloc with riding := false, phyOff := if shed then (List.range 64).filter (fun p => s1.portShed p) else s1.alloc.phyOff }
    let s2 : State := { s1 with alloc := a }
    s2.fsat 0 PFW_LAST_RIDE_DURATION ((s2.now - s2.alloc.pfwAt) / 1000000)
  else s

/-! ### The power entry (R46–R51) -/

def busPresentF : Bus → Fld
  | .a => ALLOC_ENTRY_STATUS_A_PRESENT
  | .b => ALLOC_ENTRY_STATUS_B_PRESENT

def busOvF : Bus → Fld
  | .a => ALLOC_ENTRY_STATUS_A_OV
  | .b => ALLOC_ENTRY_STATUS_B_OV

def busRevF : Bus → Fld
  | .a => ALLOC_ENTRY_STATUS_A_REVERSED
  | .b => ALLOC_ENTRY_STATUS_B_REVERSED

def busLostSeenF : Bus → Fld
  | .a => ALLOC_ENTRY_STATUS_A_LOST_SEEN
  | .b => ALLOC_ENTRY_STATUS_B_LOST_SEEN

def busOvSeenF : Bus → Fld
  | .a => ALLOC_ENTRY_STATUS_A_OV_SEEN
  | .b => ALLOC_ENTRY_STATUS_B_OV_SEEN

def busVoltF : Bus → Fld
  | .a => ALLOC_BUS_A_VOLTAGE
  | .b => ALLOC_BUS_B_VOLTAGE

def busNum : Bus → Nat
  | .a => 0
  | .b => 1

/-- The input switch of a bus is closed: mated, no overvoltage, no reversal (R46, R47). -/
def State.busClosed (s : State) (bus : Bus) : Bool :=
  s.fbit 0 ALLOC_ENTRY_STATUS_MATED && !s.fbit 0 (busOvF bus) && !s.fbit 0 (busRevF bus)

/-- The percent of R71 for an inlet temperature in 0.01 °C and `f` failed fans. -/
def deratePercent (t : Int) (f : Nat) : Nat :=
  let base : Int := 4500 - 500 * f
  if t ≤ base then 100 else if t ≥ base + 500 then 50 else ((1000 - (t - base)) / 10).toNat

end Sys2Proof.Machine
end

