-- ==== Sys2Proof/Machine/EthOps.lean ====
section
/-! DEFINITION. The switch: links, rate changes, cages and gPTP (chapter "Ethernet switch and uplinks"). -/

namespace Sys2Proof.Machine
open Sys2Proof

/-! ### Links and rates (R240, R243, R251) -/

/-- A pause in force on port `k` ends: the quanta honoured are counted (R248, R260). -/
def State.pauseEnd (s : State) (k : Nat) : State :=
  if s.fbit (ethB k) ETH_PORT_STATUS_PAUSED then
    let x := s.ethX k
    let u := match s.fget (ethB k) ETH_PORT_STATUS_SPEED with
      | 5 => 2048
      | 4 => 5120
      | 3 => 51200
      | 2 => 512000
      | _ => 5120000
    ((s.cnt k 39 (min ((s.now - x.pausedAt) * 100 / u) x.quanta)).fset (ethB k) ETH_PORT_STATUS_PAUSED 0).setEthX k { x with quanta := 0 }
  else s

/-- The link of port `k` goes down (R213, R243, R263, R266). -/
def State.linkDown (s : State) (k : Nat) : State :=
  let b := ethB k
  let s0 := (((s.lpiLeave k).pauseEnd k).dropQueue k).cnt k 42 1
  let s1 := s0.setEthX k { s0.ethX k with changing := none, quanta := 0, eee := false }
  let s2 := ((((s1.fset b ETH_PORT_STATUS_LINK_UP 0).fset b ETH_PORT_STATUS_SPEED 0).fset b ETH_PORT_STATUS_LOWERED 0).fset b
    ETH_PORT_STATUS_PAUSING 0).fset b ETH_PORT_STATUS_LPI_RX 0
  if isUplink k then s2.event (448 + (k - 65)) 0 true 0
  else if isJack k then
    let s3 := if s2.portOn (k - 1) then s2.event 460 (s2.portOwner (k - 1)) false k else s2
    s3.lumNone (k - 1)
  else s2

/-- The copper PHYs that a power failure has powered down lose their links (R197, R201). -/
def State.phyDown (s : State) : State :=
  s.alloc.phyOff.foldl (fun s p => if s.fbit (ethB (p + 1)) ETH_PORT_STATUS_LINK_UP then s.linkDown (p + 1) else s.rateAbandon p) s

/-- The UTC minute of the day (R251, R471). -/
def State.minuteOfDay (s : State) : Nat := s.rtc.secs / 60 % 1440

/-- Does the time of day lie in the rate window (R251)? -/
def State.rateWindow (s : State) : Bool :=
  let a := s.fget 0 ETH_RATE_WINDOW_START
  let b := s.fget 0 ETH_RATE_WINDOW_END
  let t := s.minuteOfDay
  if a = b then true else if a < b then a ≤ t && t < b else a ≤ t || t < b

/-- A rate change to a speed begins (R251): frames for the port are held. -/
def State.rateBegin (s : State) (k speed : Nat) : State :=
  let s1 := s.lpiLeave k
  s1.setEthX k { s1.ethX k with changing := some speed }

/-- A lowered port is raised to 1000BASE-T (R251). -/
def State.rateRaise (s : State) (k : Nat) : State :=
  if s.ethUp && isJack k && s.fbit (ethB k) ETH_PORT_STATUS_LOWERED && (s.ethX k).changing.isNone then s.rateBegin k 3 else s

/-- May a port be lowered (R251)? -/
def State.rateEnabled (s : State) (k : Nat) : Bool := s.fbit 0 ETH_CTRL_RATE_EN && s.fbit (ethB k) ETH_PORT_CTRL_AUTO_RATE_EN

/-- A 100 ms mean of port `k` in either direction exceeds RAISE (R251). -/
def State.rateBusy (s : State) (k : Nat) : Bool :=
  let x := s.ethX k
  decide (8 * max x.rxLast x.txLast > 10000 * s.fget 0 ETH_RATE_THRESH_RAISE)

/-- The speed of an uplink as SPEED codes it (R239, R265): codes other than 01 act as 00 (DESIGN CHOICE, log entry 101). -/
def State.upSpeed (s : State) (k : Nat) : Nat := if s.fget (ethB k) ETH_PORT_CTRL_SPEED = 1 then 4 else 5

/-- The FEC in use on an uplink (R265): 11 acts as 00, and at 10GBASE-R there is none. -/
def State.upFec (s : State) (k : Nat) : Nat :=
  let f := s.fget (ethB k) ETH_PORT_CTRL_FEC
  if s.upSpeed k = 4 ∨ f = 3 then 0 else f

/-- Restart auto-negotiation at the port's full rate (R265): the link goes down and comes up again by itself. -/
def State.ethRelink (s : State) (k : Nat) : State :=
  if s.ethUp && isJack k && s.fbit (ethB k) ETH_PORT_STATUS_LINK_UP then s.linkDown k else s

/-- The 48 counters of a port are copied (R262). -/
def State.ethSnap (s : State) (k : Nat) : State :=
  (List.range 48).foldl (fun s i => s.wr (ethB k + ETH_PORT_SNAPV.off + 4 * i) (s.rd (ethB k + ETH_PORT_CNT.off + 4 * i))) s

/-! ### gPTP (R256–R259) -/

def ptpDisabled : Nat := 0
def ptpListening : Nat := 1
def ptpSyncing : Nat := 2
def ptpLocked : Nat := 3
def ptpHoldover : Nat := 4
def ptpGrandmaster : Nat := 5

def State.ptpState (s : State) : Nat := s.fget 0 ETH_PTP_STATUS_STATE

/-- gPTP is available (R257). -/
def State.ptpOk (s : State) : Bool :=
  s.ptpState == ptpSyncing || s.ptpState == ptpLocked || s.ptpState == ptpGrandmaster

/-- Move the time-aware system to a state; a change raises event 457 (R257, R266). -/
def State.ptpTo (s : State) (n : Nat) : State :=
  let o := s.ptpState
  let s1 := s.fset 0 ETH_PTP_STATUS_STATE n
  if o = n then s else (if s1.ptpOk then s1 else s1.fset 0 RTC_STATUS_DISC 0).event 457 0 (n == ptpHoldover) (16 * o + n)

/-- The types of module the cages accept (R61). -/
def sfpServed : SfpKind → Bool
  | .sr25 | .lr25 | .sr10 | .lr10 => true
  | .dac m => decide (m.toNat ≤ 3)
  | .other => false

/-- The range of the gPTP time counter, ns. -/
def ptpRange : Nat := 281474976710656 * 1000000000

/-- The correction of gPTP time since the last sync, ns (R258): the ns of REFCLK less those of the grandmaster. -/
def State.ptpDrift (s : State) : Int :=
  let till := match s.eth.rateEnd with
    | some t => min s.now t
    | none => s.now
  let e : Int := (till - s.eth.rateAt : Nat)
  e * 100000000 / (100000000 + s.eth.rate) - e

/-- gPTP time, ns (R258). -/
def State.ptpTime (s : State) : Nat := (((s.now + s.eth.shift : Nat) : Int) + s.ptpDrift).toNat % ptpRange

/-- The counter goes on from its present time with REFCLK's offset `rate`, moved by `by_` ns (R258). -/
def State.ptpSet (s : State) (rate by_ : Int) : State :=
  let shift := (((s.eth.shift : Int) + s.ptpDrift + by_) % (ptpRange : Int)).toNat
  { s with eth := { s.eth with shift := shift, rate := rate, rateAt := s.now, rateEnd := none } }

/-- The grandmaster is `gm`, through an uplink (R257): a change of identity raises event 458. -/
def State.ptpGm (s : State) (uplink : Bus) (gm steps : Nat) : State :=
  let old := s.fget 0 ETH_PTP_GM_LO + 0x100000000 * s.fget 0 ETH_PTP_GM_HI
  let s1 := (((s.fset 0 ETH_PTP_GM_LO gm).fset 0 ETH_PTP_GM_HI (gm / 0x100000000)).fset 0 ETH_PTP_STATUS_PORT (busNum uplink)).fset 0
    ETH_PTP_STATUS_STEPS steps
  if old = gm then s1 else s1.event 458 0 false (gm % 0x100000000)

/-- `ETH_PTP_CTRL.EN` has been written (R257). -/
def State.ptpEnable (s : State) : State :=
  if s.fbit 0 ETH_PTP_CTRL_EN then (if s.ptpState = ptpDisabled then s.ptpTo ptpListening else s) else s.ptpTo ptpDisabled

/-- The module's clock identity, formed from its management MAC (PRESUMED from IEEE 802.1AS, log entry 102). -/
def State.ptpOwnId (s : State) : Nat :=
  let m := s.mgmtMacAddr
  m / 0x1000000 * 0x10000000000 + 0xFFFE000000 + m % 0x1000000

/-- What best-master selection compares, the smaller the better (R256): priority1, class, accuracy, variance, priority2 and identity. -/
def ptpVector (p1 cls acc var p2 id : Nat) : Nat :=
  ((((p1 * 0x100 + cls) * 0x100 + acc) * 0x10000 + var) * 0x100 + p2) * 0x10000000000000000 + id

/-- Is an announced grandmaster better than the module, which PRIORITY1 of 255 keeps from ever being one (R256)? The module's class 248, accuracy
0xFE and variance 0x436A are those of a clock without a better source (PRESUMED from IEEE 802.1AS, log entry 102). -/
def State.ptpBetter (s : State) (a : Announce) : Bool :=
  decide (s.fget 0 ETH_PTP_CTRL_PRIORITY1 = 255) ||
  decide (ptpVector a.priority1.toNat a.cls.toNat a.accuracy.toNat a.variance.toNat a.priority2.toNat a.gm.toNat <
    ptpVector (s.fget 0 ETH_PTP_CTRL_PRIORITY1) 248 0xFE 0x436A (s.fget 0 ETH_PTP_CTRL_PRIORITY2) s.ptpOwnId)

/-- gPTP runs on the uplinks (R256). -/
def State.ptpRuns (s : State) : Bool := s.ethReady && s.fbit 0 ETH_PTP_CTRL_EN

/-- Bytes on the wire of a gPTP message by its type (IEEE 802.1AS; PRESUMED, log entry 102). -/
def ptpBytes : Nat → Nat
  | 0 => 64
  | 8 => 94
  | 0xB => 94
  | _ => 72

/-- A gPTP message leaves by an uplink (R256, R260): 0 Sync, 2 Pdelay_Req, 3 Pdelay_Resp, 8 Follow_Up, 0xA Pdelay_Resp_Follow_Up, 0xB Announce. -/
def State.ptpSend (s : State) (k kind : Nat) : State :=
  if s.fbit (ethB k) ETH_PORT_STATUS_LINK_UP then
    (((s.cntFrame k 24 (ptpBytes kind) 0x0180C200000E).cnt k 40 1).octets k 0 (ptpBytes kind)).send (.ptp k kind)
  else s

/-- A gPTP message arrives on an uplink (R256, R260): counted, and a delay request is answered. -/
def State.ptpArrive (s : State) (k : Nat) (u : List Byte) : State :=
  let s1 := s.cnt k 21 1
  if s1.ptpRuns && packetNum u 14 1 % 16 == 2 then (s1.ptpSend k 3).ptpSend k 0xA else s1

/-- The uplinks on which the module gives the time: both as grandmaster, and the one that does not receive it while it follows one. -/
def State.ptpMasters (s : State) : List Nat :=
  if s.ptpState = ptpGrandmaster then [65, 66]
  else if s.ptpState = ptpSyncing ∨ s.ptpState = ptpLocked then [66 - s.fget 0 ETH_PTP_STATUS_PORT]
  else []

/-! ### What the switch does by the clock (R251, R254, R256, R265) -/

/-- The 100 ms means of port `k` are taken. -/
def State.rateTenth (s : State) (k : Nat) : State :=
  let x := s.ethX k
  (s.setEthX k { x with rxTenth := 0, txTenth := 0, rxLast := x.rxTenth, txLast := x.txTenth }).lpiCount k

/-- The 1 s means of port `k` are taken (R251, R265). -/
def State.rateSecond (s : State) (k : Nat) : State :=
  let x := s.ethX k
  let lower := 100000 * s.fget 0 ETH_RATE_THRESH_LOWER
  let q := if 8 * x.rxSec < lower ∧ 8 * x.txSec < lower then x.quiet + 1 else 0
  let b := ethB k
  ((s.setEthX k { x with rxSec := 0, txSec := 0, quiet := q }).fsat b ETH_PORT_RATE_RX_MEAN (8 * x.rxSec / 100000)).fsat b ETH_PORT_RATE_TX_MEAN
    (8 * x.txSec / 100000)

/-- The ports of the switch. -/
def ethPorts : List Nat := (List.range 68).map (fun k => k + 1)

/-- The model's time has moved on from `t`. The windows of the means and the intervals of gPTP begin at whole multiples of their length in it
(DESIGN CHOICE, log entry 104). -/
def State.ethClock (s : State) (t : Nat) : State :=
  let past (n : Nat) : Bool := s.now / n != t / n
  if !s.ethUp || !(past 25000000) then s
  else
    let s1 := if past 100000000 then ethPorts.foldl (fun s k => s.rateTenth k) s else s
    let s2 := if past 1000000000 then ethPorts.foldl (fun s k => s.rateSecond k) s1 else s1
    if !s2.ptpRuns then s2
    else
      let s3 := if past 125000000 then s2.ptpMasters.foldl (fun s k => (s.ptpSend k 0).ptpSend k 8) s2 else s2
      if past 1000000000 then ([65, 66].foldl (fun s k => s.ptpSend k 2) (s3.ptpMasters.foldl (fun s k => s.ptpSend k 0xB) s3)) else s3

end Sys2Proof.Machine
end

