-- ==== Sys2Proof/Machine/Alloc.lean ====
section
/-! DEFINITION. The power entry, the allocator and the sluice: what happens at their instants (R46–R54, R70, R71,
R180–R206). -/

namespace Sys2Proof.Machine
open Sys2Proof

/-- MATE_N low for 100 ms: the input switches close (R46). MATED, which R53 calls "MATE_N low", is that filtered level (DESIGN CHOICE, log entry
94). -/
def execMateNLowFiltered (s : State) : Host.Outcome State Fault Refusal :=
  if s.pwr.refclkLost then .next s else
  .next (s.fset 0 ALLOC_ENTRY_STATUS_MATED 1)

/-- A bus is present (R47): it joins sharing, and the ceiling follows (R51). -/
def execBusPresent (bus : Bus) (mv : BitVec 16) (s : State) : Host.Outcome State Fault Refusal :=
  if s.pwr.refclkLost then .next s else
  .next (if s.busClosed bus then ((s.fset 0 (busVoltF bus) mv.toNat).fset 0 (busPresentF bus) 1).ceiling else s)

/-- A bus is judged lost (R47). -/
def execBusLost (bus : Bus) (mv : BitVec 16) (s : State) : Host.Outcome State Fault Refusal :=
  .next (if s.busPresent bus then
      ((((s.fset 0 (busVoltF bus) mv.toNat).fset 0 (busPresentF bus) 0).fset 0 (busLostSeenF bus) 1).event (32 + busNum bus) 0 true mv.toNat).ceiling
    else s)

/-- Overvoltage: the input switch opens (R47). -/
def execBusOvervoltage (bus : Bus) (mv : BitVec 16) (s : State) : Host.Outcome State Fault Refusal :=
  .next (((((s.fset 0 (busVoltF bus) mv.toNat).fset 0 (busPresentF bus) 0).fset 0 (busOvF bus) 1).fset 0 (busOvSeenF bus) 1).event (34 + busNum bus) 0 true
    mv.toNat).ceiling

/-- Overvoltage cleared: the input switch closes (R47). -/
def execBusOvervoltageCleared (bus : Bus) (s : State) : Host.Outcome State Fault Refusal :=
  if s.pwr.refclkLost then .next s else
  .next (s.fset 0 (busOvF bus) 0)

/-- A bus is reversed: its switch opens or stays open (R47). -/
def execBusReversed (bus : Bus) (s : State) : Host.Outcome State Fault Refusal :=
  .next (((s.fset 0 (busPresentF bus) 0).fset 0 (busRevF bus) 1).event (36 + busNum bus) 0 true 0).ceiling

/-- The reversal is gone (R47). -/
def execBusReversalCleared (bus : Bus) (s : State) : Host.Outcome State Fault Refusal :=
  if s.pwr.refclkLost then .next s else
  .next (s.fset 0 (busRevF bus) 0)

/-- The derating follows the inlet temperature and the fans (R54, R71). A fan counts as failed while its FAN_OK bit reads 0, so before the first
1 ms mean too (DESIGN CHOICE, log entry 95). -/
def execThermalDerateChange (inlet : BitVec 16) (s : State) : Host.Outcome State Fault Refusal :=
  if s.pwr.refclkLost then .next s else
  let ok := s.fget 0 ALLOC_FAN_STATUS_FAN_OK
  let failed := ((List.range 4).filter (fun i => !ok.testBit i)).length
  let n := deratePercent (toSigned 16 inlet.toNat) failed
  let old := s.fget 0 ALLOC_THERM_DERATE_PERCENT
  let ref := s.alloc.derateRef
  let fire := decide (n < old) && decide (n < 100) && (ref == 100 || decide (n + 10 ≤ ref))
  let s1 := (s.fset 0 ALLOC_THERM_INLET inlet.toNat).fset 0 ALLOC_THERM_DERATE_PERCENT n
  let s2 : State := { s1 with alloc := { s1.alloc with derateRef := if n = 100 then 100 else if fire then n else ref } }
  .next (if fire then s2.event 38 0 true n else s2)

/-- A fan fails: its FAN_OK bit clears and event 39 is raised (R54, R70). -/
def execFanFail (fan : Fin 4) (s : State) : Host.Outcome State Fault Refusal :=
  if s.pwr.refclkLost then .next s else
  let ok := s.fget 0 ALLOC_FAN_STATUS_FAN_OK
  .next (if ok.testBit fan.val then
      let n := ok - 2 ^ fan.val
      (s.fset 0 ALLOC_FAN_STATUS_FAN_OK n).event 39 0 true n
    else s)

/-- The allocator tick (R184, R189): the means are taken, the budget is computed, ports are shed when they must be, requests
are served, and the charge limit is set. With REFCLK lost or PORTPWR in reset the allocator stands still (R204). -/
def execAllocTick (m : EntryMeas) (ports : List PortMeas) (s : State) : Host.Outcome State Fault Refusal :=
  .next (if !s.seqRuns then s
    else
      let s0 : State := { s with alloc := { s.alloc with tickAt := s.now } }
      let s1 := ports.foldl (fun s q => s.portMeas q) (s0.entryMeas m)
      let s2 := s1.allocDip
      let s3 := if s2.fbit 0 ALLOC_STATUS_DIP && !s2.fbit 0 ALLOC_ENTRY_STATUS_PFW then
          match s2.mustShed m.atLimit with
          | some c => s2.allocShed c
          | none => s2
        else s2
      let s4 := if s3.fbit 0 ALLOC_STATUS_SHED_LAST then s3 else s3.allocServe
      let w := s4.chargeLimit m.self.toNat
      (s4.fset 0 SLU_CHG_LIMIT w).fsetB 0 SLU_STATUS_CHARGING
        (decide (w ≠ 0) && !s4.fbit 0 SLU_STATUS_FULL && !s4.fbit 0 SLU_STATUS_DISCHARGING))

/-- A dip forces shedding (R184). -/
def execDipRideExpired (cause : Fin 4) (s : State) : Host.Outcome State Fault Refusal :=
  .next (if s.seqRuns && s.fbit 0 ALLOC_STATUS_DIP && !s.fbit 0 ALLOC_ENTRY_STATUS_PFW then s.allocShed (max cause.val 1) else s)

/-- An earmark lapses after 500 ms (R187), unless the port's request has arrived. -/
def execEarmarkExpired (port : PortNo) (s : State) : Host.Outcome State Fault Refusal :=
  if s.pwr.refclkLost then .next s else
  .next (if (s.portX port.val).asked.isSome then s else s.setPortX port.val { s.portX port.val with earmark := none })

/-- The allocator has been out of a dip for 5 s: shed ports are candidates (R186). -/
def execShedRestoreWaitExpired (s : State) : Host.Outcome State Fault Refusal :=
  let s1 : State := { s with alloc := { s.alloc with restoreAt := min s.alloc.restoreAt s.now } }
  .next (if s.seqRuns && !s.fbit 0 ALLOC_STATUS_DIP then s1.allocServe else s)

/-- The converter starts discharging into the rail (R190), unless E_peak is spent (R193). -/
def execSluiceDischargeStart (s : State) : Host.Outcome State Fault Refusal :=
  .next (if s.ePeak = 0 ∧ s.fbit 0 ALLOC_ENTRY_STATUS_PFW = false then s
    else (s.fset 0 SLU_STATUS_DISCHARGING 1).fset 0 SLU_STATUS_CHARGING 0)

/-- The converter stops discharging (R190). -/
def execSluiceDischargeStop (s : State) : Host.Outcome State Fault Refusal := .next (s.fset 0 SLU_STATUS_DISCHARGING 0)

/-- The bank reaches V_MAX: charging stops (R191). -/
def execSluiceFull (s : State) : Host.Outcome State Fault Refusal :=
  if s.pwr.refclkLost then .next s else
  .next ((s.fset 0 SLU_STATUS_FULL 1).fset 0 SLU_STATUS_CHARGING 0)

/-- The bank falls 0.2 V below V_MAX: charging resumes, unless the charge limit is 0 (R191). -/
def execSluiceChargeResume (s : State) : Host.Outcome State Fault Refusal :=
  if s.pwr.refclkLost then .next s else
  .next ((s.fset 0 SLU_STATUS_FULL 0).fsetB 0 SLU_STATUS_CHARGING (decide (s.fget 0 SLU_CHG_LIMIT ≠ 0)))

/-- The bank reaches V_RESERVE + 0.5 V: RESERVE_OK sets, and the start-up of R196 is over. -/
def execReserveOkSet (s : State) : Host.Outcome State Fault Refusal :=
  if s.pwr.refclkLost then .next s else
  let s1 : State := { s with alloc := { s.alloc with everReserve := true, noReserve := false } }
  .next ((s1.fset 0 SLU_STATUS_RESERVE_OK 1).setDeg 1 false)

/-- The bank falls below V_RESERVE (R193, R196): RESERVE_OK clears, the converter stops discharging into the rail, and event 46
is raised outside PFW. -/
def execReserveLost (s : State) : Host.Outcome State Fault Refusal :=
  if s.pwr.refclkLost then .next s else
  let s1 := s.fset 0 SLU_STATUS_RESERVE_OK 0
  .next (if s.fbit 0 ALLOC_ENTRY_STATUS_PFW then s1
    else
      let s2 := s1.fset 0 SLU_STATUS_DISCHARGING 0
      if s.fbit 0 SLU_STATUS_RESERVE_OK then s2.event 46 0 true (s.fget 0 SLU_BANK_VOLTAGE) else s2)

/-- RESERVE_OK still 0 five seconds after the port configuration was loaded: the allocator grants anyway (R196). -/
def execReserveGrantTimeout (s : State) : Host.Outcome State Fault Refusal :=
  if s.pwr.refclkLost then .next s else
  .next (if s.alloc.everReserve || s.alloc.noReserve || !s.alloc.config then s
    else
      let s1 : State := { s with alloc := { s.alloc with noReserve := true } }
      (s1.setDeg 1 true).event 49 0 true (s.fget 0 SLU_BANK_VOLTAGE))

/-- Do two values agree within `n` percent of the smaller? -/
def within (n a b : Nat) : Bool := 100 * (max a b - min a b) ≤ n * min a b

/-- C takes a new value (R194): V_RESERVE follows, and WORN sets below 3.50 F. -/
def State.takeCap (s : State) (c : Nat) : State :=
  let s1 := (s.sysPage.fset 0 SLU_CAP_C c).fset 0 SLU_LEVELS_V_RESERVE (vReserve c)
  let s2 : State := { s1 with alloc := { s1.alloc with caps := [] } }
  let s3 := if c < 3500 ∧ s2.fbit 0 SLU_STATUS_WORN = false then (s2.fset 0 SLU_STATUS_WORN 1).event 47 0 true c else s2
  s3.sluEnergy.sluJudge

/-- A charge has measured C (R194): taken within 10 % of the value in use, or when three in a row agree within 3 %. -/
def execSluiceCapMeasured (c : BitVec 16) (s : State) : Host.Outcome State Fault Refusal :=
  if s.pwr.refclkLost then .next s else
  let n := c.toNat
  let old := s.fget 0 SLU_CAP_C
  let last := (n :: s.alloc.caps).take 3
  .next (if 100 * (max n old - min n old) ≤ 10 * old then s.takeCap n
    else if last.length = 3 ∧ last.all (fun a => last.all (fun b => within 3 a b)) then s.takeCap n
    else { s with alloc := { s.alloc with caps := last.take 2 } })

/-- The bank temperature crosses 55 °C (R195). -/
def execSluiceHot (temp : BitVec 16) (s : State) : Host.Outcome State Fault Refusal :=
  if s.pwr.refclkLost then .next s else
  let hot := decide (temp.toInt > 5500)
  let was := s.fbit 0 SLU_STATUS_HOT
  let s0 : State := { s with alloc := { s.alloc with hot := hot } }
  let s1 := (s0.fsetB 0 SLU_STATUS_HOT hot).sluVmax.sluEnergy
  .next (if hot && !was then s1.sluFault.sluJudge else s1.sluJudge)

/-- A cell fault is detected, or is gone (R195). -/
def execSluiceCellFault (present : Bool) (vmax : BitVec 16) (s : State) : Host.Outcome State Fault Refusal :=
  if s.pwr.refclkLost then .next s else
  let was := s.fbit 0 SLU_STATUS_CELL_FAULT
  let s0 : State := { s with alloc := { s.alloc with cellVmax := if present then some vmax.toNat else none } }
  let s1 := (s0.fsetB 0 SLU_STATUS_CELL_FAULT present).sluVmax.sluEnergy
  .next (if present && !was then s1.sluFault.sluJudge else s1.sluJudge)

/-- The ride ends: RIDE_TIME has elapsed or the bank is at V_RESERVE (R199). -/
def execRideEnd (s : State) : Host.Outcome State Fault Refusal :=
  if s.pwr.refclkLost then .next s else
  .next (s.rideStop true).phyDown

/-- A bus is present again during hold-up (R202): PFW deasserts, the ride ends with its ports kept, the wait of R186 is
waived, fans and PHYs return, and event 41 is raised. -/
def execPowerFailWarningCleared (s : State) : Host.Outcome State Fault Refusal :=
  if s.pwr.refclkLost then .next s else
  .next (if s.fbit 0 ALLOC_ENTRY_STATUS_PFW && (s.busPresent .a || s.busPresent .b) then
      let s1 := (s.rideStop false).fset 0 ALLOC_ENTRY_STATUS_PFW 0
      let s2 : State := { s1 with alloc := { s1.alloc with waived := true, phyOff := [] } }
      (s2.fset 0 ALLOC_FAN_STATUS_DUTY 0xFF).event 41 0 true (min ((s2.now - s2.alloc.pfwAt) / 1000000) 0xFFFFFFFF)
    else s)

end Sys2Proof.Machine
end

