-- ==== Sys2Proof/Machine/FlowOps.lean ====
section
/-! DEFINITION. The flowstone recorder: its store, its samples and its window (R483–R490). -/

namespace Sys2Proof.Machine
open Sys2Proof

/-! ### Descriptors and slots -/

/-- The registers of a descriptor (R491). -/
def flowB (ext : Bool) (d : Nat) : Nat := if ext then 0x24300 + 8 * d else 0x24100 + 0x10 * d

/-- The key of a descriptor: 0–31 histograms, then extremes. -/
def flowKey (ext : Bool) (d : Nat) : Nat := if ext then 32 + d else d

/-- A descriptor's key as kind and number. -/
def flowExt (k : Nat) : Bool := 32 ≤ k
def flowNum (k : Nat) : Nat := if 32 ≤ k then k - 32 else k

/-- A slot that is free. -/
def FlowRec.none : FlowRec := ⟨0, 0, 0, 0, 0, 0, 0, 0, 0, 0, 0, 0, 0, [], 0, 0, 0, 0, 0, 0⟩

def State.flowRec (s : State) (slot : Nat) : FlowRec := tabGet (fun _ => FlowRec.none) s.flow.store slot

def State.setFlowRec (s : State) (slot : Nat) (r : FlowRec) : State :=
  { s with flow := { s.flow with store := tabSet (fun _ => FlowRec.none) s.flow.store slot r } }

/-- The open record of a descriptor with the increments the store has not taken yet, and its slot. -/
def State.flowOpen (s : State) (k : Nat) : Option (Nat × FlowRec) := (s.flow.work.find? (fun e => e.1 == k)).map (fun e => e.2)

/-- Replace or remove a descriptor's open record. -/
def State.setFlowOpen (s : State) (k : Nat) (x : Option (Nat × FlowRec)) : State :=
  let rest := tabDrop (fun j => j == k) s.flow.work
  { s with flow := { s.flow with work := match x with
    | some v => tabInsert k v rest
    | none => rest } }

/-- Slots in use of each kind (R491). -/
def State.flowUsed (s : State) (ext : Bool) : Nat :=
  (s.flow.store.filter (fun e => decide (384 ≤ e.1) == ext)).length

/-- Is the recorder frozen (R488)? -/
def State.flowFrozen (s : State) : Bool := s.fbit 0 FLOW_STATUS_FROZEN

/-! ### Records (R486, R487) -/

/-- Pending increments are written to the store. -/
def State.flowFlush (s : State) : State := s.flow.work.foldl (fun s e => s.setFlowRec e.2.1 e.2.2) s

/-- A descriptor's record closes, if it has one. -/
def State.flowClose (s : State) (k : Nat) : State :=
  match s.flowOpen k with
  | some (slot, r) => (s.setFlowRec slot { r with state := 2 }).setFlowOpen k none
  | none => s

/-- A record closes now, or at the release of a freeze in force (R488). -/
def State.flowEnd (s : State) (k : Nat) : State :=
  if s.flowFrozen then
    (if (s.flowOpen k).isSome ∧ !s.flow.dueEnd.contains k then { s with flow := { s.flow with dueEnd := s.flow.dueEnd ++ [k] } } else s)
  else s.flowClose k

/-- The lowest free slot of a kind. -/
def State.flowFree (s : State) (ext : Bool) : Option Nat :=
  if ext then ((List.range 1024).find? (fun x => (s.flowRec (384 + x)).state == 0)).map (fun x => 384 + x)
  else (List.range 384).find? (fun h => (s.flowRec h).state == 0)

/-- A record opens for a descriptor, in the lowest free slot; without one the descriptor stops (R486, R490). -/
def State.flowStart (s : State) (k : Nat) : State :=
  let ext := flowExt k
  match s.flowFree ext with
  | none =>
    let s1 := s.fset 0 (if ext then FLOW_STATUS_X_FULL else FLOW_STATUS_H_FULL) 1
    let s2 : State := { s1 with flow := { s1.flow with stopped := s1.flow.stopped ++ [k] } }
    s2.event 613 0 true ((if ext then 0x2000000 else 0x1000000) + flowNum k)
  | some slot =>
    let b := flowB ext (flowNum k)
    let seq := (nat0 s.flow.seqs k + 1) % 0x10000
    let r : FlowRec := ⟨1, flowNum k, seq, s.fget 0 FLOW_HOURS, s.fget 0 FLOW_CYCLES, 0, 0, 0, 0, if ext then 0 else s.fget b FLOW_H_LOW, if ext then 0 else s.fget b FLOW_H_WIDTH, s.fget b FLOW_H_SRC, (s.rd b).toNat, [], 0, 0, 0, 0, 0, 0⟩
    let s1 : State := { s with flow := { s.flow with seqs := put0 s.flow.seqs k seq } }
    (s1.setFlowRec slot r).setFlowOpen k (some (slot, r))

/-- A descriptor register differs from the copy its record holds. -/
def FlowRec.differs (r : FlowRec) (reg v : Nat) : Bool :=
  (match reg with
  | 0 => r.cfg
  | 1 => r.src
  | 2 => r.low
  | _ => r.width) != v

/-- A descriptor register has been written (R486): its record closes when the value differs from the one the record was opened with, and a stopped
descriptor may open one again. -/
def State.flowChanged (s : State) (ext : Bool) (d reg : Nat) : State :=
  let k := flowKey ext d
  let v := (s.rd (flowB ext d + 4 * reg)).toNat
  let s1 : State := { s with flow := { s.flow with stopped := s.flow.stopped.filter (fun j => j != k) } }
  match s1.flowOpen k with
  | some (_, r) => if r.differs reg v then s1.flowEnd k else s1
  | none => s1

/-- The descriptor registers have been written by an image. -/
def State.flowSync (s : State) : State :=
  (s.flow.work.map (fun e => e.1)).foldl (fun s k =>
    (List.range (if flowExt k then 2 else 4)).foldl (fun s reg => s.flowChanged (flowExt k) (flowNum k) reg) s) s

/-! ### Samples (R484, R485) -/

/-- The order of binary32 values that are no NaN. -/
def f32Ord (x : Nat) : Int := if x < 0x80000000 then x else -((x - 0x80000000 : Nat) : Int)

/-- The bits of a word that a descriptor takes, as binary32. -/
def flowEnc (cfg w : Nat) : Nat :=
  let enc := fieldGet cfg 28 2
  let n := fieldGet cfg 18 5 + 1
  let v := w / 2 ^ fieldGet cfg 23 5 % 2 ^ n
  if enc = 2 then w % 0x100000000 else if enc = 1 then f32Of (Frac.ofInt (toSigned n v)) else f32Of (Frac.ofInt v)

/-- The bin of a sample; none when the descriptor records nothing. -/
def flowBin (low width x : Nat) : Option Nat :=
  match f32? low, f32? width with
  | some l, some w =>
    if w.num ≤ 0 then none
    else match f32? x with
      | none => some (if x < 0x80000000 then 31 else 0)
      | some v =>
        if v.lt l then some 0
        else match (v.sub l).div w with
          | some q => some (min 31 (1 + q.floor.toNat))
          | none => none
  | _, _ => none

/-- A record takes a sample (R485). -/
def FlowRec.take (r : FlowRec) (ext : Bool) (x bin hours cyc : Nat) : FlowRec :=
  let r0 : FlowRec := { r with samples := satAdd 32 r.samples 1, last := hours, lastCyc := cyc }
  if ext then
    let lo := decide (r.samples = 0) || decide (f32Ord x < f32Ord r.min)
    let hi := decide (r.samples = 0) || decide (f32Ord r.max < f32Ord x)
    let r1 : FlowRec := if lo then { r0 with min := x, minHours := hours, minCyc := cyc } else r0
    if hi then { r1 with max := x, maxHours := hours, maxCyc := cyc } else r1
  else { r0 with bins := put0 r.bins bin (satAdd 32 (nat0 r.bins bin) 1) }

/-- A sample that is not taken counts as missed (R484). -/
def State.flowMissed (s : State) (k : Nat) : State :=
  let s1 := s.finc 0 FLOW_MISSED
  match s1.flowOpen k with
  | some (slot, r) => s1.setFlowOpen k (some (slot, { r with missed := satAdd 32 r.missed 1 }))
  | none => s1

/-- A descriptor samples the word `w` of its source; none when the source gives none (R484–R486). -/
def State.flowSample (s : State) (k : Nat) (w : Option Nat) : State :=
  let ext := flowExt k
  let b := flowB ext (flowNum k)
  match w with
  | none => s.flowMissed k
  | some v =>
    let x := flowEnc (s.rd b).toNat v
    match (if f32Nan x then none else if ext then some 0 else flowBin (s.fget b FLOW_H_LOW) (s.fget b FLOW_H_WIDTH) x) with
    | none => s.flowMissed k
    | some bin =>
      let s1 := if (s.flowOpen k).isSome then s else s.flowStart k
      match s1.flowOpen k with
      | some (slot, r) => s1.setFlowOpen k (some (slot, r.take ext x bin (s1.fget 0 FLOW_HOURS) (s1.fget 0 FLOW_CYCLES)))
      | none => s1

/-! ### Freezing, clearing and power-on (R487–R489) -/

/-- RECORDER_FREEZE with ON = 1. -/
def State.flowFreeze (s : State) : State := (if s.flowFrozen then s else s.flowFlush).fset 0 FLOW_STATUS_FROZEN 1

/-- A freeze ends: records that should have closed during it close. -/
def State.flowRelease (s : State) : State :=
  let due := s.flow.dueEnd
  let s1 : State := { s.fset 0 FLOW_STATUS_FROZEN 0 with flow := { s.flow with dueEnd := [] } }
  due.foldl (fun s k => s.flowClose k) s1

/-- CLEAR, while frozen: the answer is none otherwise (R489). -/
def State.flowClear (s : State) : Option State :=
  if s.flowFrozen then
    let n := (s.flow.clears + 1) % 0x100000000
    let s1 := (s.fset 0 FLOW_STATUS_H_FULL 0).fset 0 FLOW_STATUS_X_FULL 0
    let s2 : State := { s1 with flow := ⟨[], [], [], [], [], n, s.fget 0 FLOW_HOURS, s.fget 0 FLOW_CYCLES⟩ }
    some (s2.event 616 0 false n)
  else none

/-- The store at a power-on (R487): records that fail their check read BAD; the open records go on. -/
def State.flowPowerOn (s : State) (bad : List (Fin 1408)) : State :=
  let s1 := bad.foldl (fun s i =>
    let r := s.flowRec i.val
    if r.state = 0 ∨ r.state = 3 then s
    else
      let s1 := s.setFlowRec i.val { r with state := 3 }
      (s1.fset 0 FLOW_STATUS_BAD_SEEN 1).event 614 0 true
        (if i.val < 384 then 0x1000000 + i.val else 0x2000000 + (i.val - 384))) s
  let live := (s1.flow.store.filter (fun e => e.2.state == 1)).map (fun e => (flowKey (decide (384 ≤ e.1)) e.2.desc, e))
  let s2 : State := { s1 with flow := { s1.flow with work := [], stopped := [] } }
  (live.foldl (fun s e => s.setFlowOpen e.1 (some e.2)) s2).flowRelease

/-! ### The store window (R490) -/

/-- The words of a histogram record, its CRC field zero. -/
def FlowRec.histWords (r : FlowRec) : List Nat :=
  [r.state + 0x100 * r.desc + 0x10000 * r.seq, r.start, r.startCyc, r.last, r.lastCyc, r.samples, r.missed, r.low, r.width, r.src, r.cfg,
   0, 0, 0, 0, 0] ++ (List.range 32).map (fun k => nat0 r.bins k) ++ List.replicate 16 0

/-- The words of an extreme record, its CRC field zero. -/
def FlowRec.extWords (r : FlowRec) : List Nat :=
  [r.state + 0x100 * r.desc + 0x10000 * r.seq, r.start, r.startCyc, r.samples, r.min, r.minHours, r.minCyc, r.max, r.maxHours, r.maxCyc,
   r.missed, r.src, r.cfg, r.last, r.lastCyc, 0]

/-- The CRC of a record's words. -/
def wordsCrc (ws : List Nat) : Nat := crc32c ((ws.map (leBytes 4)).flatten)

/-- The word at an address of the store window. -/
def State.flowWord (s : State) (a : Nat) : Nat :=
  if a < 0x401000 then (match a - 0x400000 with
    | 0 => 1
    | 4 => s.flow.clears
    | 8 => s.flow.clearHours
    | 12 => s.flow.clearCycle
    | _ => 0)
  else if a < 0x419000 then
    let r := s.flowRec ((a - 0x401000) / 256)
    let i := (a - 0x401000) % 256 / 4
    if r.state = 0 then 0 else if i = 11 then wordsCrc r.histWords else r.histWords.getD i 0
  else if 0x420000 ≤ a ∧ a < 0x430000 then
    let r := s.flowRec (384 + (a - 0x420000) / 64)
    let i := (a - 0x420000) % 64 / 4
    if r.state = 0 then 0 else if i = 15 then wordsCrc r.extWords else r.extWords.getD i 0
  else 0

/-- Does the window's word at `a` belong to a BAD record, whose contents but for its STATE are not given? -/
def State.flowBad (s : State) (a : Nat) : Bool :=
  if 0x401000 ≤ a ∧ a < 0x419000 then (s.flowRec ((a - 0x401000) / 256)).state == 3
  else if 0x420000 ≤ a ∧ a < 0x430000 then (s.flowRec (384 + (a - 0x420000) / 64)).state == 3
  else false

end Sys2Proof.Machine
end

