-- ==== Sys2Proof/Machine/CanOps.lean ====
section
/-! DEFINITION. CAN FD field buses: bit timing, message objects, signals, pending frames and controller states (chapter "CAN FD field
buses"). -/

namespace Sys2Proof.Machine
open Sys2Proof

/-- The block of controller CANn, `n` counted from 0, and the header, payload and signal descriptors inside it. -/
def canB (n : Nat) : Nat := 0xC0000 + 0x4000 * n
def canObjB (n o : Nat) : Nat := canB n + 0x1800 + 0x10 * o
def canDataB (n o : Nat) : Nat := canB n + 0x2000 + 0x40 * o
def canSigB (n d : Nat) : Nat := canB n + 0x800 + 8 * d

/-- The states of R386. -/
def cInit : Nat := 0
def cIntegrating : Nat := 1
def cActive : Nat := 2
def cPassive : Nat := 3
def cBusOff : Nat := 4
def cRecovering : Nat := 5

def State.canState (s : State) (n : Nat) : Nat := s.fget (canB n) CAN_STATUS_STATE

def State.canObj (s : State) (n o : Nat) : CanObj := tabGet (fun _ => CanObj.reset) s.can.objs (128 * n + o)

def State.setCanObj (s : State) (n o : Nat) (x : CanObj) : State :=
  { s with can := { s.can with objs := tabSet (fun _ => CanObj.reset) s.can.objs (128 * n + o) x } }

/-- The sparse table of natural numbers reads zero where nothing is listed. -/
def canNat (t : Tab Nat) (k : Nat) : Nat := tabGet (fun _ => 0) t k

/-- The MODE in force, restricted operation in SAFE (R387, R400). -/
def State.canMode (s : State) (n : Nat) : Nat :=
  if s.fbit (canB n) CAN_STATUS_SAFE_FORCED then 1 else min (canNat s.can.mode n) 2

/-- An event of controller n (R405). -/
def canSrc (n k : Nat) : Nat := 416 + 8 * n + k

/-! ### Bit timing (R383, R384) -/

/-- The number of the first row of R384 that the settings fail, from 1; 0 none. Lengths are in minimum time quanta of 12.5 ns. -/
def State.canCheck (s : State) (n : Nat) : Nat :=
  let f := fun x => s.fget (canB n) x
  let seg1 := f CAN_NBT_NTSEG1 + 1
  let seg2 := f CAN_NBT_NTSEG2 + 1
  let bit := (1 + seg1 + seg2) * (f CAN_NBT_NBRP + 1)
  let dseg2 := f CAN_DBT_DTSEG2 + 1
  let dq := 1 + (f CAN_DBT_DTSEG1 + 1) + dseg2
  let dbrp := f CAN_DBT_DBRP + 1
  if bit < 80 ∨ 8000 < bit then 1
  else if seg1 < 2 ∨ seg2 < 2 ∨ seg2 < f CAN_NBT_NSJW + 1 then 2
  else if f CAN_CTRL_FD_EN = 1 ∧ f CAN_CTRL_BRS_EN = 1 ∧ (dq * dbrp > bit ∨ dq * dbrp < 16) then 3
  else if dseg2 < f CAN_DBT_DSJW + 1 then 4
  else if f CAN_CTRL_TDC_EN = 1 ∧ (2 < dbrp ∨ dbrp * dq < f CAN_DBT_TDCO) then 5
  else if f CAN_STATUS_FW_LOADED = 0 then 6
  else 0

/-! ### Pending frames (R394, R395) -/

def State.canPending (s : State) (n o : Nat) : Bool := s.fbit (canObjB n o) CAN_OBJ_STAT_PENDING

/-- PENDING and the object's bit in CANn_TXREQw. -/
def State.canSetPending (s : State) (n o : Nat) (v : Bool) : State :=
  (s.fsetB (canObjB n o) CAN_OBJ_STAT_PENDING v).fsetB (canB n) ⟨CAN_TXREQ.off + 4 * (o / 32), o % 32, 1⟩ v

/-- A frame of the object becomes pending; a frame still pending is replaced and its attempts count from the start. -/
def State.canPend (s : State) (n o : Nat) (rep : Bool) : State :=
  (s.setCanObj n o { s.canObj n o with attempts := 0, repeatDue := rep }).canSetPending n o true

/-- Every pending frame of a controller is withdrawn and counted (R386). -/
def State.canWithdraw (s : State) (n : Nat) : State :=
  (List.range 128).foldl (fun s o =>
    if s.canPending n o then (s.canSetPending n o false).finc (canB n) CAN_WITHDRAWN_CNT else s) s

/-- The data length of a code (R388). -/
def dlcBytes (fd : Bool) (dlc : Nat) : Nat :=
  if dlc ≤ 8 then dlc else if fd then [12, 16, 20, 24, 32, 48, 64].getD (dlc - 9) 64 else 8

/-- The place of a frame in the order of R394: the base identifier, then 11-bit before 29-bit, then the rest, then the number. -/
def State.canRank (s : State) (n o : Nat) : Nat :=
  let id := s.fget (canObjB n o) CAN_OBJ_ID
  let x := if s.fbit (canObjB n o) CAN_OBJ_ID_XTD then id / 2 ^ 18 * 2 ^ 19 + 2 ^ 18 + id % 2 ^ 18 else id % 2 ^ 11 * 2 ^ 19
  x * 128 + o

/-- The frame a controller offers: the first pending one in that order. -/
def State.canHead (s : State) (n : Nat) : Option Nat :=
  ((List.range 128).filter (fun o => s.canPending n o)).foldl (fun best o =>
    match best with
    | none => some o
    | some b => if s.canRank n o < s.canRank n b then some o else some b) none

/-- Is the object a send object in force, or a receive object in force? -/
def State.canActive (s : State) (n o : Nat) (send : Bool) : Bool :=
  s.fget (canObjB n o) CAN_OBJ_STAT_STATE == 1 && s.fbit (canObjB n o) CAN_OBJ_ID_DIR == send

/-- A payload byte. -/
def State.canByte (s : State) (n o i : Nat) : Nat := fieldGet (s.rd (canDataB n o + 4 * (i / 4))).toNat (8 * (i % 4)) 8

def State.setCanByte (s : State) (n o i v : Nat) : State :=
  let k := canDataB n o + 4 * (i / 4)
  s.wr k (BitVec.ofNat 32 (fieldPut (s.rd k).toNat (8 * (i % 4)) 8 v))

def State.canBytes (s : State) (n o len : Nat) : List Nat := (List.range len).map (fun i => s.canByte n o i)

/-! ### Signals (R391, R392) -/

/-- The bits of a descriptor's field, least significant first, as bit numbers 8·b + i. -/
def sigBits (order start len : Nat) : List Nat :=
  if order = 0 then (List.range len).map (fun j => start + j)
  else
    -- the most significant bit is bit i of byte b; the next lie below it, then in the following bytes from bit 7 down
    let p0 := start / 8 * 8 + (7 - start % 8)
    ((List.range len).map (fun j => let p := p0 + j; p / 8 * 8 + (7 - p % 8))).reverse

/-- The length of descriptor d's field: 32 and 64 bits for KINDs 10 and 11, else LENGTH held to 1–64. -/
def State.sigLen (s : State) (n d : Nat) : Nat :=
  match s.fget (canSigB n d) CAN_SIG_LAYOUT_KIND with
  | 2 => 32
  | 3 => 64
  | _ => max 1 (min 64 (s.fget (canSigB n d) CAN_SIG_LAYOUT_LENGTH))

/-- The bits of descriptor d. -/
def State.sigField (s : State) (n d : Nat) : List Nat :=
  sigBits (s.fget (canSigB n d) CAN_SIG_LAYOUT_ORDER) (s.fget (canSigB n d) CAN_SIG_LAYOUT_START) (s.sigLen n d)

/-- A descriptor in use whose bits lie within 64 bytes. -/
def State.sigUsed (s : State) (n d : Nat) : Bool :=
  s.fbit (canSigB n d) CAN_SIG_BIND_EN && (s.sigField n d).all (fun b => b < 512)

/-- The descriptor of signal `sig` of object `o`: the lowest-numbered one (R391). -/
def State.sigOf (s : State) (n o sig : Nat) : Option Nat :=
  (List.range 512).find? (fun d => s.sigUsed n d && s.fget (canSigB n d) CAN_SIG_BIND_OBJECT == o && s.fget (canSigB n d) CAN_SIG_BIND_SIG == sig)

/-- The bits of a payload that a field takes, as a number. -/
def bitsOf (bytes : List Nat) : List Nat → Nat
  | [] => 0
  | b :: bs => (if (bytes.getD (b / 8) 0).testBit (b % 8) then 1 else 0) + 2 * bitsOf bytes bs

/-- A raw field as a point VALUE: zero-extended, sign-extended, or a float's pattern (R392). -/
def sigValue (kind len raw : Nat) : Nat := if kind = 1 then ofSigned 64 (toSigned len raw) else raw

/-- The value of descriptor d now. -/
def State.sigNow (s : State) (n d : Nat) : Nat :=
  let o := s.fget (canSigB n d) CAN_SIG_BIND_OBJECT
  sigValue (s.fget (canSigB n d) CAN_SIG_LAYOUT_KIND) (s.sigLen n d) (bitsOf (s.canBytes n o 64) (s.sigField n d))

/-- The value of a signal: the payload's, or the value kept from before a frame that held only part of it. -/
def State.sigRead (s : State) (n o sig : Nat) : Nat :=
  match s.sigOf n o sig with
  | none => 0
  | some d => match s.can.keep.find? (fun e => e.1 == 512 * n + d) with
    | some e => e.2
    | none => s.sigNow n d

/-- A value reduced to a field: integers saturate at the signal's limits, floats keep their pattern. -/
def sigRaw (kind len : Nat) (v : Nat) : Nat :=
  match kind with
  | 0 => min v (2 ^ len - 1)
  | 1 => ofSigned len (clampI (-(2 ^ (len - 1))) (2 ^ (len - 1) - 1) (toSigned 64 v))
  | _ => v % 2 ^ len

/-- A send object's signal takes a value in its payload; `changed` tells that a bit of it changed (R392–R394). -/
def State.sigWrite (s : State) (n o sig v : Nat) : State :=
  match s.sigOf n o sig with
  | none => s
  | some d =>
    let raw := sigRaw (s.fget (canSigB n d) CAN_SIG_LAYOUT_KIND) (s.sigLen n d) v
    let fld := s.sigField n d
    if bitsOf (s.canBytes n o 64) fld = raw % 2 ^ fld.length then s
    else
      let s1 := (fld.zip (List.range fld.length)).foldl (fun s e =>
        s.setCanByte n o (e.1 / 8) (fieldPut (s.canByte n o (e.1 / 8)) (e.1 % 8) 1 (raw / 2 ^ e.2))) s
      s1.setCanObj n o { s1.canObj n o with changed := true }

/-- Does a signal's write reach its object: a send object in force, its domain out of reset? -/
def State.sigTakes (s : State) (n o : Nat) : Bool :=
  !s.isolated .can && s.fbit (canObjB n o) CAN_OBJ_ID_DIR && s.fget (canObjB n o) CAN_OBJ_STAT_STATE != 0

/-- A commit or a supervisor gives a send signal a value (R393). -/
def State.canStage (s : State) (n o sig v : Nat) : State := if s.sigTakes n o then s.sigWrite n o sig v else s

/-! ### Releases, repetition and reconfiguration (R394–R398) -/

/-- The divider of a send object; 0 acts as 1. -/
def State.canDiv (s : State) (n o : Nat) : Nat := max 1 (s.fget (canObjB n o) CAN_OBJ_CTL_DIV)

/-- A controller that takes part on the bus with its objects. -/
def State.canRuns (s : State) (n : Nat) : Bool := !s.isolated .can && s.canState n != cInit

/-- The release of a cycle reaches one send object (R394); a shed gallery's objects are not released (R424), and one whose grant the lane has
lost since the cycle's tick is dropped (R20). -/
def State.canReleaseOne (s : State) (l : Lane) (cycle n o : Nat) : State :=
  let g := s.canOwner n o
  if !s.canActive n o true || !(s.granted l g || s.hadGrant l cycle g) || s.galShed g then s
  else
    let cyclic := s.fget (canObjB n o) CAN_OBJ_CTL_TXMODE == 1
    let d := s.canDiv n o
    let due := if cyclic then (cycle + d - s.fget (canObjB n o) CAN_OBJ_CTL_PHASE % d) % d == 0 else (s.canObj n o).changed
    if !due then s
    else if !s.granted l g then s.grantReject l g
    else
      let s1 := s.canPend n o false
      if cyclic then (s1.setCanObj n o { s1.canObj n o with relAt := s1.now }).fset (canObjB n o) CAN_OBJ_STAT_REPEATING 0 else s1

/-- The release of cycle `cycle` by lane `l` (R394, R396). -/
def State.canRelease (s : State) (l : Lane) (cycle : Nat) : State :=
  (List.range 4).foldl (fun s n => if s.canRuns n then (List.range 128).foldl (fun s o => s.canReleaseOne l cycle n o) s else s) s

/-- An object is enabled anew (R390, R392): it has heard nothing, and a receive object's payload holds zeros. -/
def State.canEnable (s : State) (n o : Nat) : State :=
  let s1 := if s.fbit (canObjB n o) CAN_OBJ_ID_DIR then s else s.regClear (fun k => decide (canDataB n o ≤ k ∧ k < canDataB n o + 0x40))
  ((s1.setCanObj n o .reset).fset (canObjB n o) CAN_OBJ_STAT_STATE 1).fset (canObjB n o) CAN_OBJ_STAT_NEVER 1

/-- A header or a descriptor of an object has changed (R398): an ACTIVE one is reconfigured until the next tick and its pending
frame withdrawn; a DISABLED one is enabled with its EN. -/
def State.canChanged (s : State) (n o : Nat) : State :=
  match s.fget (canObjB n o) CAN_OBJ_STAT_STATE with
  | 0 => if s.fbit (canObjB n o) CAN_OBJ_ID_EN then s.canEnable n o else s
  | 1 => (s.canSetPending n o false).fset (canObjB n o) CAN_OBJ_STAT_STATE 2
  | _ => s

/-- A tick ends every reconfiguration (R398) and the input latch takes every received payload (R390). -/
def State.canReconfigEnd (s : State) : State :=
  (List.range 4).foldl (fun s n => (List.range 128).foldl (fun s o =>
    let s1 := if (s.canObj n o).fresh then s.setCanObj n o { s.canObj n o with fresh := false } else s
    if s1.fget (canObjB n o) CAN_OBJ_STAT_STATE = 2 then
      s1.fset (canObjB n o) CAN_OBJ_STAT_STATE (if s1.fbit (canObjB n o) CAN_OBJ_ID_EN then 1 else 0)
    else s1) s) s

/-! ### Controller states (R386, R400) -/

/-- The state event of a controller (R405, k = 0). -/
def State.canStateEvent (s : State) (n : Nat) : State :=
  s.event (canSrc n 0) 0 (s.canState n != cActive) (s.canState n * 2 ^ 29 + s.fget (canB n) CAN_ERR_TEC * 2 ^ 16 +
    s.fget (canB n) CAN_ERR_REC * 2 ^ 8 + s.fget (canB n) CAN_ERR_LAST_ERR)

/-- The error counts take new values, and the state follows them (R386). -/
def State.canCounts (s : State) (n tec rec : Nat) : State :=
  let st := s.canState n
  let s1 := (s.fset (canB n) CAN_ERR_TEC (min tec 256)).fset (canB n) CAN_ERR_REC (min rec 255)
  if st ≠ cActive ∧ st ≠ cPassive then s1
  else if 255 < tec then
    let s2 := ((s1.fset (canB n) CAN_STATUS_STATE cBusOff).finc (canB n) CAN_BUSOFF_CNT).canWithdraw n
    let s3 := s2.canStateEvent n
    if s.fbit (canB n) CAN_CTRL_AUTO_RECOVER then s3.fset (canB n) CAN_STATUS_STATE cRecovering else s3
  else if st = cActive ∧ (127 < tec ∨ 127 < rec) then (s1.fset (canB n) CAN_STATUS_STATE cPassive).canStateEvent n
  else if st = cPassive ∧ tec ≤ 127 ∧ rec ≤ 127 then (s1.fset (canB n) CAN_STATUS_STATE cActive).canStateEvent n
  else s1

/-- INIT := 0 (R384): the controller integrates when the settings hold, and stays in INIT otherwise. -/
def State.canLeaveInit (s : State) (n : Nat) : State :=
  if s.canState n ≠ cInit then s
  else
    let k := s.canCheck n
    if k = 0 then ((s.fset (canB n) CAN_STATUS_STATE cIntegrating).fset (canB n) CAN_STATUS_CONFIG_ERR 0)
    else ((s.fset (canB n) CAN_STATUS_CONFIG_ERR 1).fset (canB n) CAN_CTRL_INIT 1).event (canSrc n 5) 0 true k

/-- INIT := 1 (R386). -/
def State.canEnterInit (s : State) (n : Nat) : State :=
  if s.canState n = cInit then s else (s.canWithdraw n).fset (canB n) CAN_STATUS_STATE cInit

/-- A change of MODE takes effect at once in INIT and BUS_OFF, else at the next bus idle (R387). -/
def State.canModeTake (s : State) (n : Nat) : State :=
  let m := s.fget (canB n) CAN_CTRL_MODE
  { s with can := { s.can with mode := tabSet (fun _ => 0) s.can.mode n m } }

/-- A write of CANn_CTRL has been made. -/
def State.canCtrlWritten (s : State) (n : Nat) : State :=
  let s1 := if s.fbit (canB n) CAN_CTRL_INIT then s.canEnterInit n else s.canLeaveInit n
  let s2 := if s.canState n = cInit ∨ s1.canState n = cInit ∨ s1.canState n = cBusOff then s1.canModeTake n else s1
  if s2.canState n = cBusOff ∧ s2.fbit (canB n) CAN_CTRL_AUTO_RECOVER then s2.fset (canB n) CAN_STATUS_STATE cRecovering else s2

/-- RECOVER := 1 (R386). -/
def State.canRecover (s : State) (n : Nat) : State :=
  if s.canState n = cBusOff then s.fset (canB n) CAN_STATUS_STATE cRecovering else s

/-- CLR_STATS := 1 (R402): the counters clear. -/
def State.canClrStats (s : State) (n : Nat) : State :=
  let s1 := s.regClear (fun k => decide (canB n + 0x40 ≤ k ∧ k < canB n + 0x68))
  s1

/-- A request bit of CANn_TXREQw (R394): the object's frame becomes pending; in BUS_OFF it counts as withdrawn (R401). -/
def State.canTxreq (s : State) (n o : Nat) : State :=
  if !s.canActive n o true || !s.canRuns n then s
  else if s.canState n = cBusOff then s.finc (canB n) CAN_WITHDRAWN_CNT
  else s.canPend n o false

/-- A CAN reset (R400): everything clears but TERM. -/
def State.canReset (s : State) : State :=
  let terms := (List.range 4).map (fun n => s.fget (canB n) CAN_CTRL_TERM)
  let s1 := s.regClear (fun k => decide (0xC0000 ≤ k ∧ k ≤ 0xCFFFF))
  let s2 : State := { s1 with can := .reset }
  (List.range 4).foldl (fun s n => s.fset (canB n) CAN_CTRL_TERM (terms.getD n 0)) s2

/-- SAFE (R400): every controller enters restricted operation. -/
def State.canSafe (s : State) : State := (List.range 4).foldl (fun s n => s.fset (canB n) CAN_STATUS_SAFE_FORCED 1) s

/-- SAFE is left. -/
def State.canUnsafe (s : State) : State := (List.range 4).foldl (fun s n => s.fset (canB n) CAN_STATUS_SAFE_FORCED 0) s

/-- A lane has loaded the controllers' firmware and configuration (R400): each controller follows its INIT, and objects enabled come
into use. -/
def State.canLoaded (s : State) (version : Nat) : State :=
  (List.range 4).foldl (fun s n =>
    let s1 := (s.fset (canB n) CAN_STATUS_FW_LOADED 1).fset (canB n) CAN_STATUS_FW_VERSION version
    let s2 := (List.range 128).foldl (fun s o => if s.fget (canObjB n o) CAN_OBJ_STAT_STATE = 0 then s.canChanged n o else s) s1
    s2.canCtrlWritten n) s

end Sys2Proof.Machine
end

