-- ==== Sys2Proof/Machine/LoopOps.lean ====
section
/-! DEFINITION. The loop engine: descriptors, sources and destinations, the control law, holds, modes, tests and captures (chapter "Loop
engine"). -/

namespace Sys2Proof.Machine
open Sys2Proof

/-! ### Slots -/

/-- The descriptor and the state registers of slot `q` in lane `l`, and the control block's base. -/
def loopD (l : Lane) (q : Nat) : Nat := laneKey l (0x190000 + 0x40 * q)
def loopS (l : Lane) (q : Nat) : Nat := laneKey l (0x188000 + 0x20 * q)
def loopC (l : Lane) : Nat := laneKey l 0
def capB (l : Lane) (b : Nat) : Nat := laneKey l (0x180100 + 0x10 * b)

/-- The states of R322. -/
def lsOff : Nat := 0
def lsManual : Nat := 1
def lsAuto : Nat := 2
def lsTrack : Nat := 3

def State.loopSt (s : State) (l : Lane) : LoopSt := (s.lane l).loop

def State.setLoopSt (s : State) (l : Lane) (x : LoopSt) : State := s.setLane l { s.lane l with loop := x }

def State.loopX (s : State) (l : Lane) (q : Nat) : LoopX := tabGet (fun _ => LoopX.reset) (s.loopSt l).slots q

def State.setLoopX (s : State) (l : Lane) (q : Nat) (x : LoopX) : State :=
  let t := s.loopSt l
  s.setLoopSt l { t with slots := tabSet (fun _ => LoopX.reset) t.slots q x }

def State.loopState (s : State) (l : Lane) (q : Nat) : Nat := s.fget (loopS l q) LOOPS_STAT_STATE

def State.loopOn (s : State) (l : Lane) (q : Nat) : Bool := s.fbit (loopD l q) LOOP_CFG_EN

/-- The slots of lane `l` whose `LOOP_CFG` is not zero, ascending: every enabled slot is among them. -/
def State.loopSlots (s : State) (l : Lane) : List Nat :=
  (s.regs.filter (fun e => laneKey l 0x190000 ≤ e.1 && e.1 < laneKey l 0x1A0000 && (e.1 - laneKey l 0x190000) % 0x40 == 0)).map
    (fun e => (e.1 - laneKey l 0x190000) / 0x40)

/-- The lane that runs slot `q`: the active lane in PAIRED, the lane of its gallery's grant in WIDE, none in other modes or for a shed
gallery (R311, R331, R424). -/
def State.loopLane (s : State) (q : Nat) : Option Lane :=
  match s.mode with
  | .paired => if s.runsCycles s.hg.active then some s.hg.active else none
  | .wide => match s.grant (s.loopOwner q) with
    | some l => if s.runsCycles l && !s.galShed (s.loopOwner q) then some l else none
    | none => none
  | _ => none

/-- The forced value of an item of a slot: 0 SP, 1 PV, 2 OUT (R325). -/
def State.loopForced (s : State) (q item : Nat) : Option Nat :=
  (s.forces.find? (fun f => f.ptype == 4 + item && (match (s.point f.index).bind with
    | .loop k i => k.val == q && i.val == item
    | _ => false))).map (fun f => f.value % 0x100000000)

/-- A force stands on the point of an analogue channel, or of a CAN signal (R369, R296). -/
def State.aioForced (s : State) (c : Nat) : Bool :=
  s.forces.any (fun f => f.ptype == 7 && decide ((s.point f.index).bind = .aio (Fin.ofNat 16 c)))

def State.canForced (s : State) (n o g : Nat) : Bool :=
  s.forces.any (fun f => f.ptype == 8 && decide ((s.point f.index).bind = .can (Fin.ofNat 4 n) (Fin.ofNat 128 o) (Fin.ofNat 512 g)))

/-! ### Sources (R315, R317, R323) -/

/-- A VALUE of a data type of R271 as binary32 (R315). -/
def valueF32 (dtype v : Nat) : Nat :=
  if dtype = 0 then f32Of ⟨(v % 2 : Nat), 1⟩
  else if dtype ≤ 4 ∨ dtype = 15 then f32Of ⟨toSigned 64 v, 1⟩
  else if dtype ≤ 12 then f32Of ⟨(v % 2 ^ 64 : Nat), 1⟩
  else if dtype = 13 then v % 0x100000000
  else match f64? v with
    | some q => f32Of q
    | none => 0x7FC00000

/-- A binary32 that is no NaN as a VALUE of an integer or float encoding: rounded to nearest, held at the encoding's limits (R316). `kind`
as R391. -/
def f32Field (kind len x : Nat) : Nat :=
  let neg := decide (x % 0x100000000 ≥ 0x80000000)
  match kind, f32? x with
  | 0, some q => (clampI 0 (2 ^ len - 1) q.round).toNat
  | 0, none => if neg then 0 else 2 ^ len - 1
  | 1, some q => ofSigned 64 (clampI (-(2 ^ (len - 1))) (2 ^ (len - 1) - 1) q.round)
  | 1, none => if neg then ofSigned 64 (-(2 ^ (len - 1))) else 2 ^ (len - 1) - 1
  | 2, _ => x
  | _, some q => f64Of q
  | _, none => if neg then 0xFFF0000000000000 else 0x7FF0000000000000

/-- The VALUE a destination's encoding takes from an output; what a NaN becomes in another encoding is not given, so it is a free value
(R316). -/
def State.outField (s : State) (kind len x : Nat) : Nat × State :=
  if f32Nan x && kind != 2 then
    let a := s.free
    let b := a.2.free
    (a.1.toNat + 0x100000000 * b.1.toNat, b.2)
  else (f32Field kind len x, s)

/-- The value of an entry in the image of the newest cycle lane `l` has released (R287). -/
def State.relVal (s : State) (l : Lane) (e : Nat) : Nat :=
  let c := s.cyc l
  match (s.point e).ptype with
  | 2 => canNat c.relOut e
  | 3 => canNat c.relVars e
  | _ => canNat c.relIn e

/-- The data type code of the layout of a bound point (R304, R324, R360, R370, R392). -/
def State.pointCode (s : State) (e : Nat) : Nat :=
  match (s.point e).bind with
  | .loop _ _ => 13
  | .aio _ => 13
  | .can n o g => match s.sigOf n.val o.val g.val with
    | some d => [8, 4, 13, 14].getD (s.fget (canSigB n.val d) CAN_SIG_LAYOUT_KIND) 8
    | none => 8
  | _ => (s.point e).dtype

/-- What a slot's source gives at the sample instant: its value as binary32, or a cause of R323. -/
def State.loopSource (s : State) (l : Lane) (q : Nat) : Nat × Nat :=
  let i := s.fget (loopD l q) LOOP_SRC_INDEX
  let g := s.loopOwner q
  match s.fget (loopD l q) LOOP_SRC_KIND with
  | 0 => match (s.loopX l q).pv with
    | some v => (v, 0)
    | none => (0, 5)
  | 1 =>
    let m := i % 32
    if m = 0 ∨ 16 < m ∨ s.isolated .aio = true ∨ aioIn (s.aioMode (m - 1)) = false then (0, 1)
    else if s.fbit (aioB (m - 1)) AIO_CH_STATUS_FAULT then (0, 2)
    else if s.aioOwner (m - 1) ≠ g then (0, 3)
    else (s.fget (aioB (m - 1)) AIO_CH_VALUE, 0)
  | 2 =>
    let n := fieldGet i 16 2
    let o := fieldGet i 8 7
    match s.sigOf n o (i % 256) with
    | none => (0, 1)
    | some d =>
      if s.isolated .can || s.fbit (canObjB n o) CAN_OBJ_ID_DIR then (0, 1)
      else if s.canOwner n o ≠ g then (0, 3)
      else (valueF32 ([8, 4, 13, 14].getD (s.fget (canSigB n d) CAN_SIG_LAYOUT_KIND) 8) (s.sigRead n o (i % 256)), 0)
  | 3 =>
    let e := i % 8192
    if (s.point e).ptype = 0 then (0, 1)
    else if s.pointOwner e ≠ g then (0, 3)
    else (valueF32 (s.pointCode e) (s.relVal l e), 0)
  | _ => (0, 1)

/-! ### Destinations (R316, R318, R323) -/

/-- The setpoint in use of a slot, from its force or its last write (R318, R325). -/
def State.loopR (s : State) (l : Lane) (q : Nat) : Nat := (s.loopForced q 0).getD (s.loopX l q).sp

/-- The destination's present value, where it can be read back, and `LOOPs_OUT` otherwise (R322). -/
def State.loopPresent (s : State) (l : Lane) (q : Nat) : Nat :=
  let i := s.fget (loopD l q) LOOP_DST_INDEX
  let last := s.fget (loopS l q) LOOPS_OUT
  match s.fget (loopD l q) LOOP_DST_KIND with
  | 1 => if 0 < i % 32 ∧ i % 32 ≤ 16 then s.fget (aioB (i % 32 - 1)) AIO_CH_VALUE else last
  | 2 => match s.sigOf (fieldGet i 16 2) (fieldGet i 8 7) (i % 256) with
    | some d => valueF32 ([8, 4, 13, 14].getD (s.fget (canSigB (fieldGet i 16 2) d) CAN_SIG_LAYOUT_KIND) 8)
        (s.sigRead (fieldGet i 16 2) (fieldGet i 8 7) (i % 256))
    | none => last
  | 3 => s.loopR l (i % 1024)
  | _ => last

/-- A slot's destination takes a value; nothing when the write is refused. -/
def State.loopDest (s : State) (l : Lane) (q u : Nat) : Option State :=
  let i := s.fget (loopD l q) LOOP_DST_INDEX
  let g := s.loopOwner q
  match s.fget (loopD l q) LOOP_DST_KIND with
  | 0 => some s
  | 1 =>
    let c := i % 32 - 1
    if i % 32 = 0 ∨ 16 < i % 32 ∨ s.aioOwner c ≠ g ∨ s.granted l g = false ∨ s.aioTakes c = false then none
    else some (if s.aioForced c then s else s.aioWrite c u)
  | 2 =>
    let n := fieldGet i 16 2
    let o := fieldGet i 8 7
    match s.sigOf n o (i % 256) with
    | none => none
    | some d =>
      if s.canOwner n o ≠ g ∨ s.granted l g = false ∨ s.sigTakes n o = false then none
      else some (if s.canForced n o (i % 256) then s
        else
          let v := s.outField (s.fget (canSigB n d) CAN_SIG_LAYOUT_KIND) (s.sigLen n d) u
          v.2.sigWrite n o (i % 256) v.1)
  | 3 =>
    let k := i % 1024
    if s.loopOwner k ≠ g ∨ s.loopLane k ≠ some l ∨ s.granted l g = false then none
    else some (s.setLoopX l k { s.loopX l k with sp := u })
  | _ => none

/-- A write of a slot to an output of its gallery that the lane has no grant of is dropped by the shared block (R20, R316). -/
def State.loopReject (s : State) (l : Lane) (q : Nat) : State :=
  let i := s.fget (loopD l q) LOOP_DST_INDEX
  let g := s.loopOwner q
  let own : Bool := match s.fget (loopD l q) LOOP_DST_KIND with
    | 1 => decide (0 < i % 32 ∧ i % 32 ≤ 16) && s.aioOwner (i % 32 - 1) == g
    | 2 => (s.sigOf (fieldGet i 16 2) (fieldGet i 8 7) (i % 256)).isSome && s.canOwner (fieldGet i 16 2) (fieldGet i 8 7) == g
    | _ => false
  if own && !s.granted l g then s.grantReject l g else s

/-- A cascade holds on slot `q`: an enabled slot of the lane has it as its destination (R318). -/
def State.loopInner (s : State) (l : Lane) (q : Nat) : Bool :=
  (s.loopSlots l).any (fun k => s.loopOn l k && s.fget (loopD l k) LOOP_DST_KIND == 3 && s.fget (loopD l k) LOOP_DST_INDEX % 1024 == q)

/-! ### Tests and captures (R327–R330) -/

/-- An entry not yet written reads 0x7FC0_0000 (R328). -/
def capDefault (_ : Nat) : Nat := 0x7FC00000

def State.capGet (s : State) (l : Lane) (b i : Nat) : Nat := tabGet capDefault (s.loopSt l).cap (16384 * b + i)

/-- Entry `i` of a buffer that a test names takes a value; 15 names no buffer. Where both names are one buffer it keeps u. -/
def State.capPut (s : State) (l : Lane) (b i v : Nat) : State :=
  if b = 15 ∨ 16384 ≤ i then s
  else
    let t := s.loopSt l
    (s.setLoopSt l { t with cap := tabSet capDefault t.cap (16384 * b + i) v }).fset (capB l b) LOOP_CAP_STATUS_FILL (i + 1)

/-- The taps of the feedback polynomial of order n (R328), as a mask of stages 1–n. -/
def prbsTaps (n : Nat) : List Nat :=
  match n with
  | 7 => [7, 6]
  | 8 => [8, 6, 5, 4]
  | 9 => [9, 5]
  | 10 => [10, 7]
  | 11 => [11, 9]
  | 12 => [12, 6, 4, 1]
  | 13 => [13, 4, 3, 1]
  | 14 => [14, 10, 6, 1]
  | _ => [15, 14]

/-- One step of the shift register: stage 1 takes the sum of the tapped stages, each stage the one before it; stage k is bit k − 1. -/
def prbsStep (n reg : Nat) : Nat :=
  let fb := (prbsTaps n).foldl (fun x k => (x + fieldGet reg (k - 1) 1) % 2) 0
  (2 * reg + fb) % 2 ^ n

/-- The signal x_i of a test (R328); 0 while the test does not run, and from i = 16,384 on. -/
def LoopTest.value (t : LoopTest) : Frac :=
  match f32? t.amp with
  | none => Frac.zero
  | some a =>
    if !t.running || 16384 ≤ t.idx then Frac.zero
    else match t.signal % 16 with
      | 1 => if t.arg = 0 ∨ t.idx < t.arg then a else Frac.zero
      | 2 => if (t.reg).testBit (t.arg % 256 - 1) then a else a.neg
      | 3 => a.mul ⟨sinTurns (t.phi * 2 ^ 18 : Nat), 2 ^ 48⟩
      | _ => Frac.zero

/-- The test after one sample instant: its index, its shift register and its phase go on. -/
def LoopTest.next (t : LoopTest) : LoopTest :=
  let i := t.idx + 1
  let n := t.arg % 256
  let reg := if t.signal % 16 = 2 ∧ i % max 1 (t.arg / 0x10000) = 0 then prbsStep n t.reg else t.reg
  let f0 : Int := (t.arg / 0x10000 : Nat)
  let f1 : Int := (t.arg % 0x10000 : Nat)
  -- f_i / 65,536 turns in units of 2^-30 turns
  let phi := if t.signal % 16 = 3 then (((t.phi : Int) + f0 * 16384 + (f1 - f0) * t.idx) % 2 ^ 30).toNat else t.phi
  { t with idx := i, reg := reg, phi := phi }

/-- The buffers a test records into. -/
def LoopTest.bufs (t : LoopTest) : List Nat := [t.buffer % 16, t.buffer / 16 % 16].filter (fun b => b != 15)

/-- The test of a slot ends with an END code (R329): event 548. -/
def State.testEnd (s : State) (l : Lane) (q code : Nat) : State :=
  let x := s.loopX l q
  match x.test with
  | none => s
  | some t =>
    let s1 := (s.setLoopX l q { x with test := none }).fset (loopS l q) LOOPS_STAT_TEST 0
    (t.bufs.foldl (fun s b => (s.fset (capB l b) LOOP_CAP_STATUS_STATE 3).fset (capB l b) LOOP_CAP_STATUS_END code) s1).event 548 0 false
      (q * 0x10000 + t.buffer * 256 + code)

/-- A test accepted at least 10 µs ago begins at this sample instant (R328). -/
def State.testBegin (s : State) (l : Lane) (q frame : Nat) : State :=
  let x := s.loopX l q
  match x.test with
  | none => s
  | some t =>
    if t.running ∨ s.now < t.since + 10000 then s
    else
      let s1 := s.setLoopX l q { x with test := some { t with running := true } }
      t.bufs.foldl (fun s b => (s.fset (capB l b) LOOP_CAP_STATUS_STATE 2).fset (capB l b) LOOP_CAP_START frame) s1

/-- A test's entry `i` is recorded: y and u into the buffers named; after entry 16,383 the test is complete. -/
def State.testRecord (s : State) (l : Lane) (q i y u : Nat) : State :=
  match (s.loopX l q).test with
  | none => s
  | some t =>
    let s1 := (s.capPut l (t.buffer % 16) i y).capPut l (t.buffer / 16 % 16) i u
    if i = 16383 then s1.testEnd l q 1 else s1

/-- The test of a slot has met a sample instant. -/
def State.testStep (s : State) (l : Lane) (q : Nat) : State :=
  let x := s.loopX l q
  match x.test with
  | some t => if t.running then s.setLoopX l q { x with test := some t.next } else s
  | none => s

/-! ### Modes (R322) -/

/-- A slot changes state; a test on it ends when the slot leaves its mode (R329). -/
def State.loopGo (s : State) (l : Lane) (q st : Nat) : State :=
  if s.loopState l q = st then s
  else
    let s1 := s.fset (loopS l q) LOOPS_STAT_STATE st
    s1.testEnd l q 3

/-- To MANUAL, holding the last output; MODE := 0. -/
def State.loopManual (s : State) (l : Lane) (q : Nat) : State :=
  let s1 := (s.fset (loopD l q) LOOP_CFG_MODE 0).setLoopX l q { s.loopX l q with man := s.fget (loopS l q) LOOPS_OUT, preset := 0 }
  s1.loopGo l q lsManual

/-- To AUTO, with a preset at the next sample (R320). -/
def State.loopAuto (s : State) (l : Lane) (q preset : Nat) : State :=
  (s.setLoopX l q { s.loopX l q with preset := preset }).loopGo l q lsAuto

/-- EN or MODE has been written: the slot follows (R322). -/
def State.loopCfg (s : State) (l : Lane) (q : Nat) : State :=
  let st := s.loopState l q
  let auto := s.fbit (loopD l q) LOOP_CFG_MODE
  if !s.loopOn l q then
    if st = lsOff then s
    else
      let s1 := s.loopGo l q lsOff
      let s2 := s1.setLoopX l q { s1.loopX l q with pv := none, outs := [], job := none, skipped := 0, preset := 0 }
      (s2.fset (loopS l q) LOOPS_STAT_HOLD 0).fset (loopS l q) LOOPS_STAT_CAUSE 0
  else if st = lsOff then
    let s1 := s.fset (loopS l q) LOOPS_OUT (s.loopPresent l q)
    if auto then s1.loopAuto l q 1 else s1.loopManual l q
  else if auto && st == lsManual then s.loopAuto l q 1
  else if !auto && st != lsManual then s.loopManual l q
  else s

/-- A parameter of the law, or the schedule, has been written: in AUTO the next sample is preset (R320). -/
def State.loopParam (s : State) (l : Lane) (q : Nat) : State :=
  let x := s.loopX l q
  if s.loopState l q = lsAuto ∧ x.preset = 0 then s.setLoopX l q { x with preset := 1 } else s

/-- A slot's owner has changed (R132, R322). -/
def State.loopOwned (s : State) (l : Lane) (q : Nat) : State :=
  if s.loopState l q = lsOff then s else (s.testEnd l q 3).loopManual l q

/-- The engine of a lane stops (R331): computations and tests end. -/
def State.loopStop (s : State) (l : Lane) : State :=
  let s1 := (s.loopSt l).slots.foldl (fun s e =>
    let s1 := s.testEnd l e.1 3
    s1.setLoopX l e.1 { s1.loopX l e.1 with job := none, skipped := 0 }) s
  (s1.setLoopSt l { s1.loopSt l with free := [] }).fset (loopC l) LOOP_CTRL_RUNNING 0

/-- The engine of a lane resumes (R331): each slot in AUTO with the preset from its destination's present value. -/
def State.loopResume (s : State) (l : Lane) : State :=
  let s1 := (s.loopSlots l).foldl (fun s q => if s.loopState l q = lsAuto then s.setLoopX l q { s.loopX l q with preset := 2 } else s) s
  s1.fset (loopC l) LOOP_CTRL_RUNNING 1

/-- The slots of a lane take the descriptors of the image (R331): a slot it does not define has EN = 0. -/
def State.loopLoad (s : State) (l : Lane) (i : ProgImage) : State :=
  let s1 := s.regClear (fun k => decide (laneKey l 0x190000 ≤ k ∧ k < laneKey l 0x1A0000))
  let s2 := i.loops.foldl (fun s d => (d.2.take 15).zip (List.range 15) |>.foldl (fun s e => s.wr (loopD l d.1.val + 4 * e.2) e.1) s) s1
  (i.regs.filter (fun e => 0x184000 ≤ e.1 && e.1 < 0x188000)).foldl (fun s e => s.wr (laneKey l e.1) e.2)
    (s2.regClear (fun k => decide (laneKey l 0x184000 ≤ k ∧ k < laneKey l 0x188000)))

/-- A COLD or WARM start (R331, R333): slots and tables from the image, slot state at its reset values but for the last outputs. -/
def State.loopStart (s : State) (l : Lane) (i : ProgImage) : State :=
  let s0 := s.loopStop l
  let outs := (List.range 1024).map (fun q => (q, s0.fget (loopS l q) LOOPS_OUT))
  let s1 := s0.regClear (fun k => decide (laneKey l 0x188000 ≤ k ∧ k < laneKey l 0x190000))
  let s2 := outs.foldl (fun s e => s.fset (loopS l e.1) LOOPS_OUT e.2) (s1.setLoopSt l { s1.loopSt l with slots := [] })
  let s3 := s2.loopLoad l i
  (i.loops.map (fun d => d.1.val)).foldl (fun s q => s.loopCfg l q) (s3.fset (loopC l) LOOP_CTRL_RUNNING 1)

/-! ### The control law (R319–R321) -/

/-- The scheduled gains, the limits and the times of a slot; nothing when cause 0x04 applies (R323). -/
structure LoopPar where
  kp : Frac
  ti : Frac
  td : Frac
  umin : Frac
  umax : Frac
  rate : Frac
  tlead : Frac
  tlag : Frac

def State.loopPar (s : State) (l : Lane) (q : Nat) : Option LoopPar :=
  let f := fun x => f32? (s.fget (loopD l q) x)
  match f LOOP_KP, f LOOP_TI, f LOOP_TD, f LOOP_UMIN, f LOOP_UMAX, f LOOP_RATE, f LOOP_TLEAD, f LOOP_TLAG with
  | some kp, some ti, some td, some lo, some hi, some rate, some lead, some lag =>
    if hi.lt lo || [ti, td, rate, lead, lag].any (fun x => decide (x.num < 0)) then none else some ⟨kp, ti, td, lo, hi, rate, lead, lag⟩
  | _, _, _, _, _, _, _, _ => none

/-- Row `j` of a schedule table: V and the factors. -/
def State.schedRow (s : State) (l : Lane) (t j : Nat) : Option (Frac × Frac × Frac × Frac) :=
  let b := laneKey l (0x184000 + 0x100 * t + 0x10 * j)
  match f32? (s.fget b LOOP_SCH_V), f32? (s.fget b LOOP_SCH_FK), f32? (s.fget b LOOP_SCH_FI), f32? (s.fget b LOOP_SCH_FD) with
  | some v, some k, some i, some d => some (v, k, i, d)
  | _, _, _, _ => none

/-- A valid table's rows: all finite, V strictly ascending. -/
def State.schedRows (s : State) (l : Lane) (t : Nat) : Option (List (Frac × Frac × Frac × Frac)) :=
  let rows := (List.range 9).filterMap (fun j => s.schedRow l t j)
  if rows.length = 9 && (rows.zip (rows.drop 1)).all (fun e => e.1.1.lt e.2.1) then some rows else none

/-- Linear interpolation of the factors at `x` between rows; the ends hold outside them. -/
def schedAt (x : Frac) : List (Frac × Frac × Frac × Frac) → Frac × Frac × Frac
  | [] => (⟨1, 1⟩, ⟨1, 1⟩, ⟨1, 1⟩)
  | [r] => r.2
  | r0 :: r1 :: rs =>
    if x.le r0.1 then r0.2
    else if r1.1.lt x then schedAt x (r1 :: rs)
    else match (x.sub r0.1).div (r1.1.sub r0.1) with
      | none => r0.2
      | some a =>
        let f := fun (p q : Frac) => p.add (a.mul (q.sub p))
        (f r0.2.1 r1.2.1, f r0.2.2.1 r1.2.2.1, f r0.2.2.2 r1.2.2.2)

/-- The scheduling variable, if it is finite and names an entry in use. -/
def State.schedVar (s : State) (l : Lane) (q : Nat) (y r : Frac) : Option Frac :=
  match s.fget (loopD l q) LOOP_SCHED_VAR with
  | 0 => some y
  | 1 => some r
  | 2 => f32? (s.loopX l q).up
  | _ =>
    let e := s.fget (loopD l q) LOOP_SCHED_ENTRY
    if (s.point e).ptype = 0 then none else f32? (valueF32 (s.pointCode e) (s.relVal l e))

/-- The factors in force; nothing when the table or the variable is bad (R321). -/
def State.schedule (s : State) (l : Lane) (q : Nat) (y r : Frac) : Option (Frac × Frac × Frac) :=
  match s.schedRows l (s.fget (loopD l q) LOOP_SCHED_TABLE), s.schedVar l q y r with
  | some rows, some x => some (schedAt x rows)
  | _, _ => none

/-- The weights N, B and C, each held to its range (R334). -/
def State.loopWeights (s : State) (l : Lane) (q : Nat) : Frac × Frac × Frac :=
  let f := fun x => s.fget (loopD l q) x
  (⟨(max 2 (min 100 (f LOOP_WEIGHTS_N)) : Nat), 1⟩, ⟨(min 1000 (f LOOP_WEIGHTS_B) : Nat), 1000⟩, ⟨(min 1000 (f LOOP_WEIGHTS_C) : Nat), 1000⟩)

/-- The state the law works on: I, D, ed, v, w, u of the sample before. -/
structure LoopVars where
  i : Frac
  d : Frac
  ed : Frac
  v : Frac
  w : Frac
  u : Frac

/-- The bumpless preset to U (R320). -/
def loopPreset (p : LoopPar) (b c r y u : Frac) : LoopVars :=
  ⟨u.sub (p.kp.mul ((b.mul r).sub y)), Frac.zero, (c.mul r).sub y, u, u, u⟩

/-- The law of R319 for one sample, exactly: the new state, whose `u` is the output, and `LOOPs_STAT` [25:23]. Nothing when a divisor
is zero. -/
def loopLaw (p : LoopPar) (ll : Bool) (n b c h r y xout : Frac) (z : LoopVars) : Option (LoopVars × Nat) := do
  let e := r.sub y
  let pp := p.kp.mul ((b.mul r).sub y)
  let ed := (c.mul r).sub y
  let d ← if 0 < p.td.num then do
      let a ← p.td.div (p.td.add (n.mul h))
      pure ((a.mul z.d).add (((a.mul p.kp).mul n).mul (ed.sub z.ed)))
    else pure Frac.zero
  let v := (pp.add z.i).add d
  let w ← if ll then (((p.tlag.mul z.w).add ((h.add p.tlead).mul v)).sub (p.tlead.mul z.v)).div (p.tlag.add h) else pure v
  let uraw := w.add xout
  let ulim := Frac.min p.umax (Frac.max p.umin uraw)
  let u := if 0 < p.rate.num then Frac.min (z.u.add (p.rate.mul h)) (Frac.max (z.u.sub (p.rate.mul h)) ulim) else ulim
  let step ← if p.ti.num = 0 then pure Frac.zero else do
      let k ← (p.kp.mul h).div p.ti
      pure (k.mul e)
  let held := (u.lt uraw && decide (0 < step.num)) || (uraw.lt u && decide (step.num < 0))
  let sat := (if p.umax.lt uraw && u.eq p.umax then 4 else 0) + (if uraw.lt p.umin && u.eq p.umin then 2 else 0) + (if u.eq ulim then 0 else 1)
  pure (⟨if held then z.i else z.i.add step, d, ed, v, w, u⟩, sat)

/-- `LOOPs_INTEG` and `LOOPs_DERIV` take the preset's values at the sample at which it applies (R320, R333). -/
def State.presetShow (s : State) (l : Lane) (q : Nat) (p : LoopPar) (r y : Frac) (preset : Option Nat) : State :=
  match preset.bind f32? with
  | some u =>
    let w := s.loopWeights l q
    (s.fset (loopS l q) LOOPS_INTEG (f32Of (loopPreset p w.2.1 w.2.2 r y u).i)).fset (loopS l q) LOOPS_DERIV 0
  | none => s

/-- A sample of the law with the slot's state in binary32 (R319). Where the state or a result is no finite number the new values are
free. -/
def State.lawSample (s : State) (l : Lane) (q : Nat) (p : LoopPar) (h r y xout : Frac) (preset : Option Nat) : State × LoopJob :=
  let x := s.loopX l q
  let w := s.loopWeights l q
  let z? : Option LoopVars := match preset with
    | some u => (f32? u).map (fun u => loopPreset p w.2.1 w.2.2 r y u)
    | none => match f32? (s.fget (loopS l q) LOOPS_INTEG), f32? (s.fget (loopS l q) LOOPS_DERIV), f32? x.ed, f32? x.v, f32? x.w, f32? x.up with
      | some i, some d, some ed, some v, some w, some u => some ⟨i, d, ed, v, w, u⟩
      | _, _, _, _, _, _ => none
  let res := match z? with
    | some z => loopLaw p (s.fbit (loopD l q) LOOP_CFG_LL_EN) w.1 w.2.1 w.2.2 h r y xout z
    | none => none
  match res with
  | some (z, sat) => (s, ⟨0, 0, 0, f32Of z.u, f32Of z.i, f32Of z.d, f32Of z.ed, f32Of z.v, f32Of z.w, f32Of z.u, sat, true, none⟩)
  | none =>
    let a1 := s.free
    let a2 := a1.2.free
    let a3 := a2.2.free
    let a4 := a3.2.free
    let a5 := a4.2.free
    let a6 := a5.2.free
    (a6.2, ⟨0, 0, 0, a1.1.toNat, a2.1.toNat, a3.1.toNat, a4.1.toNat, a5.1.toNat, a6.1.toNat, a1.1.toNat, 0, true, none⟩)

/-! ### A sample (R312, R318–R326) -/

/-- The datapath that is free first, of those in service, and when (R312). -/
def State.dpNext (s : State) (l : Lane) : Option (Nat × Nat) :=
  let t := (s.loopSt l).free
  ((List.range 4).filter (fun d => (s.fget (loopC l) LOOP_CTRL_DP_OK).testBit d)).foldl (fun best d =>
    let at_ := max s.now (t.getD d 0)
    match best with
    | none => some (d, at_)
    | some (b, bt) => if at_ < bt then some (d, at_) else some (b, bt)) none

/-- The time a computation takes, ns (R312). -/
def State.loopCost (s : State) (l : Lane) (q : Nat) : Nat :=
  200 + 30 * s.fget (loopD l q) LOOP_CFG_LL_EN + 50 * s.fget (loopD l q) LOOP_SCHED_EN +
    (match (s.loopX l q).test with
     | some t => if t.running then 20 else 0
     | none => 0)

/-- LOOP_OUT writes that have reached the engine take effect (R322, R324). -/
def State.loopOuts (s : State) (l : Lane) (q : Nat) : State :=
  let vs := (s.loopX l q).outs
  let s0 := s.setLoopX l q { s.loopX l q with outs := [] }
  vs.foldl (fun s v =>
    let val := v % 0x100000000
    match fieldGet v 32 2 with
    | 0 => if s.loopState l q = lsManual then s.setLoopX l q { s.loopX l q with man := val } else s
    | 1 =>
      let s1 := (s.fset (loopD l q) LOOP_CFG_MODE 0).loopCfg l q
      s1.setLoopX l q { s1.loopX l q with man := val }
    | 2 => (s.fset (loopD l q) LOOP_CFG_MODE 1).loopCfg l q
    | _ => s) s0

/-- A sample is skipped (R322, R326, R328, R332); LOOP_OUT writes that wait for a sample instant take effect at it. -/
def State.loopOverrun (s0 : State) (l : Lane) (q : Nat) : State :=
  let s := s0.loopOuts l q
  let b := loopS l q
  let x := s.loopX l q
  let s1 := ((s.setLoopX l q { x with skipped := x.skipped + 1 }).finc b LOOPS_OVR).finc (loopC l) LOOP_OVR_TOTAL
  let s2 := (s1.finc b LOOPS_STAT_CONSEC).eventCounted 545 0 0 false 0 1000000000 1
  let s3 := match x.test with
    | some t => if t.running then (s2.testStep l q).testRecord l q t.idx 0x7FC00001 0x7FC00001 else s2
    | none => s2
  let kmax := s.fget (loopD l q) LOOP_PERIOD_KMAX
  if kmax ≠ 0 ∧ kmax ≤ s3.fget b LOOPS_STAT_CONSEC ∧ s3.loopState l q = lsAuto then
    (s3.loopManual l q).event 544 (s3.loopOwner q) true (q * 0x10000 + s3.fget b LOOPS_OVR % 0x10000)
  else s3

/-- TRACK is entered and left (R318, R322, R325). -/
def State.loopTrack (s : State) (l : Lane) (q : Nat) : State :=
  let k := s.fget (loopD l q) LOOP_DST_INDEX % 1024
  let cond := (s.loopForced q 2).isSome || (s.fget (loopD l q) LOOP_DST_KIND == 3 && s.loopState l k != lsAuto)
  let st := s.loopState l q
  if cond && st == lsAuto then s.loopGo l q lsTrack
  else if !cond && st == lsTrack then s.loopAuto l q 1
  else s

/-- The output of a sample without a hold cause, and the state it gives (R319–R322, R325). -/
def State.loopCompute (s : State) (l : Lane) (q r y : Nat) (p : LoopPar) (h : Frac) : State × LoopJob :=
  let x := s.loopX l q
  let inj : Frac := match x.test with
    | some t => t.value
    | none => Frac.zero
  let point := match x.test with
    | some t => t.signal / 16 % 16
    | none => 2
  let xo := if point = 0 then inj else Frac.zero
  let yq := (f32? y).getD Frac.zero
  let rq := ((f32? r).getD Frac.zero).add (if point = 1 then inj else Frac.zero)
  let forced := s.loopForced q 2
  let st := s.loopState l q
  if st = lsManual then
    let u := match forced with
      | some v => v
      | none => if xo.num = 0 then x.man else f32Of (((f32? x.man).getD Frac.zero).add xo)
    (s, ⟨0, 0, 0, u, 0, 0, 0, 0, 0, 0, 0, false, none⟩)
  else
    let sched := if s.fbit (loopD l q) LOOP_SCHED_EN then s.schedule l q yq rq else some (⟨1, 1⟩, ⟨1, 1⟩, ⟨1, 1⟩)
    let tab := s.fget (loopD l q) LOOP_SCHED_TABLE
    let s1 := s.fsetB (loopS l q) LOOPS_STAT_SCHED_BAD sched.isNone
    let s2 := if sched.isNone && !s1.schedBad.contains tab then
        (let s3 : State := { s1 with schedBad := s1.schedBad ++ [tab] }
         s3.event 549 0 false tab)
      else s1
    let f := sched.getD (⟨1, 1⟩, ⟨1, 1⟩, ⟨1, 1⟩)
    let ps : LoopPar := { p with kp := p.kp.mul f.1, ti := p.ti.mul f.2.1, td := p.td.mul f.2.2 }
    let target := match forced with
      | some v => v
      | none => s.loopR l (s.fget (loopD l q) LOOP_DST_INDEX % 1024)
    let preset := if st = lsTrack then some target
      else if x.preset = 1 then some (s.fget (loopS l q) LOOPS_OUT)
      else if x.preset = 2 then some (s.loopPresent l q)
      else none
    let res := (s2.presetShow l q ps rq yq preset).lawSample l q ps h rq yq xo preset
    (res.1.setLoopX l q { res.1.loopX l q with preset := 0 }, { res.2 with u := forced.getD res.2.u })

/-- A slot samples (R312, R323): its inputs are latched, its state follows, and its computation is queued on a datapath. -/
def State.loopSample (s : State) (l : Lane) (q frame : Nat) : State :=
  let s0 := s.testBegin l q frame
  match s0.dpNext l, (s0.loopX l q).job with
  | some (d, free), none =>
    let x := s0.loopX l q
    let per := max 1 (min 480000 (s0.fget (loopD l q) LOOP_PERIOD))
    let h : Frac := ⟨(per * (1 + x.skipped) : Nat), 8000⟩
    let s1 := ((s0.setLoopX l q { x with skipped := 0 }).loopOuts l q).loopTrack l q
    let r := s1.loopR l q
    let b := loopS l q
    let src := match s1.loopForced q 1 with
      | some v => (v, if s1.fget (loopD l q) LOOP_SRC_KIND = 0 ∧ (s1.loopX l q).pv.isNone = true then 5 else 0)
      | none => s1.loopSource l q
    let par := s1.loopPar l q
    let cause := if 0 < src.2 ∧ src.2 < 4 then src.2
      else if src.2 = 0 ∧ (s1.loopForced q 1).isNone ∧ f32Finite src.1 = false then 2
      else if par.isNone then 4 else src.2
    let s2 := ((s1.fset b LOOPS_SP r).fset b LOOPS_STAT_CAUSE cause).fset b LOOPS_STAT_HOLD (if cause = 0 then 0 else 1)
    let was := s1.fbit b LOOPS_STAT_HOLD
    let res : State × LoopJob := match cause, par with
      | 0, some p =>
        let s3 := if was ∧ s2.loopState l q = lsAuto ∧ (s2.loopX l q).preset = 0 then
          s2.setLoopX l q { s2.loopX l q with preset := 1 } else s2
        (s3.fset b LOOPS_PV src.1).loopCompute l q r src.1 p h
      | _, _ =>
        let s3 := if was then s2 else s2.event 546 (s2.loopOwner q) true (q * 0x10000 + cause)
        (s3, ⟨0, 0, 0, s3.fget b LOOPS_OUT, 0, 0, 0, 0, 0, 0, 0, false, none⟩)
    let done := free + s0.loopCost l q
    let entry := match (res.1.loopX l q).test with
      | some t => if t.running then some (t.idx, if src.2 = 0 then src.1 else s1.fget b LOOPS_PV) else none
      | none => none
    let job : LoopJob := { res.2 with dp := d, delay := done - s0.now, frame := frame, entry := entry }
    let s4 := (res.1.setLoopX l q { res.1.loopX l q with job := some job }).testStep l q
    let t := s4.loopSt l
    s4.setLoopSt l { t with free := (List.range 4).map (fun i => if i = d then done else t.free.getD i 0) }
  | _, _ => s0.loopOverrun l q

/-- A slot samples at frame F and sub-frame k (R311). -/
def State.loopDue (s : State) (l : Lane) (q frame sub : Nat) : Bool :=
  let d := loopD l q
  let per := max 1 (min 480000 (s.fget d LOOP_PERIOD))
  s.loopOn l q && s.loopLane q == some l && min 4 (s.fget d LOOP_PERIOD_SUBFRAME) == sub &&
    (frame + per - s.fget d LOOP_PHASE % per) % per == 0

/-- The output of a sample reaches its destination (R313, R316, R319, R323, R326). -/
def State.loopDone (s : State) (l : Lane) (q : Nat) : State :=
  let x := s.loopX l q
  match x.job with
  | none => s
  | some j =>
    let b := loopS l q
    let s1 := (s.setLoopX l q (if j.law then { x with job := none, ed := j.ed, v := j.v, w := j.w, up := j.up } else { x with job := none })).fset b
      LOOPS_OUT j.u
    let s2 := if j.law then (s1.fset b LOOPS_INTEG j.integ).fset b LOOPS_DERIV j.deriv else s1
    let s3 := if s.fbit b LOOPS_STAT_HOLD then s2
      else (((s2.fset b LOOPS_LAST j.frame).fsetB b LOOPS_STAT_SAT_HI (j.sat.testBit 2)).fsetB b LOOPS_STAT_SAT_LO (j.sat.testBit 1)).fsetB b
        LOOPS_STAT_RATE_LIM (j.sat.testBit 0)
    let s4 := match s3.loopDest l q j.u with
      | some s' => s'.fset b LOOPS_STAT_DST_FAULT 0
      | none => ((s3.loopReject l q).fset b LOOPS_STAT_DST_FAULT 1).eventLimited 547 q (s3.loopOwner q) true
          (q * 0x10000 + s3.fget (loopD l q) LOOP_DST_KIND) 1000000000
    let s5 := if x.skipped = 0 then s4.fset b LOOPS_STAT_CONSEC 0 else s4
    let u := j.delay / 2
    let s6 := ((s5.fsat (loopD l q) LOOP_DELAY_LAST u).fmax (loopD l q) LOOP_DELAY_MAX u).fmax (loopC l) LOOP_DELAY_MAX_DELAY u
    let s7 := if 25000 < j.delay then s6.eventLimited 550 0 0 false u 1000000000 else s6
    match j.entry with
    | some (i, y) => s7.testRecord l q i y j.u
    | none => s7

/-- A datapath leaves service (R326): a sample under way on it is skipped and counted as an overrun. -/
def State.dpFail (s : State) (l : Lane) (d : Nat) : State :=
  let ok := s.fget (loopC l) LOOP_CTRL_DP_OK
  if !ok.testBit d then s
  else
    let s1 := s.fset (loopC l) LOOP_CTRL_DP_OK (ok - 2 ^ d)
    let hit := ((s1.loopSt l).slots.filter (fun e => match e.2.job with
      | some j => j.dp == d
      | none => false)).map (fun e => e.1)
    let s2 := hit.foldl (fun s q => (s.setLoopX l q { s.loopX l q with job := none }).loopOverrun l q) s1
    s2.event 551 0 true (ok - 2 ^ d)

/-- A write of an item of a slot reaches the engine of lane `l` (R324): 0 SP, 1 PV, 2 OUT. -/
def State.loopItem (s : State) (l : Lane) (q item v : Nat) : State :=
  let x := s.loopX l q
  if !f32Finite v then s
  else if item = 0 then (if s.loopInner l q then s else s.setLoopX l q { x with sp := v % 0x100000000 })
  else if item = 1 then
    (if s.fget (loopD l q) LOOP_SRC_KIND = 0 ∧ s.loopOn l q then s.setLoopX l q { x with pv := some (v % 0x100000000) } else s)
  else if v < 0x300000000 ∧ s.loopOn l q then s.setLoopX l q { x with outs := x.outs ++ [v] }
  else s

/-- A supervisor's write reaches every lane's copy (R291); a commit's write reaches the lane that runs the slot. -/
def State.loopWrite (s : State) (q item v : Nat) (supervisor : Bool) : State :=
  if supervisor then (s.loopItem .a q item v).loopItem .b q item v
  else match s.loopLane q with
    | some l => s.loopItem l q item v
    | none => s

/-- The lane whose slot registers a read of slot `q` shows: the lane that runs it, else the given one. -/
def State.loopHome (s : State) (q : Nat) (l : Lane) : Lane := if s.mode = .wide then (s.loopLane q).getD l else l

/-- The points of a slot (R324). -/
def State.loopRead (s : State) (q item : Nat) : Nat :=
  let l := (s.loopLane q).getD s.hg.active
  let b := loopS l q
  let hold := s.fget b LOOPS_STAT_HOLD
  if item = 0 then (if s.loopInner l q then (s.loopX l q).sp else s.fget b LOOPS_SP)
  else if item = 1 then s.fget b LOOPS_PV + 2 ^ 32 * hold
  else s.fget b LOOPS_OUT + 2 ^ 32 * s.fget b LOOPS_STAT_STATE + 2 ^ 36 * hold + 2 ^ 37 * s.fget b LOOPS_STAT_DST_FAULT +
    2 ^ 38 * (if s.fbit b LOOPS_STAT_SAT_HI || s.fbit b LOOPS_STAT_SAT_LO || s.fbit b LOOPS_STAT_RATE_LIM then 1 else 0)

/-- CLR_STATS (R333): the maxima and counters of the block and of every slot clear. -/
def State.loopClrStats (s : State) (l : Lane) : State :=
  let s1 := ((s.fset (loopC l) LOOP_LOAD_MAX_SAMPLES 0).fset (loopC l) LOOP_DELAY_MAX_DELAY 0).fset (loopC l) LOOP_OVR_TOTAL 0
  (List.range 1024).foldl (fun s q => (s.fset (loopS l q) LOOPS_OVR 0).fset (loopD l q) LOOP_DELAY_MAX 0) s1

/-- CLEAR of a capture buffer that is not ARMED or RUNNING (R330). -/
def State.capClear (s : State) (l : Lane) (b : Nat) : State :=
  let st := s.fget (capB l b) LOOP_CAP_STATUS_STATE
  if st = 1 ∨ st = 2 then s
  else
    let t := s.loopSt l
    let s1 := s.setLoopSt l { t with cap := tabDrop (fun k => k / 16384 == b) t.cap }
    s1.regClear (fun k => decide (capB l b ≤ k ∧ k < capB l b + 0xC))

end Sys2Proof.Machine
end

