-- ==== Sys2Proof/Machine/MtrOps.lean ====
section
/-! DEFINITION. Metering: samples, line cycles, energy, pulses, the latch and the published set (chapter "Metering and tenant energy"). -/

namespace Sys2Proof.Machine
open Sys2Proof

/-! ### Registers and the energy store -/

/-- The blocks of input Inn (`i` = nn − 1), voltage line (0–2 set A, 3–5 set B), port meter, gallery total and pulse output. -/
def mtrIB (i : Nat) : Nat := 0xA0100 + 0x100 * i
def mtrVB (v : Nat) : Nat := 0xA3100 + 0x100 * v
def mtrPB (p : Nat) : Nat := 0xA4000 + 0x40 * p
def mtrGB (g : Nat) : Nat := 0xA5000 + 0x40 * g
def pulseB (k : Nat) : Nat := 0xA6000 + 0x20 * k

def mNat (t : Tab Nat) (k : Nat) : Nat := tabGet (fun _ => 0) t k
def mPut (t : Tab Nat) (k v : Nat) : Tab Nat := tabSet (fun _ => 0) t k v

/-- 1 mWh in the store's unit of 2^-16 mJ. -/
def mWhUnits : Nat := 235929600

/-- A register of the store in whole mWh, rounded down (R344). -/
def inEnergy (e : Energy) (i j : Nat) : Nat := mNat e.ins (5 * i + j) / mWhUnits
def portEnergy (e : Energy) (p j : Nat) : Nat := mNat e.ports (2 * p + j) / mWhUnits
def galEnergy (e : Energy) (g j : Nat) : Nat := if j = 3 then mNat e.gals (4 * g + 3) else mNat e.gals (4 * g + j) / mWhUnits

def State.mtrIn (s : State) (i : Nat) : MtrIn := tabGet (fun _ => MtrIn.reset) s.mtr.ins i

def State.setMtrIn (s : State) (i : Nat) (x : MtrIn) : State :=
  { s with mtr := { s.mtr with ins := tabSet (fun _ => MtrIn.reset) s.mtr.ins i x } }

def State.mtrLine (s : State) (v : Nat) : MtrLine := tabGet (fun _ => MtrLine.reset) s.mtr.lines v

def State.setMtrLine (s : State) (v : Nat) (x : MtrLine) : State :=
  { s with mtr := { s.mtr with lines := tabSet (fun _ => MtrLine.reset) s.mtr.lines v x } }

def State.mtrSet (s : State) (v : Nat) : MtrSet := if v = 0 then s.mtr.a else s.mtr.b

def State.setMtrSet (s : State) (v : Nat) (x : MtrSet) : State :=
  if v = 0 then { s with mtr := { s.mtr with a := x } } else { s with mtr := { s.mtr with b := x } }

def State.portMtrX (s : State) (p : Nat) : PortMtr := tabGet (fun _ => PortMtr.reset) s.portMtr p

def State.setPortMtr (s : State) (p : Nat) (x : PortMtr) : State :=
  { s with portMtr := tabSet (fun _ => PortMtr.reset) s.portMtr p x }

def State.pulse (s : State) (k : Nat) : PulseX := tabGet (fun _ => PulseX.reset) s.pulses k

def State.setPulse (s : State) (k : Nat) (x : PulseX) : State := { s with pulses := tabSet (fun _ => PulseX.reset) s.pulses k x }

/-- A field of a configuration in force. -/
def MtrIn.get (x : MtrIn) (f : Fld) : Nat := fieldGet x.cfg f.lo f.width

/-- The set and the voltage line an input is paired with (R337); PHASE 00 acts as 01. -/
def MtrIn.set (x : MtrIn) : Nat := x.get MTR_I_CFG_VSET
def MtrIn.line (x : MtrIn) : Nat := 3 * x.set + (max 1 (x.get MTR_I_CFG_PHASE) - 1)

/-- The metering DSP works: its domain is out of reset and its firmware loaded. -/
def State.mtrRuns (s : State) : Bool := !s.inReset Dom.meter.bit && s.fbit 0 MTR_STATUS_FW_LOADED

/-- Is a voltage line present (R337)? -/
def State.vPresent (s : State) (v : Nat) : Bool := s.fbit (mtrVB v) MTR_V_STAT_PRESENT

/-- Does a set have a present line, and its lowest-numbered one, from 1 (R341)? -/
def State.refLine (s : State) (v : Nat) : Nat := ((List.range 3).find? (fun l => s.vPresent (3 * v + l))).elim 0 (fun l => l + 1)

/-! ### Pulse outputs (R352–R354) -/

/-- The source of a pulse output that an increment may come from: an input's register j, a port, or a gallery. -/
inductive PulseSrc
  | inp (i j : Nat)
  | port (p : Nat)
  | gal (g : Nat)
deriving DecidableEq, Repr

/-- The source that a configuration names (R352). -/
def pulseSrc (cfg : Nat) : Option PulseSrc :=
  let n := fieldGet cfg 16 7
  match fieldGet cfg 28 3 with
  | 1 => if 1 ≤ n ∧ n ≤ 48 then some (.inp (n - 1) 0) else none
  | 2 => if 1 ≤ n ∧ n ≤ 48 then some (.inp (n - 1) 1) else none
  | 3 => if 1 ≤ n ∧ n ≤ 48 then some (.inp (n - 1) 2) else none
  | 4 => if 1 ≤ n ∧ n ≤ 48 then some (.inp (n - 1) 3) else none
  | 5 => if 1 ≤ n ∧ n ≤ 64 then some (.port (n - 1)) else none
  | 6 => if n ≤ 63 then some (.gal n) else none
  | _ => none

/-- Is a source owned by the output's gallery, or the output by gallery 0? -/
def State.pulseAllowed (s : State) (k : Nat) (src : PulseSrc) : Bool :=
  let g := s.pulseOwner k
  g == 0 || g == (match src with
    | .inp i _ => s.inputOwner i
    | .port p => s.portOwner p
    | .gal x => x)

/-- The crossings of one increment (R353), at most `n` of them: `de` arrived over [ts, te] ns. Answers the residue and the starts. -/
def pulseEdges (kk de ts te : Nat) : Nat → Nat → List Nat → Nat × List Nat
  | 0, a, es => (a, es)
  | n + 1, a, es =>
    if a < kk then (a, es)
    else
      let a1 := a - kk
      -- ts + f × (te − ts), f = (ΔE − A) / ΔE, to the nearest µs
      let us := divNearest (ts * de + (de - a1) * (te - ts)) (de * 1000)
      pulseEdges kk de ts te n a1 (es ++ [us * 1000 + 25000000])

/-- PENDING of a pulse output. -/
def State.setPending (s : State) (k n : Nat) : State :=
  let v := min n 65535
  let s1 : State := { s with energy := { s.energy with pend := mPut s.energy.pend k v } }
  s1.fset (pulseB k) PULSE_STAT_PENDING v

/-- A pulse that cannot leave now becomes pending (R354): event 375 when PENDING first exceeds zero, and at most once per minute. -/
def State.pulseLate (s : State) (k : Nat) : State :=
  let n := mNat s.energy.pend k + 1
  let s1 := s.setPending k n
  s1.eventLimited 375 k (s1.pulseOwner k) true ((k + 1) * 0x1000000 + min n 65535) 60000000000

/-- An increment reaches the pulse outputs that take its source (R352, R353). -/
def State.pulseAdd (s : State) (src : PulseSrc) (de ts te : Nat) : State :=
  (List.range 8).foldl (fun s k =>
    let x := s.pulse k
    if pulseSrc x.cfg ≠ some src ∨ fieldGet x.cfg 31 1 = 0 ∨ de = 0 then s
    else if !s.pulseAllowed k src then s.fset (pulseB k) PULSE_STAT_SRC_DENIED 1
    else
      let kk := max 1 x.const * mWhUnits
      let a := mNat s.energy.res k + de
      let r := pulseEdges kk de ts te (a / kk) a []
      let s1 : State := { s with energy := { s.energy with res := mPut s.energy.res k r.1 } }
      r.2.foldl (fun s at_ =>
        if mNat s.energy.pend k = 0 then s.setPulse k { s.pulse k with sched := (s.pulse k).sched ++ [at_] } else s.pulseLate k)
        (s1.fset (pulseB k) PULSE_STAT_SRC_DENIED 0)) s

/-- SRC_DENIED follows the owners at once (R352, R361). -/
def State.pulseJudge (s : State) : State :=
  (List.range 8).foldl (fun s k => match pulseSrc (s.pulse k).cfg with
    | some src => s.fsetB (pulseB k) PULSE_STAT_SRC_DENIED (!s.pulseAllowed k src)
    | none => s.fset (pulseB k) PULSE_STAT_SRC_DENIED 0) s

/-! ### Energy (R344, R351) -/

/-- Register j of input i increases by `de`, and the gallery that owns the input is credited. -/
def State.inAdd (s : State) (i j de ts te : Nat) : State :=
  if de = 0 then s
  else
    let g := s.inputOwner i
    let e := s.energy
    let e1 : Energy := { e with ins := mPut e.ins (5 * i + j) (mNat e.ins (5 * i + j) + de), gals := if j < 2 then mPut e.gals (4 * g + j) (mNat e.gals (4 * g + j) + de) else e.gals }
    let s0 : State := { s with energy := e1 }
    let s1 := if j < 4 then s0.pulseAdd (.inp i j) de ts te else s0
    if j = 0 then s1.pulseAdd (.gal g) de ts te else s1

/-- A port's integrals increase, and its gallery is credited with E_PSE. -/
def State.portAdd (s : State) (p de dc : Nat) : State :=
  let g := s.portOwner p
  let e := s.energy
  let e1 : Energy := { e with ports := mPut (mPut e.ports (2 * p) (mNat e.ports (2 * p) + de)) (2 * p + 1) (mNat e.ports (2 * p + 1) + dc), gals := mPut e.gals (4 * g + 2) (mNat e.gals (4 * g + 2) + de) }
  let s0 : State := { s with energy := e1 }
  (s0.pulseAdd (.port p) de (s.now - 100000) s.now).pulseAdd (.gal g) de (s.now - 100000) s.now

/-- An ownership apply moved inputs or ports into or out of these galleries (R350). -/
def State.galChanges (s : State) (gs : List Nat) : State :=
  gs.eraseDups.foldl (fun s g => { s with energy := { s.energy with gals := mPut s.energy.gals (4 * g + 3) ((mNat s.energy.gals (4 * g + 3) + 1) % 0x100000000) } }) s

/-! ### Samples (R336–R340) -/

/-- The full scale of a range in µA of the sensor's secondary or µV at the input, for gain 4^g (R338). -/
def fullScale (sensor g : Nat) : Nat := (if sensor = 1 then 150000 else 1500000) / 4 ^ g

/-- The scale of the Rogowski integrator: 1 V rms at 50 Hz gives RATIO amperes; the reciprocal of its gain at 50 Hz and 16 ksps. -/
def rogScale : Frac := ⟨19634640009, 1000000000000⟩

/-- The current of a sample in primary µA (R339 steps 4, 6 and 7), and the integrator after it. Nothing where RATIO is no finite number. -/
def MtrIn.amps (x : MtrIn) (gain : Nat) (raw : Int) : Option Int × Int :=
  let sensor := x.get MTR_I_CFG_SENSOR
  let xin := raw * (fullScale sensor gain : Nat)
  -- µA or µV at the input, times 2^23
  let y := if sensor = 3 then (x.rogY * 4999 / 5000) + (xin * 65536 + x.rogX * 65536) / 2 else 0
  let q : Frac := if sensor = 3 then (Frac.mul ⟨y, 2 ^ 39⟩ rogScale) else ⟨xin, 2 ^ 23⟩
  let sgn : Frac := if x.get MTR_I_CFG_INVERT = 1 then ⟨-1, 1⟩ else ⟨1, 1⟩
  match f32? x.ratio with
  | some r => (some ((q.mul r).mul sgn).round, y)
  | none => (none, y)

/-- The condition event of an input (R363). -/
def State.inEvent (s : State) (i cause : Nat) : State :=
  let irms := (s.rd (mtrIB i + 0x10 + 40)).toNat
  s.event (320 + i) (s.inputOwner i) (cause == 1) (cause * 0x1000000 + min (irms / 10) 0xFFFF)

/-- One sample of a current input. -/
def State.inSample (s : State) (i : Nat) (raw : Int) : State :=
  let x := s.mtrIn i
  let b := mtrIB i
  if x.get MTR_I_CFG_SENSOR = 0 then s
  else
    let gain := s.fget b MTR_I_STAT_GAIN
    let m := raw.natAbs
    let full := 8388607 ≤ m
    let clip := full && (gain == 0 || x.get MTR_I_CFG_AUTO_GAIN == 1)
    let down := x.get MTR_I_CFG_AUTO_GAIN == 1 && gain != 0 && decide (20 * m > 19 * 8388608)
    let r := x.amps gain raw
    let fr := match r.1 with
      | some v => (v, s)
      | none => (toSigned 32 (s.free.1).toNat, s.free.2)
    let l := s.mtrLine x.line
    let on := s.vPresent x.line
    let dP : Int := if on then l.v * fr.1 else 0
    let dQ : Int := if on then l.v90 * fr.1 else 0
    let sq := fr.1.natAbs * fr.1.natAbs
    let x1 : MtrIn := { x with rogY := r.2, rogX := raw * (fullScale 3 gain : Nat), cur := fr.1, cP := x.cP + dP, cQ := x.cQ + dQ, cI := x.cI + sq, wP := x.wP + 256 * dP, wQ := x.wQ + 256 * dQ, wI := x.wI + 256 * sq, above := x.above || decide (5 * m > 8388608), clip := x.clip || clip, gsw := x.gsw || down, low := if down then 0 else x.low }
    let s1 := fr.2.setMtrIn i x1
    let s2 := if down then (s1.fset b MTR_I_STAT_GAIN (gain - 1)).finc b MTR_I_STAT_GSW_CNT else s1
    if clip && !s.fbit b MTR_I_STAT_CLIP then (s2.fset b MTR_I_STAT_CLIP 1).inEvent i 1 else s2

/-- A quarter of the measured line period of a set, in 1/256 sample (R339); of the nominal period while none is measured. -/
def State.quarter (s : State) (v : Nat) : Nat :=
  let p := (s.mtrSet v).period
  (if p != 0 then p else if fieldGet s.mtr.ctrl 13 1 = 1 then 68267 else 81920) / 4

/-- The sample `d`/256 samples back in a list of samples, the newest first, interpolated between its neighbours (R339). -/
def delayed (h : List Int) (d : Nat) : Int :=
  ((256 - d % 256 : Nat) * h.getD (d / 256) 0 + (d % 256 : Nat) * h.getD (d / 256 + 1) 0) / 256

/-- One sample of a voltage line, and the same a quarter of the period ago (R339 step 8). -/
def State.lineSample (s : State) (v : Nat) (u : Int) : State :=
  let l := s.mtrLine v
  let sq := u.natAbs * u.natAbs
  let h := (u :: l.hist).take 128
  s.setMtrLine v ⟨u, delayed h (s.quarter (v / 3)), l.c2 + sq, l.w2 + 256 * sq, h⟩

/-- One sample of a set: its count and the sums that give its angles. -/
def State.setSample (s : State) (v : Nat) : State :=
  let x := s.mtrSet v
  let l1 := s.mtrLine (3 * v)
  let l2 := s.mtrLine (3 * v + 1)
  let l3 := s.mtrLine (3 * v + 2)
  s.setMtrSet v { x with n := x.n + 1, c2 := x.c2 + l1.v * l2.v, s2 := x.s2 - l1.v90 * l2.v, c3 := x.c3 + l1.v * l3.v, s3 := x.s3 - l1.v90 * l3.v }

/-! ### Line cycles (R337, R341, R342, R344) -/

/-- The angle of a vector in 0.01°, −18,000 to 18,000. -/
def angleOf (y x : Int) : Int := (Frac.round ⟨atan2Turns y x * 36000, 2 ^ 48⟩)

/-- A line's presence is judged over a cycle of its set (R337): event 368 + 3s + (ℓ − 1) at a change. -/
def State.lineJudge (s : State) (v n : Nat) : State :=
  let l := s.mtrLine v
  let rms := isqrt (l.c2 / max 1 n)
  let was := s.vPresent v
  let now_ := if was then decide (15000000 ≤ rms) else decide (20000000 ≤ rms)
  let s1 := s.setMtrLine v { l with c2 := 0 }
  if was = now_ then s1
  else
    let s2 := s1.fsetB (mtrVB v) MTR_V_STAT_PRESENT now_
    let s3 := if now_ then s2 else (s2.fset (mtrVB v) MTR_V_STAT_LOST_SEEN 1).finc (mtrVB v) MTR_V_STAT_LOSS_CNT
    s3.event (368 + v) 0 (!now_) ((if now_ then 0x1000000 else 0) + min (rms / 100000) 0xFFFFFF)

/-- Σ of µV × µA over samples of 1/16,000 s, in 2^-16 mJ. -/
def energyOf (x : Nat) : Nat := x * 65536 / 16000000000000

/-- An input's line cycle ends (R338, R344): `n` samples over [ts, te] ns, `on` telling that its voltage was present in it. -/
def State.inCycle (s : State) (i n ts te : Nat) (on : Bool) : State :=
  let x := s.mtrIn i
  let b := mtrIB i
  if x.get MTR_I_CFG_SENSOR = 0 then s
  else
    let vrms := isqrt ((s.mtrLine x.line).c2 / max 1 n)
    let irms := isqrt (x.cI / max 1 n)
    let eP := energyOf x.cP.natAbs
    let eQ := energyOf x.cQ.natAbs
    let eS := energyOf (vrms * irms * n)
    let s1 := if on then
        (((s.inAdd i (if 0 < x.cP then 0 else 1) eP ts te).inAdd i (if 0 < x.cQ then 2 else 3) eQ ts te).inAdd i 4 eS ts te)
      else s
    -- sustained export: more than 1 % of IRMS full scale at ×1 in every cycle for 60 s
    let sensor := x.get MTR_I_CFG_SENSOR
    let fs : Nat := match f32? x.ratio with
      | some r => ((Frac.mul ⟨(fullScale sensor 0 : Nat), 1⟩ r).mul ⟨70710678, 100000000⟩).round.toNat
      | none => 0
    let floor := energyOf (vrms * (fs / 100) * n)
    let exp := on && decide (x.cP < 0 ∧ floor < eP)
    let since := if exp then some (x.expSince.getD ts) else none
    let flag := match since with
      | some t => decide (60000000000 ≤ te - t)
      | none => false
    let low := if x.above then 0 else x.low + 1
    let gain := s1.fget b MTR_I_STAT_GAIN
    let up := x.get MTR_I_CFG_AUTO_GAIN == 1 && decide (4 ≤ low) && decide (gain < 3)
    let x1 : MtrIn := { s1.mtrIn i with cP := 0, cQ := 0, cI := 0, above := false, low := if up then 0 else low, gsw := x.gsw || up, expSince := since }
    let s2 := (s1.setMtrIn i x1).fsetB b MTR_I_STAT_EXPORTING flag
    let s3 := if up then (s2.fset b MTR_I_STAT_GAIN (gain + 1)).finc b MTR_I_STAT_GSW_CNT else s2
    if flag && !s.fbit b MTR_I_STAT_EXPORTING && x.get MTR_I_CFG_EXPORT_OK == 0 then s3.inEvent i 3 else s3

/-- The timebase that should be in use: 0 the MASTER set, 1 the other, 2 nominal (R342). -/
def State.wantBase (s : State) : Nat :=
  let m := fieldGet s.mtr.ctrl 12 1
  if s.refLine m != 0 then 0 else if s.refLine (1 - m) != 0 then 1 else 2

/-- The set a timebase counts; 2 nominal. -/
def State.baseSet (s : State) (tb : Nat) : Nat :=
  let m := fieldGet s.mtr.ctrl 12 1
  if tb = 0 then m else if tb = 1 then 1 - m else 2

/-- A boundary of set `base`, or a nominal one (2), is counted by the timebase, which changes there if another should be in use. -/
def State.boundary (s : State) (base frac : Nat) : State :=
  let want := s.wantBase
  let tb := s.fget 0 MTR_STATUS_TIMEBASE
  if s.baseSet want ≠ base then s
  else
    let ref := if base = 2 then 0 else s.refLine base
    let s1 := s.fset 0 MTR_STATUS_REF_LINE ref
    let m := s1.mtr
    let s2 : State := { s1 with mtr := { m with cycles := m.cycles + 1, frac := frac, changed := m.changed || tb != want } }
    if tb = want then s2 else (s2.fset 0 MTR_STATUS_TIMEBASE want).event 374 0 false (want * 64 + ref * 16)

/-- The samples of a set since its last crossing are accounted for, up to instant `te`: energies, then the presence of each line, judged over
them, which holds for the next cycle (R337, R344, R361). -/
def State.setFlush (s : State) (v te : Nat) : State :=
  let x := s.mtrSet v
  let ons := (List.range 3).map (fun l => s.vPresent (3 * v + l))
  let mine := (List.range 48).filter (fun i => (s.mtrIn i).set == v)
  let s1 := mine.foldl (fun s i => s.inCycle i x.n x.at_ te (ons.getD ((s.mtrIn i).line % 3) false)) s
  let s2 := (List.range 3).foldl (fun s l => s.lineJudge (3 * v + l) x.n) s1
  let s3 := mine.foldl (fun s i =>
    let gone := !s.vPresent (s.mtrIn i).line
    if (s.mtrIn i).get MTR_I_CFG_SENSOR = 0 ∨ s.fbit (mtrIB i) MTR_I_STAT_NO_VOLTAGE = gone then s
    else
      let s1 := s.fsetB (mtrIB i) MTR_I_STAT_NO_VOLTAGE gone
      if gone then s1.inEvent i 2 else s1) s2
  s3.setMtrSet v { s3.mtrSet v with n := 0, at_ := te }

/-- A line cycle of a set ends, its crossing at `frac`/256 of the latest sample. -/
def State.setCycle (s : State) (v frac : Nat) : State :=
  let x := s.mtrSet v
  let s1 := s.setFlush v (s.now - (256 - frac) * 62500 / 256)
  let at_ := 256 * s.mtr.k - (256 - frac)
  s1.setMtrSet v { s1.mtrSet v with cross := at_, period := if x.cross = 0 then 0 else at_ - x.cross, first := if x.cycles = 0 then x.cross else x.first, cycles := x.cycles + 1 }

/-- A set without a crossing for the length of a cycle of 45 Hz: its lines are judged over those samples (R337, R341). -/
def State.setIdle (s : State) (v : Nat) : State := if (s.mtrSet v).n < 356 then s else s.setFlush v s.now

/-! ### The latch (R343, R345, R347–R350) -/

/-- A big-endian word list of DATA bytes as the registers hold them: word w of DATA, and a u64's low word first. -/
def u64Words (v : Nat) : List Nat := [v % 0x100000000, v / 0x100000000 % 0x100000000]

/-- Two fields of 16 bits in a word, the lower DATA offset higher. -/
def w16 (a b : Nat) : Nat := a % 65536 * 65536 + b % 65536

/-- The published words of a current input (R348). -/
def State.inWords (s : State) (i : Nat) : List Nat :=
  let x := s.mtrIn i
  let gain := s.fget (mtrIB i) MTR_I_STAT_GAIN
  let sensor := x.get MTR_I_CFG_SENSOR
  if sensor = 0 then List.replicate 15 0 ++ [gain * 256]
  else
    let e := s.energy
    let w := max 1 s.mtr.w
    let vr := isqrt ((s.mtrLine x.line).w2 / w)
    let ir := isqrt (x.wI / w)
    let gone := !s.vPresent x.line
    let p : Int := if gone then 0 else Frac.round ⟨x.wP, w⟩
    let q : Int := if gone then 0 else Frac.round ⟨x.wQ, w⟩
    -- In in µA: CT RATIO × 100 mA; ROGOWSKI and SHUNT RATIO × 1.06 V
    let inom : Nat := match f32? x.ratio with
      | some r => (r.mul ⟨if sensor = 1 then 100000 else 1060000, 1⟩).round.toNat
      | none => 0
    let low := decide (ir * 5000 < inom)
    let pf : Int := if low ∨ vr * ir = 0 then 0 else Frac.round ⟨p * 10000, vr * ir⟩
    let ang : Int := if low then 0 else angleOf q p
    let f := if x.set = 0 then s.fget 0 MTR_FREQ_FREQ_A else s.fget 0 MTR_FREQ_FREQ_B
    let flags := (if x.clip then 128 else 0) + (if x.gsw then 64 else 0) + (if gone then 32 else 0) + (if s.mtr.changed then 16 else 0) +
      (if x.param then 8 else 0) + (if s.baseSet (s.fget 0 MTR_STATUS_TIMEBASE) = x.set then 0 else 4)
    (List.range 5).flatMap (fun j => u64Words (inEnergy e i j)) ++
      [ir / 1000, vr / 1000, ofSigned 32 (Frac.round ⟨p, 1000000000⟩), ofSigned 32 (Frac.round ⟨q, 1000000000⟩),
       w16 (ofSigned 16 pf) (ofSigned 16 ang), w16 f (gain * 256 + flags)]

/-- The published words of a port meter (R349). -/
def State.portWords (s : State) (p : Nat) : List Nat :=
  let x := s.portMtrX p
  let n := max 1 x.n
  u64Words (portEnergy s.energy p 0) ++ u64Words (portEnergy s.energy p 1) ++
    [x.sp / n, x.sv / n, x.si / n, s.fget (portB p) PORT_STATUS_STATE * 0x1000000 +
      (if x.powered && x.n != 0 then 0x800000 else 0) + (if x.shed then 0x400000 else 0)]

/-- The published words of a gallery total (R350), of the powers in the captured set `t`. -/
def State.galWords (s : State) (t : Tab Word) (g : Nat) : List Nat :=
  let ins := (List.range 48).filter (fun i => s.inputOwner i == g)
  let ports := (List.range 64).filter (fun p => s.portOwner p == g)
  let e := s.energy
  let at_ := fun k => (tabGet (fun _ => 0#32) t k).toNat
  let pac : Int := ins.foldl (fun n i => n + toSigned 32 (at_ (mtrIB i + 0x10 + 48))) 0
  let pdc := ports.foldl (fun n p => n + at_ (mtrPB p + 16)) 0
  u64Words (galEnergy e g 0) ++ u64Words (galEnergy e g 1) ++ u64Words (galEnergy e g 2) ++
    u64Words ((mNat e.gals (4 * g) + mNat e.gals (4 * g + 2)) / mWhUnits) ++
    [ofSigned 32 pac, pdc % 0x100000000, ins.length * 0x1000000 + ports.length * 0x10000, galEnergy e g 3]

/-- Words at consecutive registers. -/
def putWords (t : Tab Word) (b : Nat) (ws : List Nat) : Tab Word :=
  (ws.zip (List.range ws.length)).foldl (fun t e => tabSet (fun _ => 0#32) t (b + 4 * e.2) (BitVec.ofNat 32 e.1)) t

/-- The frequency of a set over the interval in mHz; zero without a present line (R341). -/
def State.setFreq (s : State) (v : Nat) (old : Nat) : Nat :=
  let x := s.mtrSet v
  if s.refLine v = 0 then 0
  else if x.cycles = 0 ∨ x.cross = x.first then old
  else min 65535 (divNearest (4096000000 * x.cycles) (x.cross - x.first))

/-- A set's angles in 0.01° (R343). -/
def State.setAngles (s : State) (v : Nat) : Int × Int :=
  let x := s.mtrSet v
  (angleOf x.s2 x.c2, angleOf x.s3 x.c3)

/-- The phase sequence alarm of a set whose three lines are present. -/
def State.phaseAlarm (s : State) (v : Nat) : State :=
  let a := s.setAngles v
  let all := (List.range 3).all (fun l => s.vPresent (3 * v + l))
  let bad := all && !(decide (-15000 ≤ a.1 ∧ a.1 ≤ -9000) && decide (9000 ≤ a.2 ∧ a.2 ≤ 15000))
  let x := s.mtrSet v
  let s1 := s.setMtrSet v { x with bad := bad }
  if bad && !x.bad then s1.event 380 0 true (v * 0x1000000 + ofSigned 16 a.1) else s1

/-- A new interval begins: parameters written come into force, and the share of the last sample after the boundary is its first part. -/
def State.newInterval (s : State) : State :=
  let part : Int := 256 - s.mtr.frac
  let ctrl := (s.rd 0xA0000).toNat
  let ctrlNew := ctrl != s.mtr.ctrl
  let s1 := (List.range 48).foldl (fun s i =>
    let x := s.mtrIn i
    let b := mtrIB i
    let cfg := (s.rd b).toNat
    let ratio := s.fget b MTR_I_RATIO
    let comp := s.fget b MTR_I_PHASE_COMP
    let new := ctrlNew || x.cfg != cfg || x.ratio != ratio || x.comp != comp
    let l := s.mtrLine x.line
    let dP : Int := if s.vPresent x.line then l.v * x.cur else 0
    let dQ : Int := if s.vPresent x.line then l.v90 * x.cur else 0
    let x1 : MtrIn := { x with cfg := cfg, ratio := ratio, comp := comp, wP := part * dP, wQ := part * dQ, wI := part.toNat * x.cur.natAbs * x.cur.natAbs, clip := false, gsw := false, param := new }
    let s1 := s.setMtrIn i x1
    if x1.get MTR_I_CFG_AUTO_GAIN = 0 then s1.fset b MTR_I_STAT_GAIN (x1.get MTR_I_CFG_GAIN) else s1) s
  let s2 := (List.range 6).foldl (fun s v => let l := s.mtrLine v; s.setMtrLine v { l with w2 := part.toNat * l.v.natAbs * l.v.natAbs }) s1
  let s3 := [0, 1].foldl (fun s v => s.setMtrSet v { s.mtrSet v with first := (s.mtrSet v).cross, cycles := 0, c2 := 0, s2 := 0, c3 := 0, s3 := 0 }) s2
  let s4 := (List.range 64).foldl (fun s p =>
    let x := s.portMtrX p
    s.setPortMtr p { x with sp := 0, sv := 0, si := 0, n := 0, powered := true, shed := false }) s3
  -- pulse sources and constants written before the latch apply, with the residue at zero (R361)
  let s5 := (List.range 8).foldl (fun s k =>
    let x := s.pulse k
    let cfg := (s.rd (pulseB k)).toNat
    let c := s.fget (pulseB k) PULSE_CONST
    let moved := fieldGet cfg 16 15 % 2 ^ 15 != fieldGet x.cfg 16 15 % 2 ^ 15 || c != x.const
    let s1 := s.setPulse k { x with cfg := cfg, const := c }
    if moved then ({ s1 with energy := { s1.energy with res := mPut s1.energy.res k 0 } } : State) else s1) s4
  ({ s5 with mtr := { s5.mtr with ctrl := ctrl, w := part.toNat, count := 0, cycles := 0, changed := false, frac := 256 } } : State).pulseJudge

/-- The latch (R345): every accumulator is captured and the per-interval quantities are computed. -/
def State.latch (s : State) : State :=
  -- the part of the last sample after the boundary leaves the interval
  let part : Int := 256 - s.mtr.frac
  let s0 := (List.range 48).foldl (fun s i =>
    let x := s.mtrIn i
    let l := s.mtrLine x.line
    let on := s.vPresent x.line
    s.setMtrIn i { x with wP := x.wP - (if on then part * l.v * x.cur else 0), wQ := x.wQ - (if on then part * l.v90 * x.cur else 0), wI := x.wI - part.toNat * x.cur.natAbs * x.cur.natAbs }) s
  let s1 := (List.range 6).foldl (fun s v => let l := s.mtrLine v; s.setMtrLine v { l with w2 := l.w2 - part.toNat * l.v.natAbs * l.v.natAbs }) s0
  let s2 : State := { s1 with mtr := { s1.mtr with w := s1.mtr.w - part.toNat } }
  let fa := s2.setFreq 0 (s2.fget 0 MTR_FREQ_FREQ_A)
  let fb := s2.setFreq 1 (s2.fget 0 MTR_FREQ_FREQ_B)
  let sf := (s2.fset 0 MTR_FREQ_FREQ_A fa).fset 0 MTR_FREQ_FREQ_B fb
  let aa := sf.setAngles 0
  let ab := sf.setAngles 1
  let t0 := (List.range 48).foldl (fun t i => putWords t (mtrIB i + 0x10) (sf.inWords i)) []
  let t1 := (List.range 64).foldl (fun t p => putWords t (mtrPB p) (sf.portWords p)) t0
  let t2 := (List.range 64).foldl (fun t g => putWords t (mtrGB g) (sf.galWords t1 g)) t1
  let t3 := (List.range 6).foldl (fun t v => putWords t (mtrVB v + 4) [isqrt ((sf.mtrLine v).w2 / max 1 sf.mtr.w) / 1000]) t2
  let t4 := putWords t3 0xA0014 [fb * 65536 + fa, ofSigned 16 aa.2 * 65536 + ofSigned 16 aa.1, ofSigned 16 ab.2 * 65536 + ofSigned 16 ab.1]
  let s3 := (sf.phaseAlarm 0).phaseAlarm 1
  let s4 : State := { s3 with mtr := { s3.mtr with got := some (t4, s.uptime % 0x100000000, s.mtr.count) } }
  ((s4.fset 0 MTR_FREQ_FREQ_A (s.fget 0 MTR_FREQ_FREQ_A)).fset 0 MTR_FREQ_FREQ_B (s.fget 0 MTR_FREQ_FREQ_B)).newInterval

/-- The captured set is published (R345, R346). -/
def State.publish (s : State) : State :=
  match s.mtr.got with
  | none => s
  | some (t, up, n) =>
    let keep := s.regs.filter (fun e => !((0xA0100 ≤ e.1 && e.1 < 0xA3100 && 0x10 ≤ e.1 % 0x100 && e.1 % 0x100 < 0x50) ||
      (0xA4000 ≤ e.1 && e.1 < 0xA6000)))
    let s1 : State := { s with regs := keep, mtr := { s.mtr with got := none } }
    let s2 := t.foldl (fun s e => s.wr e.1 e.2) s1
    let q := s.fget 0 MTR_LATCH_SEQ
    ((s2.fset 0 MTR_LATCH_SEQ (if q = 0xFFFFFFFF then 1 else q + 1)).fset 0 MTR_LATCH_UPTIME up).fset 0 MTR_LATCH_SAMPLES n

/-! ### METER_READ, points, saves -/

/-- The DATA bytes of 16 result words: u64 fields in the given word pairs hold their low word first. -/
def dataBytes (pairs : Nat) (ws : List Nat) : List Byte :=
  let rec go (n : Nat) (l : List Nat) : List Byte :=
    match n, l with
    | n + 1, lo :: hi :: t => beBytes 4 hi ++ beBytes 4 lo ++ go n t
    | _, l => l.flatMap (fun w => beBytes 4 w)
  go pairs ws

/-- The published words at a block. -/
def State.resWords (s : State) (b n : Nat) : List Nat := (List.range n).map (fun w => (s.rd (b + 4 * w)).toNat)

/-- The powers published, for a gallery total served from the store. -/
def State.pubTab (s : State) : Tab Word := s.regs.filter (fun e => 0xA0000 ≤ e.1 && e.1 < 0xA5000)

/-- The value of a metering point (R360): inputs P, Q, S, IRMS, VRMS, PF, ANGLE, FREQ (0–7), EP_IMP … ES (8–12). -/
def State.meterInRead (s : State) (i item : Nat) : Nat :=
  let w := fun k => (s.rd (mtrIB i + 0x10 + 4 * k)).toNat
  let u := fun j => w (2 * j) + 0x100000000 * w (2 * j + 1)
  let r := fun (n : Int) (d : Nat) => f32Of ⟨n, d⟩
  match item with
  | 0 => r (toSigned 32 (w 12)) 1000
  | 1 => r (toSigned 32 (w 13)) 1000
  | 2 => r ((w 10 * w 11 : Nat)) 1000000
  | 3 => r (w 10 : Nat) 1000
  | 4 => r (w 11 : Nat) 1000
  | 5 => r (toSigned 16 (w 14 / 65536)) 10000
  | 6 => r (toSigned 16 (w 14)) 100
  | 7 => r (w 15 / 65536 : Nat) 1000
  | k => if k ≤ 12 then u (k - 8) else 0

/-- The value of a port-meter point: P (0), E at the PD (1), E_PSE (2). -/
def State.meterPortRead (s : State) (p item : Nat) : Nat :=
  let w := fun k => (s.rd (mtrPB p + 4 * k)).toNat
  let e := w 0 + 0x100000000 * w 1
  match item with
  | 0 => f32Of ⟨(w 4 : Nat), 1000⟩
  | 1 => e - (w 2 + 0x100000000 * w 3)
  | _ => e

/-- A save of the energy store is complete (R357). -/
def State.energySaved (s : State) (pfw : Bool) : State :=
  let s1 : State := { s with energySave := some ⟨s.energy, pfw, s.rtc.secs, false⟩ }
  (s1.fset 0 MTR_SAVE_TIME (s.uptime % 0x100000000)).fset 0 MTR_STATUS_SAVE_OK 1

/-- At power-on the newest valid save is restored (R358): event 376 with its source and age. Line cycles, residues and gain ranges
start afresh. -/
def State.energyRestore (s : State) : State :=
  let r : Energy × Nat × Nat := match s.energySave with
    | some x => if x.bad then (.zero, 3, 0) else (x.store, if x.pfw then 1 else 2, min (s.rtc.secs - x.secs) 0xFFFFFF)
    | none => (.zero, 3, 0)
  let s1 : State := { s with energy := { r.1 with res := [] }, mtr := .reset, portMtr := [], pulses := [] }
  let s2 := (List.range 8).foldl (fun s k => s.fset (pulseB k) PULSE_STAT_PENDING (mNat r.1.pend k)) s1
  ((s2.fset 0 MTR_RESTORE_SOURCE r.2.1).fset 0 MTR_RESTORE_AGE r.2.2).event 376 0 (r.2.1 != 1) (r.2.1 * 0x1000000 + r.2.2)

/-- The first parameters come into force with the configuration (R347). -/
def State.meterLoaded (s : State) (version : Nat) : State :=
  let s0 := (s.fset 0 MTR_STATUS_FW_LOADED 1).fset 0 MTR_STATUS_FW_VERSION version
  let s1 := (List.range 48).foldl (fun s i =>
    let b := mtrIB i
    let x : MtrIn := { s.mtrIn i with cfg := (s.rd b).toNat, ratio := s.fget b MTR_I_RATIO, comp := s.fget b MTR_I_PHASE_COMP }
    let s1 := s.setMtrIn i x
    if x.get MTR_I_CFG_AUTO_GAIN = 0 then s1.fset b MTR_I_STAT_GAIN (x.get MTR_I_CFG_GAIN) else s1) s0
  let s2 := (List.range 8).foldl (fun s k => s.setPulse k { s.pulse k with cfg := (s.rd (pulseB k)).toNat, const := s.fget (pulseB k) PULSE_CONST }) s1
  ({ s2 with mtr := { s2.mtr with ctrl := (s2.rd 0xA0000).toNat } } : State).pulseJudge

/-- A METER reset (R359, R362, R442): configuration and status clear; the published set, the energy store, SEAL, the counts since power-on
and the change count stay, and pulse outputs go low. -/
def State.meterReset (s : State) : State :=
  let drop := fun k => decide (0xA0000 ≤ k ∧ k ≤ 0xAFFFF) &&
    !((0xA0100 ≤ k && k < 0xA3100 && 0x10 ≤ k % 0x100 && k % 0x100 < 0x50) || (0xA4000 ≤ k && k < 0xA6000) ||
      (0xA0008 ≤ k && k < 0xA0038 && k != 0xA0030) || (0xA6000 ≤ k && k % 0x20 == 8))
  let s1 := (s.regClear drop).fset 0 MTR_STATUS_SEAL (s.fget 0 MTR_STATUS_SEAL)
  let s2 := (List.range 48).foldl (fun u i => u.fset (mtrIB i) MTR_I_STAT_GSW_CNT (s.fget (mtrIB i) MTR_I_STAT_GSW_CNT)) s1
  let s3 := (List.range 6).foldl (fun u v => u.fset (mtrVB v) MTR_V_STAT_LOSS_CNT (s.fget (mtrVB v) MTR_V_STAT_LOSS_CNT)) s2
  let m : MtrSt := { MtrSt.reset with gapFrom := some (s.mtr.gapFrom.getD s.now) }
  let s4 := s3.pulses.foldl (fun u e => if e.2.on then u.send (.pulse e.1 false) else u) s3
  { s4 with mtr := m, pulses := s4.pulses.map (fun e => (e.1, { e.2 with on := false })) }

/-- The METER domain leaves reset: `MTR_GAP` adds the length of the reset, ms (R359). -/
def State.meterUp (s : State) : State :=
  match s.mtr.gapFrom with
  | some t => ({ s with mtr := { s.mtr with gapFrom := none } } : State).fadd 0 MTR_GAP ((s.now - t) / 1000000)
  | none => s

end Sys2Proof.Machine
end

