-- ==== Sys2Proof/Machine/PointOps.lean ====
section
/-! DEFINITION. What a point reads and where a write to it goes (R125, R174, R210, R324, R360, R370, R392). -/

namespace Sys2Proof.Machine
open Sys2Proof

/-- The PORT_STATE point of a port (R174). -/
def State.portRead (s : State) (p : Nat) : Nat :=
  let b := portB p
  s.fget b PORT_PD_END_VPD / 10 * 2 ^ 48 + min 65535 (s.fget b PORT_POWER / 10) * 2 ^ 32 + s.fget b PORT_STATUS_REQ * 2 ^ 24 +
    s.fget b PORT_STATUS_REASON * 2 ^ 16 + s.fget b PORT_STATUS_CLASS_B * 2 ^ 12 + s.fget b PORT_STATUS_CLASS * 2 ^ 8 +
    s.fget b PORT_STATUS_STATE_B * 2 ^ 4 + s.fget b PORT_STATUS_STATE

/-- The read layout of what a binding names. -/
def State.bindRead (s : State) : Binding → Nat
  | .prog => 0
  | .loop q i => s.loopRead q.val i.val
  | .aio c => s.aioRead c.val
  | .can n o g => s.sigRead n.val o.val g.val
  | .meterIn i k => s.meterInRead i.val k
  | .meterPort p k => s.meterPortRead p.val k
  | .port p => s.portRead p.val
  | .node n => match s.lumLane (n.val / 4) with
    | some l => s.nodeRead l n.val
    | none => 0
  | .group g => match s.grant (s.grpOwner g.val) with
    | some l => s.groupRead l g.val
    | none => 0

/-- A supervisor's write to what a binding names. -/
def State.bindWrite (s : State) (v : Nat) : Binding → State
  | .loop q i => s.loopWrite q.val i.val v true
  | .aio c => s.aioWrite c.val v
  | .can n o g => s.canStage n.val o.val g.val v
  | .port p => if v ≤ 1 then s.portRequest p.val (v == 1) else s
  | _ => s

/-- Does a force replace the value of a bound entry as an output, or as an input (R296)? -/
def State.bindIsOut (s : State) : Binding → Bool
  | .aio c => aioOut (s.aioMode c.val)
  | .can n o _ => s.fbit (canObjB n.val o.val) CAN_OBJ_ID_DIR
  | _ => false

/-- The domain whose reset a point of this binding answers BLOCK_IN_RESET for (R100). A port meter's METER_VALUE is served while METER is in reset:
R100 does not say which block it has, and PORTPWR measures it (DESIGN CHOICE, log entry 99). -/
def bindDom : Binding → Option Dom
  | .aio _ => some .aio
  | .can _ _ _ => some .can
  | .meterIn _ _ => some .meter
  | _ => none

end Sys2Proof.Machine
end

