-- ==== Sys2Proof/Machine/CycOps.lean ====
section
/-! DEFINITION. The cycle executor: the tick, the process image, forces, mailboxes, commits and program starts (chapter "Cycle
executor and control programs"). -/

namespace Sys2Proof.Machine
open Sys2Proof

/-! ### Cells and clusters (R26, R40, R267, R268) -/

/-- The lane of cluster `c`. -/
def clusterLane (c : Nat) : Lane := if c < 8 then .a else .b

/-- The 4 MiB region of cluster `c` in its lane's cell memory window. -/
def clusterKey (c : Nat) : Nat := laneKey (clusterLane c) (0x1000000 + c % 8 * 0x400000)

/-- The shared memory of cluster `c`. -/
def sharedKey (c : Nat) : Nat := clusterKey c + 0x300000

def cluB (c : Nat) : Nat := 0x1A0700 + 4 * c

def cellB (n : Nat) : Nat := 0x1A0800 + 4 * n

/-- The physical cell on which logical cell `n` runs. -/
def State.phys (s : State) (n : Nat) : Nat := s.fget (cellB n) CYC_CELL_PHYS

/-- The local memory of physical cell `p`. -/
def localKey (p : Nat) : Nat := clusterKey (p / 17) + p % 17 * 0x20000

/-- The position of a cluster that runs no logical cell and is not mapped out: its free spare. -/
def State.spareOf (s : State) (c : Nat) : Option Nat :=
  let used := (List.range 16).map (fun k => s.phys (16 * c + k))
  let out := s.fget (cluB c) CYC_CLUSTER_MAPPED_OUT
  if s.fbit (cluB c) CYC_CLUSTER_SPARE_FREE then
    ((List.range 17).find? (fun j => !out.testBit j && !used.contains (17 * c + j))).map (fun j => 17 * c + j)
  else none

/-- The position of a cluster mapped out by fuse (R304). -/
def fusedOut (c : Nat) : Option Nat := (Config.fusedPos c).map (fun j => j.val)

/-- The registers of a cluster's runtime BIST in its lane. -/
def bistB (c : Nat) : Nat := laneKey (clusterLane c) (0x1C8100 + 4 * (c % 8))

/-- The physical cell that runs logical cell `n` now: the spare while its position is under test (R457). -/
def State.runsOn (s : State) (n : Nat) : Nat :=
  let c := n / 16
  let p := s.phys n
  if s.fbit (cluB c) CYC_CLUSTER_SPARE_BIST && s.fget (bistB c) BIST_CLUSTER_POS == p - 17 * c then
    (match s.spareOf c with
    | some q => q
    | none => p)
  else p

/-- Logical cell `n` as the image numbers it: in PAIRED both lanes run cells 0–127. -/
def State.imageCell (s : State) (n : Nat) : Nat :=
  match s.image with
  | some i => if i.wide then n else n % 128
  | none => n

/-- The task and the partition of a number in an image. -/
def taskOf (i : ProgImage) (t : Nat) : Option TaskDesc := i.tasks.find? (fun d => d.task.val == t)
def partOf (i : ProgImage) (t home : Nat) : Option PartDesc := i.parts.find? (fun d => d.task.val == t && d.cell.val == home)

/-- MULT of a task of an image: its INTERVAL in base cycles (R274). -/
def multOf (i : ProgImage) (d : TaskDesc) : Nat := d.interval / (1000 * i.base)

/-- Does a task execute in cycle `n` (R275)? -/
def dueIn (i : ProgImage) (d : TaskDesc) (n : Nat) : Bool :=
  decide (multOf i d ≠ 0) && decide ((n + multOf i d - d.phase % multOf i d) % multOf i d = 0)

/-- CODE_END of logical cell `n` (R267). -/
def State.codeEnd (s : State) (n : Nat) : Nat :=
  match s.image with
  | some i => ((i.cells.find? (fun c => c.cell.val == s.imageCell n)).map (fun c => c.codeEnd.toNat * 0x1000)).getD 0
  | none => 0

/-- Where the data of a placed partition lie. -/
def State.partKey (s : State) (a : PartAt) : Nat := localKey (s.runsOn a.host) + a.base

/-- Where a task's part of its cluster's shared data lies (R268). -/
def taskKey (d : TaskDesc) (host : Nat) : Nat := sharedKey (host / 16) + 0x61000 + d.sharedBase

/-- The partitions of a task placed on a lane. -/
def State.taskParts (s : State) (l : Lane) (t : Nat) : List PartAt := (s.cyc l).parts.filter (fun a => a.task == t)

/-- Does lane `l` run task `t` (R19, R307, R424)? -/
def State.taskRuns (s : State) (l : Lane) (t : Nat) : Bool :=
  let g := s.taskOwner t
  decide (s.grant g = some l) && !s.galShed g && (s.taskParts l t).all (fun a => a.runs)

/-! ### The image of a cycle (R287, R288) -/

/-- The number `k` cycles before `n`. -/
def cycleAgo (n k : Nat) : Nat := (n + 0x100000000 - k % 0x100000000) % 0x100000000

/-- How many cycles `m` lies after `n` (modulo 2^32). -/
def cyclesAfter (m n : Nat) : Nat := (m + 0x100000000 - n) % 0x100000000

/-- The input value of entry `e` latched at tick `n`. -/
def State.inVal (s : State) (n e : Nat) : Nat := nat0 s.inBuf (n % 4 * 8192 + e)

/-- The value to which a force table forces a point-table entry. -/
def forcedTo (fs : List ForceEnt) (e : Nat) : Option Nat := (fs.find? (fun f => f.ptype != 16 && f.index == e)).map (fun f => f.value)

/-- The forced value of a point-table entry. -/
def State.forcedVal (s : State) (e : Nat) : Option Nat := forcedTo s.forces e

/-- The forced value of an entry in cycle `n`. -/
def State.forcedIn (s : State) (n e : Nat) : Option Nat := forcedTo (s.tickRec n).forces e

/-- Does a force of an entry replace its input value (R296)? -/
def State.forcesInput (s : State) (p : PointEnt) : Bool := p.ptype == 1 || p.ptype == 10 || ((p.ptype == 7 || p.ptype == 8) && !s.bindIsOut p.bind)

/-- The value entry `e` shows in the image latched now (R288). -/
def State.liveIn (s : State) (e : Nat) : Nat :=
  let p := s.point e
  match (if s.forcesInput p then s.forcedVal e else none) with
  | some v => v
  | none => match p.ptype with
    | 1 => nat0 s.progIn e
    | 2 => nat0 s.committed e
    | 3 => nat0 s.committed e
    | _ => s.bindRead p.bind

/-- The input image is latched at tick `n` into buffer n mod 4 (R279, R288). -/
def State.latchIn (s : State) (n : Nat) : State :=
  let kept := s.inBuf.filter (fun e => e.1 / 8192 != n % 4)
  let new := (s.points.filter (fun q => q.2.ptype != 0)).foldl (fun t q => put0 t (n % 4 * 8192 + q.1) (s.liveIn q.1)) kept
  { s with inBuf := new }

/-! ### Forces and supervisor writes at a tick (R101, R126, R291, R297–R299) -/

/-- The generation of an object of a type and index (R126). -/
def State.genOf (s : State) (ptype index : Nat) : Nat :=
  if ptype = 16 then max 1 (nat0 s.nodeGen index) else if ptype = 17 then max 1 (nat0 s.groupGen index)
  else if (s.point index).ptype = ptype then (s.point index).gen else 0

/-- Kinds of what waits for a tick: 0 a write, 1 a FORCE, 2 an UNFORCE, 3 an UNFORCE of everything, 4 what a task has committed of a node or
group (R219). -/
def actWrite : Nat := 0
def actForce : Nat := 1
def actUnforce : Nat := 2
def actUnforceAll : Nat := 3
def actCommit : Nat := 4

/-- Does a force of type and index stand? -/
def State.isForced (s : State) (ptype index : Nat) : Bool :=
  s.forces.any (fun f => (f.ptype == 16) == (ptype == 16) && f.index == index)

/-- A force takes effect (R297, R299): REQ follows a forced PORT_STATE at once (R175), everything else at the place R296 names. -/
def State.setForce (s : State) (ptype index v : Nat) : State :=
  let s1 : State := { s with forces := s.forces.filter (fun f => !((f.ptype == 16) == (ptype == 16) && f.index == index)) ++ [⟨ptype, index, v⟩] }
  match ptype, (s.point index).bind, s.mode with
  | 10, .port _, .safe => s1
  | 10, .port p, _ => s1.portRequest p.val (v % 2 == 1)
  | _, _, _ => s1

/-- Is what waits for the tick still about the object it was accepted for (R126)? -/
def State.actLive (s : State) (a : TickAct) : Bool :=
  a.kind == actUnforceAll || (s.genOf a.ptype a.index == a.gen && a.gen != 0)

/-- A supervisor write takes effect (R101, R221, R290): a PROG_VAR waits for S(n) of this tick's cycle, a PROG_IN becomes the entry's input
value, an analogue or CAN output waits for Rel(n) while programs run (R369, R393), and everything else goes to its resource. -/
def State.actGo (s : State) (a : TickAct) : State :=
  if a.ptype = 16 then (match s.lumLane (a.index / 4) with
    | some l => s.nodeWrite l a.index a.value
    | none => s)
  else if a.ptype = 17 then (match s.grant (s.grpOwner a.index) with
    | some l => s.groupWrite l a.index a.value
    | none => s)
  else if a.ptype = 1 then { s with progIn := put0 s.progIn a.index a.value }
  else if a.ptype = 3 then
    [Lane.a, Lane.b].foldl (fun s l => let c := s.cyc l; s.setCyc l { c with varW := c.varW ++ [(s.tickNo, a.index, a.value)] }) s
  else if (a.ptype = 7 ∨ a.ptype = 8) ∧ (s.mode = .paired ∨ s.mode = .wide) then { s with relActs := s.relActs ++ [a] }
  else s.bindWrite a.value (s.point a.index).bind

/-- The same, but a write that meets a force of its point waits until the force is released (R308); the value of a PROG_IN and the level of a
node lie beside the forced one. -/
def State.actApply (s : State) (a : TickAct) : State :=
  if a.ptype ≠ 1 ∧ a.ptype ≠ 16 ∧ s.isForced a.ptype a.index then { s with hidden := s.hidden ++ [a] } else s.actGo a

/-- A force is released (R297): what it hid takes effect (R308). -/
def State.dropForce (s : State) (f : ForceEnt) : State :=
  let mine := fun (a : TickAct) => (f.ptype == 16) == (a.ptype == 16) && f.index == a.index
  let s1 : State := { s with forces := s.forces.erase f, hidden := s.hidden.filter (fun a => !mine a) }
  (s.hidden.filter mine).foldl (fun s a => s.actGo a) s1

/-! ### Objects that are re-roled (R126) -/

/-- The generation after `g` (R126). -/
def genNext (g : Nat) : Nat := if g ≥ 255 then 1 else g + 1

/-- What waits for a tick and was accepted for an object that has been re-roled since is dropped; writes and forces are counted (R126). -/
def State.dropActs (s : State) : State :=
  let dead := fun (a : TickAct) => !s.actLive a
  let n := ((s.acts ++ s.relActs).filter (fun a => dead a && (a.kind == actWrite || a.kind == actForce))).length
  ({ s with acts := s.acts.filter (fun a => !dead a), relActs := s.relActs.filter (fun a => !dead a) } : State).fadd 0 HG_OWN_WRDROP n

/-- The forces and hidden writes of objects end with their roles `rs` (R298): event 516; what was accepted for them is dropped, and images older than
the tick still show them as they were (R101). -/
def State.rolesEnd (s : State) (rs : List OldRole) : State :=
  let hit (t n : Nat) : Bool := rs.any (fun r => (r.ptype == 16) == (t == 16) && (r.ptype == 17) == (t == 17) && r.index == n)
  let gone := s.forces.filter (fun f => hit f.ptype f.index)
  let s1 : State := { s with forces := s.forces.filter (fun f => !hit f.ptype f.index), hidden := s.hidden.filter (fun a => !hit a.ptype a.index) }
  let s2 := if gone.isEmpty then s1 else s1.event 516 0 false (s1.forces.length * 0x10000 + min gone.length 0xFFFF)
  ({ s2 with oldRoles := s2.oldRoles ++ rs } : State).dropActs

/-- The objects of `rs` take their next generation (R126). -/
def State.reRole (s : State) (rs : List OldRole) : State :=
  (rs.foldl (fun s (r : OldRole) =>
    if r.ptype = 16 then { s with nodeGen := put0 s.nodeGen r.index (genNext r.gen) }
    else if r.ptype = 17 then { s with groupGen := put0 s.groupGen r.index (genNext r.gen) }
    else s.setPoint r.index { s.point r.index with gen := genNext r.gen }) s).rolesEnd rs

/-- In HOLD outputs hold (R8): a write that would move one waits until HOLD is left. -/
def State.actHeld (s : State) (a : TickAct) : Bool :=
  s.mode == .hold && a.kind == actWrite && (a.ptype == 7 || a.ptype == 8 || a.ptype == 10 || a.ptype == 16 || a.ptype == 17)

/-- Group writes come first, in ascending group number, then the other writes in order of acceptance, then tasks' commits (R221). -/
def actOrder (l : List TickAct) : List TickAct :=
  let gs := l.filter (fun a => a.ptype == 17)
  (gs.foldl (fun acc a => acc.takeWhile (fun b => b.index ≤ a.index) ++ a :: acc.dropWhile (fun b => b.index ≤ a.index)) []) ++
    l.filter (fun a => a.ptype != 17 && a.kind != actCommit) ++ l.filter (fun a => a.ptype != 17 && a.kind == actCommit)

/-- Is what waits due at tick `n` (R101)? -/
def TickAct.due (a : TickAct) (n : Nat) : Bool := decide (cyclesAfter n a.cycle < 0x80000000)

/-- In SERVICE no release comes: what waits for one takes effect at a tick (R8, R101). -/
def State.relFlush (s : State) : State :=
  if s.mode = .service then
    (s.relActs.filter (fun a => s.actLive a && !s.isForced a.ptype a.index)).foldl (fun s a => s.bindWrite a.value (s.point a.index).bind)
      { s with relActs := [] }
  else s

/-- Everything that waits for tick `n` takes effect (R291): forces and unforces, then writes; what was re-roled is dropped and
counted. Event 516 is raised when the force table changed. -/
def State.tickActs (s : State) (n : Nat) : State :=
  let now (a : TickAct) : Bool := a.due n && !s.actHeld a
  let due := s.acts.filter now
  let s0 : State := { s with acts := s.acts.filter (fun a => !now a) }
  let bad := due.filter (fun a => !s0.actLive a)
  let good := due.filter (fun a => s0.actLive a)
  let s1 := s0.relFlush.fadd 0 HG_OWN_WRDROP (bad.filter (fun a => a.kind == actWrite || a.kind == actForce)).length
  let r := (good.filter (fun a => a.kind != actWrite && a.kind != actCommit)).foldl (fun (acc : State × Nat) a =>
    if a.kind = actForce then
      (if acc.1.forces.length < 512 ∨ acc.1.isForced a.ptype a.index then (acc.1.setForce a.ptype a.index a.value, acc.2 + 1) else acc)
    else
      let out := if a.kind = actUnforceAll then acc.1.forces
        else acc.1.forces.filter (fun f => (f.ptype == 16) == (a.ptype == 16) && f.index == a.index)
      (out.foldl (fun s f => s.dropForce f) acc.1, acc.2 + out.length)) (s1, 0)
  let s2 := if r.2 = 0 then r.1 else r.1.event 516 0 false (r.1.forces.length * 0x10000 + min r.2 0xFFFF)
  (actOrder (good.filter (fun a => a.kind == actWrite || a.kind == actCommit))).foldl (fun s a => s.actApply a) s2

/-! ### Late cycles and the idle reserve (R279, R283, R284) -/

/-- The base of lane `l`'s CYC registers and of its task `t`. -/
def cycB (l : Lane) : Nat := laneKey l 0
def taskB (l : Lane) (t : Nat) : Nat := laneKey l (0x1A0100 + 0x10 * t)

/-- The idle reserve of the cycle before the tick that falls now (R283). -/
def State.idleReserve (s : State) (l : Lane) : State :=
  let c := s.cyc l
  if !s.runsCycles l || c.phase == .stopped || c.n != cycleAgo s.tickNo 1 && c.phase == .waiting then s
  else
    let out := (c.phase == .released || c.phase == .waiting) && c.n == cycleAgo s.tickNo 1
    let ns := if out then s.now - c.relAt else 0
    let us := ns / 1000
    let s1 := s.fset (cycB l) CYC_IDLE_MIN (min (s.fget (cycB l) CYC_IDLE_MIN) us)
    if 100 * ns < 15 * s.periodNs then
      let s2 := s1.fset (cycB l) CYC_STATUS_IDLE_LOW 1
      if c.phase == .waiting then s2.eventLimited 514 0 0 false us 1000000000
      else s2.setCyc l { c with idleLow := some us }
    else s1

/-- Where the next cycle of a lane lies: its number and its tick's instant, if that tick has fallen. -/
def State.nextCycle (s : State) (l : Lane) : Option (Nat × Nat) :=
  let c := s.cyc l
  let k := cyclesAfter s.tickNo c.n
  let n := (c.n + 1) % 0x100000000
  if k = 0 ∨ k ≥ 0x80000000 then none else some (n, (s.tickRec n).at_)

/-! ### Mailboxes (R292–R295) -/

/-- A bit of cluster control at offset `o` for a mailbox of logical cell `n` (R294). -/
def mbxBit (o n m : Nat) : Nat × Nat := (sharedKey (n / 16) + o + (16 * (n % 16) + m) / 8, (16 * (n % 16) + m) % 8)

def State.ctlBit (s : State) (b : Nat × Nat) : Bool := (s.mget b.1).getLsbD b.2

def State.setCtlBit (s : State) (b : Nat × Nat) (v : Bool) : State :=
  let m : Byte := 1#8 <<< b.2
  s.mset b.1 (if v then s.mget b.1 ||| m else s.mget b.1 &&& ~~~m)

/-- The bank `b` of a mailbox (R292). -/
def bankKey (n m b : Nat) : Nat := sharedKey (n / 16) + 0x50000 + n % 16 * 0x1000 + m * 0x100 + b * 0x80

/-- The logical cell of lane `l` that the image in force numbers `n`: in PAIRED an image numbers cells 0–127, which lane B runs as
128–255 (R280, R408). -/
def State.laneCell (s : State) (l : Lane) (n : Nat) : Nat :=
  match s.image with
  | some i => if i.wide then n else n % 128 + 128 * l.num
  | none => n

/-- The logical cell that holds a mailbox on lane `l`: the cell where the receiving partition is placed (R295, R410). -/
def State.boxCell (s : State) (l : Lane) (d : MailboxDesc) : Option Nat :=
  ((s.cyc l).parts.find? (fun a => a.task == d.receiver.val && a.home == d.cell.val)).map (fun a => a.cell)

/-- The write bank of a mailbox. -/
def State.writeBank (s : State) (n m : Nat) : Nat := if s.ctlBit (mbxBit 0x60800 n m) then 0 else 1

/-- A partition sends from logical cell `sender`: the write bank takes the message and is marked (R292, R294). -/
def State.mbSend (s : State) (l : Lane) (d : MailboxDesc) (cyc sender : Nat) (payload : List Byte) : State :=
  match s.boxCell l d with
  | none => s
  | some n =>
    let m := d.box.val
    let body := payload.take 120
    let msg := leBytes 2 d.epoch.toNat ++ leBytes 1 sender ++ leBytes 1 d.sender.val ++ leBytes 2 body.length ++ leBytes 2 cyc ++ body
    (s.mwrite (bankKey n m (s.writeBank n m)) msg).setCtlBit (mbxBit 0x60820 n m) true

/-- At S(n + 1) a marked mailbox is judged by its epoch (R293–R295): a kept message becomes readable, and new. -/
def State.mbJudge (s : State) (l : Lane) (d : MailboxDesc) : State :=
  match s.boxCell l d with
  | none => s
  | some n =>
    let m := d.box.val
    let mark := mbxBit 0x60820 n m
    if !s.ctlBit mark then s
    else
      let w := s.writeBank n m
      let s1 := s.setCtlBit mark false
      if s1.mnat (bankKey n m w) 2 = d.epoch.toNat then
        let c := s1.cyc l
        (s1.setCtlBit (mbxBit 0x60800 n m) (w == 1)).setCyc l { c with fresh := if c.fresh.contains (d.cell.val, m) then c.fresh else (d.cell.val, m) :: c.fresh }
      else
        let t := d.receiver.val
        (s1.finc (taskB l t) CYC_TASK_FAULT_COUNT).eventCounted 523 t (s1.taskOwner t) false (n * 0x1000000 + m * 0x10000) 1000000000 1

/-- Every marked mailbox of a lane is judged. -/
def State.mbDeliver (s : State) (l : Lane) : State :=
  match s.image with
  | none => s
  | some i => i.boxes.foldl (fun s d => s.mbJudge l d) s

/-- A mailbox is empty (R294, R300): both banks and its bits in cluster control are zero. -/
def State.mbEmpty (s : State) (l : Lane) (d : MailboxDesc) : State :=
  match s.boxCell l d with
  | none => s
  | some n =>
    let m := d.box.val
    let k := bankKey n m 0
    let s1 := s.memClear (fun a => decide (k ≤ a ∧ a < k + 0x100))
    let c := s1.cyc l
    ((s1.setCtlBit (mbxBit 0x60800 n m) false).setCtlBit (mbxBit 0x60820 n m) false).setCyc l { c with fresh := c.fresh.filter (fun x => x != (d.cell.val, m)) }

/-! ### The commit (R20, R280, R296) -/

/-- Does the commit slot of an entry's partition stay empty in this cycle (R305)? -/
def State.slotEmpty (s : State) (l : Lane) (p : PointEnt) : Bool :=
  (s.cyc l).parts.any (fun a => a.task == p.task && p.writer == some a.home && (s.cyc l).empty.contains a.host)

/-- What a task commits of a node or group takes effect at the next tick (R219, R221). -/
def State.lumCommit (s : State) (t i v : Nat) : State :=
  { s with acts := s.acts ++ [⟨actCommit, t, i, s.genOf t i, 0, v, s.nextTick⟩] }

/-- A staged entry is committed in its cell's slot: under the grant rule, with the value forced in this cycle in place of the program's. What
another gallery's task still drives holds until a task of its owner commits (R132). A port's command goes at the release. -/
def State.commitOne (s : State) (l : Lane) (x : Nat × Nat) : State :=
  let e := x.1
  let p := s.point e
  let g := s.pointOwner e
  if p.ptype = 0 ∨ s.slotEmpty l p ∨ s.taskOwner p.task ≠ g then s
  else if !s.granted l g then (match p.bind with
    | .port _ => s
    | _ => s.grantReject l g)
  else
    let v := match s.forcedIn (s.cyc l).n e with
      | some f => if p.ptype == 2 || p.ptype == 3 || s.bindIsOut p.bind then f else x.2
      | none => x.2
    let s1 : State := { s with committed := put0 s.committed e v }
    match p.ptype, p.bind with
    | 3, _ => let c := s1.cyc l; s1.setCyc l { c with vars := put0 c.vars e v }
    | _, .can n o g => s1.canStage n.val o.val g.val v
    | _, .node n => if levelOk v then s1.lumCommit 16 n.val v else s1
    | _, .group n => if levelOk v then s1.lumCommit 17 n.val v else s1
    | _, _ => s1

/-- A committed output takes effect at the release (R281): analogue outputs, port requests and loop items (CAN signals
have entered their payloads in the commit slot, R393); a
forced loop item or port request keeps its forced value. -/
def State.releaseOne (s : State) (l : Lane) (e : Nat) : State :=
  let p := s.point e
  let v := nat0 s.committed e
  let forced := (s.forcedIn (s.cyc l).n e).isSome
  match p.bind with
  | .aio c => s.aioWrite c.val v
  | .port q => if forced then s else if v ≤ 1 then s.portRequest q.val (v == 1) else s
  | .loop q i => if forced then s else s.loopWrite q.val i.val v false
  | _ => s

/-- Supervisor writes due at the release of cycle `n`, and forced analogue and CAN outputs without a writing cell, take effect at the release
(R369, R378, R393). -/
def State.releaseActs (s : State) (l : Lane) (n : Nat) : State :=
  let mine := fun (a : TickAct) => a.due n && s.granted l (s.pointOwner a.index)
  let due := s.relActs.filter mine
  let s00 : State := { s with relActs := s.relActs.filter (fun a => !mine a) }
  let s0 := s00.fadd 0 HG_OWN_WRDROP (due.filter (fun a => !s.actLive a)).length
  let s1 := due.foldl (fun s a => if !s.actLive a then s else if s.isForced a.ptype a.index then { s with hidden := s.hidden ++ [a] }
    else s.bindWrite a.value (s.point a.index).bind) s0
  ((s1.tickRec n).forces.filter (fun f => (f.ptype == 7 || f.ptype == 8) && s1.bindIsOut (s1.point f.index).bind && (s1.point f.index).writer.isNone &&
    s1.granted l (s1.pointOwner f.index))).foldl (fun s f => s.bindWrite f.value (s.point f.index).bind) s1

/-! ### Program starts (R300, R301) -/

/-- The kinds of start. -/
def kCold : Nat := 0
def kWarm : Nat := 1
def kHot : Nat := 2

/-- Write COLD_NEXT in both lanes (R309). -/
def State.setColdNext (s : State) (on : Bool) : State :=
  (s.fsetB (cycB .a) CYC_CMD_COLD_NEXT on).fsetB (cycB .b) CYC_CMD_COLD_NEXT on

/-- The kind a start asked for as `want` makes, and why a WARM start is discarded: 1 no committed set, 2 another layout, 3 both
copies of its record fail (R301, R310). -/
def State.startKind (s : State) (want : Nat) : Nat × Nat :=
  if want = kHot then (kHot, 0)
  else if s.fbit (cycB .a) CYC_CMD_COLD_NEXT || s.fbit (cycB .b) CYC_CMD_COLD_NEXT || want = kCold then (kCold, 0)
  else match s.retSet with
    | none => (kCold, 1)
    | some r => if r.bad then (kCold, 3) else if some r.layout ≠ s.image.map (fun i => i.layout.toNat) then (kCold, 2) else (kWarm, 0)

/-- The initial value of an entry, that of the RETAIN set `kept` where it has one (R300). -/
def startVal (p : PointEnt) (kept : Option (Tab Nat)) (e : Nat) : Nat :=
  match kept with
  | some k => if p.retain then nat0 k e else p.init
  | none => p.init

/-- A partition's data take their initial values, its RETAIN variables those of `kept` (R300). -/
def State.partStart (s : State) (i : ProgImage) (a : PartAt) (kept : Option (Tab Byte)) : State :=
  match partOf i a.task a.home with
  | none => s
  | some d =>
    let k := s.partKey a
    let data := d.init.take d.size ++ List.replicate (d.size - d.init.length) 0
    let s1 := s.mwrite k data
    match kept with
    | none => s1
    | some t => d.retain.foldl (fun s r => s.mwrite (k + r.1) ((List.range r.2.1).map (fun j => tabGet (fun _ => 0) t (r.2.2 + j)))) s1

/-- A task's shared data take their initial values. -/
def State.sharedStart (s : State) (l : Lane) (d : TaskDesc) : State :=
  match s.taskParts l d.task.val with
  | [] => s
  | a :: _ => s.mwrite (taskKey d a.host) (d.sharedInit.take d.sharedSize ++ List.replicate (d.sharedSize - d.sharedInit.length) 0)

/-- The tasks `sel` of lane `l` begin again (R300): their variables and PROG_IN values, their data and mailboxes; RETAIN ones come from `kept`,
and their next execution sees CYC_FIRST. -/
def State.startTasks (s : State) (l : Lane) (sel : Nat → Bool) (kept : Option RetSet) : State :=
  match s.image with
  | none => s
  | some i =>
    let c := s.cyc l
    let pts := s.points.filter (fun q => sel q.2.task)
    let mine := c.parts.filter (fun a => sel a.task)
    let vars := (pts.filter (fun q => q.2.ptype == 3)).foldl (fun t q => put0 t q.1 (startVal q.2 (kept.map RetSet.vars) q.1)) c.vars
    let ins := (pts.filter (fun q => q.2.ptype == 1)).foldl (fun t q => put0 t q.1 (startVal q.2 (kept.map RetSet.ins) q.1)) s.progIn
    let first := c.first.filter (fun x => !sel x.1) ++ mine.map (fun a => (a.task, a.home))
    let s1 : State := { s.setCyc l { c with vars := vars, first := first, varW := c.varW.filter (fun w => !sel (s.point w.2.1).task) } with progIn := ins }
    let s2 := (i.tasks.filter (fun d => sel d.task.val)).foldl (fun s d => s.sharedStart l d) s1
    let s3 := mine.foldl (fun s a => s.partStart i a (kept.map RetSet.bytes)) s2
    (i.boxes.filter (fun d => sel d.receiver.val)).foldl (fun s d => s.mbEmpty l d) s3

/-- A COLD or WARM start of tasks is reported (R300, R301, R310): event 521 where WARM became COLD, START_KIND, COLD_NEXT used up, and event 522. `k`: the
kind made and why. -/
def State.startNote (s : State) (l : Lane) (k : Nat × Nat) : State :=
  let s0 := s.fset (cycB l) CYC_STATUS_START_KIND k.1
  let s1 := if k.2 ≠ 0 then s0.event 521 0 true (k.2 * 0x1000000) else s0
  (s1.setColdNext false).event 522 0 false (k.1 * 0x1000000 + s1.fget (cycB l) CYC_IMAGE % 0x1000000)

/-- The tasks `sel` of lane `l` make a WARM start, or a COLD one where R301 says so. -/
def State.warmTasks (s : State) (l : Lane) (sel : Nat → Bool) : State :=
  let k := s.startKind kWarm
  (s.startTasks l sel (if k.1 = kWarm then s.retSet else none)).startNote l k

/-- The programs of lane `l` start, asked as `want` (R300, R301): HOT continues; COLD and WARM set the variables, empty the
mailboxes and raise event 522. In WIDE a lane starts the tasks it runs. `at_` is the tick whose cycle is the first. -/
def State.startPrograms (s : State) (l : Lane) (want at_ : Nat) : State :=
  let k := s.startKind want
  let c := s.cyc l
  let idle : CycSt := { c with phase := .waiting, n := cycleAgo at_ 1, late := false, overrun := false, idleLow := none, staged := [], empty := [], varW := [] }
  let s0 := (s.setCyc l idle).fset (cycB l) CYC_STATUS_RUNNING 1
  if k.1 = kHot then s0.fset (cycB l) CYC_STATUS_START_KIND kHot
  else
    let all := match s.image with
      | some i => !i.wide
      | none => true
    (s0.startTasks l (fun t => all || decide (s.grant (s.taskOwner t) = some l)) (if k.1 = kWarm then s.retSet else none)).startNote l
      (k.1, if want = kWarm then k.2 else 0)

/-! ### RETAIN (R302) -/

/-- The RETAIN variables of the tasks lane `l` runs, as they stand now. -/
def State.retainNow (s : State) (l : Lane) : Staging :=
  let c := s.cyc l
  let bytes := match s.image with
    | none => []
    | some i => (c.parts.filter (fun a => s.taskRuns l a.task)).foldl (fun t a => match partOf i a.task a.home with
      | none => t
      | some d => d.retain.foldl (fun t r => (List.range r.2.1).foldl (fun t j => tabSet (fun _ => 0) t (r.2.2 + j) (s.mget (s.partKey a + r.1 + j))) t) t) []
  let mine (e : Nat) : Bool := (s.point e).retain && s.taskRuns l (s.point e).task
  ⟨c.n, bytes, c.vars.filter (fun e => mine e.1), s.progIn.filter (fun e => mine e.1)⟩

/-- The standby's newest complete copy is more than 8 cycles old (R416). -/
def State.staleCheck (s : State) : State :=
  if s.mode = .paired ∧ s.lstate s.hg.active.other = .standby then
    match (s.lane s.hg.active.other).copy with
    | some c =>
      let age := cyclesAfter (s.fget (cycB s.hg.active) CYC_DONE) c.cycle
      if age > 8 ∧ age < 0x80000000 ∧ s.hg.copyStale = false then
        let s1 : State := { s with hg := { s.hg with copyStale := true } }
        s1.event 581 0 true age
      else s
    | none => s
  else s

end Sys2Proof.Machine
end

