-- ==== Sys2Proof/Machine/Program.lean ====
section
/-! DEFINITION. The values of control programs and what their operators, standard function blocks and SFC charts compute
(R270–R273). -/

namespace Sys2Proof.Machine
open Sys2Proof

/-- Is a program language element supported (R270)? -/
def elementOk : Element → Bool
  | .ld | .il | .class | .interface | .method | .property | .extends | .implements | .secondResource | .singleTask | .wstring | .wchar
  | .refTo | .pointer | .dynamicAllocation | .persistent | .varAccess | .varConfig | .sharedGlobal | .recursion | .otherFunction => false
  | .st | .fbd | .sfc | .program | .functionBlock | .function | .cyclicTask | .elementary | .array | .struct | .enumeration | .subrange
  | .varSection | .varGlobal | .retain | .nonRetain | .constant | .atLocation | .boundedLoop | .sfcQualifier | .library => true

/-! ### Elementary types (R271) -/

/-- A value on a cell's stack: a number in the u64 encoding of its type, or a string. -/
inductive Val
  | num (v : Nat)
  | str (cs : List Byte)
deriving DecidableEq, Repr

/-- The 32-bit words of stack a value takes: a string lies there with its length. -/
def Val.room : Val → Nat
  | .num _ => 8
  | .str _ => 256

/-- The bits of a type, by data type code. -/
def tyBits (t : Nat) : Nat := [1, 8, 16, 32, 64, 8, 16, 32, 64, 8, 16, 32, 64, 32, 64, 64].getD t 64

/-- Is the type signed: SINT to LINT, TIME and LTIME? -/
def tySigned (t : Nat) : Bool := (1 ≤ t && t ≤ 4) || t == 15

/-- Is the type REAL or LREAL, and its exponent and fraction bits? -/
def tyReal (t : Nat) : Bool := t == 13 || t == 14
def tyExp (t : Nat) : Nat := if t = 13 then 8 else 11
def tyFrac (t : Nat) : Nat := if t = 13 then 23 else 52

/-- The bytes a variable of a type takes in memory: a string has its length before its characters. -/
def elemBytes : ElemTy → Nat
  | .num t => (tyBits t.toNat + 7) / 8
  | .str n => n.toNat + 1

/-- The number that a VALUE of a type stands for; a REAL's is not taken. -/
def tyInt (t v : Nat) : Int := if tySigned t then toSigned 64 v else v

/-- Integer arithmetic wraps modulo the width of the type (R271). -/
def tyWrap (t : Nat) (n : Int) : Nat :=
  if tySigned t then ofSigned 64 (toSigned (tyBits t) (ofSigned (tyBits t) n)) else ofSigned (tyBits t) n

/-- The limits of an integer type. -/
def tyLow (t : Nat) : Int := if tySigned t then -(2 ^ (tyBits t - 1) : Nat) else 0
def tyHigh (t : Nat) : Int := if tySigned t then (2 ^ (tyBits t - 1) : Nat) - 1 else (2 ^ tyBits t : Nat) - 1

/-- The value that `n` bytes of memory hold for a type. -/
def tyFromMem (t v : Nat) : Nat := if tySigned t then ofSigned 64 (toSigned (tyBits t) v) else v % 2 ^ tyBits t

/-- What a read of a type gives for an index outside its bounds (R272): 0, FALSE or the empty string. -/
def elemZero : ElemTy → Val
  | .num _ => .num 0
  | .str _ => .str []

/-! ### REAL and LREAL (R271) -/

def ieeeTop (t : Nat) : Nat := (2 ^ tyExp t - 1) * 2 ^ tyFrac t
def ieeeSign (t x : Nat) : Nat := x / 2 ^ (tyExp t + tyFrac t) % 2
def ieeeMag (t x : Nat) : Nat := x % 2 ^ (tyExp t + tyFrac t)
def ieeeNan (t x : Nat) : Bool := decide (ieeeTop t < ieeeMag t x)
def ieeeInf (t x : Nat) : Bool := ieeeMag t x == ieeeTop t

/-- A magnitude with a sign. -/
def ieeeWith (t sgn mag : Nat) : Nat := sgn * 2 ^ (tyExp t + tyFrac t) + mag

/-- The NaN that an invalid operation gives: its sign and fraction are free, but it is a quiet NaN. -/
def ieeeBad (t : Nat) : Nat :=
  let f := (Config.nanBits (BitVec.ofNat 4 t)).toNat
  ieeeWith t (f / 2 ^ 63) (ieeeTop t + 2 ^ (tyFrac t - 1) + f % 2 ^ (tyFrac t - 1))

/-- A fraction rounded to nearest even; `sgn` is the sign of a zero. -/
def ieeeNear (t sgn : Nat) (q : Frac) : Nat := if q.num = 0 then ieeeWith t sgn 0 else ieeeRound (tyExp t) (tyFrac t) q

/-- The fraction of a finite pattern. -/
def ieeeFrac (t x : Nat) : Frac := (ieeeVal (tyExp t) (tyFrac t) x).getD Frac.zero

def ieeeNeg (t x : Nat) : Nat := ieeeWith t (1 - ieeeSign t x) (ieeeMag t x)

def ieeeAdd (t x y : Nat) : Nat :=
  if ieeeNan t x || ieeeNan t y then ieeeBad t
  else if ieeeInf t x then (if ieeeInf t y && ieeeSign t x != ieeeSign t y then ieeeBad t else x)
  else if ieeeInf t y then y
  else ieeeNear t (min (ieeeSign t x) (ieeeSign t y)) ((ieeeFrac t x).add (ieeeFrac t y))

def ieeeMul (t x y : Nat) : Nat :=
  let sgn := (ieeeSign t x + ieeeSign t y) % 2
  if ieeeNan t x || ieeeNan t y then ieeeBad t
  else if ieeeInf t x || ieeeInf t y then (if ieeeMag t x = 0 ∨ ieeeMag t y = 0 then ieeeBad t else ieeeWith t sgn (ieeeTop t))
  else ieeeNear t sgn ((ieeeFrac t x).mul (ieeeFrac t y))

def ieeeDiv (t x y : Nat) : Nat :=
  let sgn := (ieeeSign t x + ieeeSign t y) % 2
  if ieeeNan t x || ieeeNan t y then ieeeBad t
  else if ieeeInf t x then (if ieeeInf t y then ieeeBad t else ieeeWith t sgn (ieeeTop t))
  else if ieeeInf t y then ieeeWith t sgn 0
  else match (ieeeFrac t x).div (ieeeFrac t y) with
    | some q => ieeeNear t sgn q
    | none => if ieeeMag t x = 0 then ieeeBad t else ieeeWith t sgn (ieeeTop t)

/-- A square root, rounded to nearest: 1,400 bits after the point, and a last bit that tells a rest. -/
def ieeeSqrt (t x : Nat) : Nat :=
  if ieeeNan t x then ieeeBad t
  else if ieeeMag t x = 0 then x
  else if ieeeSign t x = 1 then ieeeBad t
  else if ieeeInf t x then x
  else
    let q := ieeeFrac t x
    let n := q.num.natAbs * 2 ^ 2800 / q.den
    let r := sqrtBits n (n.log2 / 2 + 1) 0
    ieeeNear t 0 ⟨(2 * r + (if r * r * q.den = q.num.natAbs * 2 ^ 2800 then 0 else 1) : Nat), 2 ^ 1401⟩

/-- Is `x` less than, or equal to, `y`? A NaN is neither. -/
def ieeeLt (t x y : Nat) : Bool :=
  if ieeeNan t x || ieeeNan t y then false
  else
    let k (z : Nat) : Int := if ieeeSign t z = 1 then -(ieeeMag t z : Int) else ieeeMag t z
    decide (k x < k y)

def ieeeEq (t x y : Nat) : Bool := !ieeeNan t x && !ieeeNan t y && !ieeeLt t x y && !ieeeLt t y x

/-! ### Operators (R270–R272) -/

/-- The number of an unstated function. -/
def fnNum : UnOp → Nat
  | .ln => 1
  | .log => 2
  | .exp => 3
  | .sin => 4
  | .cos => 5
  | .tan => 6
  | .asin => 7
  | .acos => 8
  | .atan => 9
  | _ => 0

/-- The result of a function whose value the spec does not give: free, and in the encoding of its type. -/
def freeResult (f t x y : Nat) : Nat :=
  tyFromMem t (Config.mathFn f (BitVec.ofNat 4 t) (BitVec.ofNat 64 x) (BitVec.ofNat 64 y)).toNat

/-- A function of one operand; nothing where the type has no such function (an illegal instruction, R305). -/
def unVal (op : UnOp) (t x : Nat) : Option Nat :=
  match op, tyReal t with
  | .neg, true => some (ieeeNeg t x)
  | .neg, false => some (tyWrap t (-(tyInt t x)))
  | .abs, true => some (ieeeMag t x)
  | .abs, false => some (tyWrap t (if tyInt t x < 0 then -(tyInt t x) else tyInt t x))
  | .not, false => if t = 0 ∨ (9 ≤ t ∧ t ≤ 12) then some (2 ^ tyBits t - 1 - x % 2 ^ tyBits t) else none
  | .not, true => none
  | .sqrt, true => some (ieeeSqrt t x)
  | .trunc, true =>
    if ieeeNan t x || ieeeInf t x then some x
    else
      let q := ieeeFrac t x
      some (ieeeNear t (ieeeSign t x) ⟨if q.num < 0 then -(q.num.natAbs / q.den : Nat) else (q.num.natAbs / q.den : Nat), 1⟩)
  | _, false => none
  | f, true => some (freeResult (fnNum f) t x 0)

/-- Shift and rotate a bit string of `w` bits by `n`. -/
def bitShift (op : BinOp) (w x n : Nat) : Nat :=
  match op with
  | .shl => if n < w then x * 2 ^ n % 2 ^ w else 0
  | .shr => if n < w then x / 2 ^ n else 0
  | .rol => x * 2 ^ (n % w) % 2 ^ w + x / 2 ^ (w - n % w)
  | _ => x / 2 ^ (n % w) + x * 2 ^ (w - n % w) % 2 ^ w

/-- TRUE and FALSE. -/
def bit (b : Bool) : Nat := if b then 1 else 0

/-- A comparison by `lt` and `eq`. -/
def compareBy (op : BinOp) (lt gt eq : Bool) : Option Nat :=
  match op with
  | .eq => some (bit eq)
  | .ne => some (bit !eq)
  | .lt => some (bit lt)
  | .le => some (bit (lt || eq))
  | .gt => some (bit gt)
  | .ge => some (bit (gt || eq))
  | _ => none

/-- An operator of two numbers of type `t`: the result, and whether DIV_ZERO was met (R272). -/
def binVal (op : BinOp) (t x y : Nat) : Option (Nat × Bool) :=
  if tyReal t then
    match op with
    | .add => some (ieeeAdd t x y, false)
    | .sub => some (ieeeAdd t x (ieeeNeg t y), false)
    | .mul => some (ieeeMul t x y, false)
    | .div => some (ieeeDiv t x y, false)
    | .min => some (if ieeeLt t y x then y else x, false)
    | .max => some (if ieeeLt t x y then y else x, false)
    | .expt => some (freeResult 10 t x y, false)
    | _ => (compareBy op (ieeeLt t x y) (ieeeLt t y x) (ieeeEq t x y)).map (fun v => (v, false))
  else
    let a := tyInt t x
    let b := tyInt t y
    let bits := decide (t = 0) || decide (9 ≤ t ∧ t ≤ 12)
    match op with
    | .add => some (tyWrap t (a + b), false)
    | .sub => some (tyWrap t (a - b), false)
    | .mul => some (tyWrap t (a * b), false)
    | .div => some (if b = 0 then (0, true) else (tyWrap t (a.tdiv b), false))
    | .mod => some (if b = 0 then (0, true) else (tyWrap t (a.tmod b), false))
    | .expt => some (freeResult 10 t x y, false)
    | .min => some (if b < a then y else x, false)
    | .max => some (if a < b then y else x, false)
    | .and => if bits then some (x &&& y, false) else none
    | .or => if bits then some (x ||| y, false) else none
    | .xor => if bits then some (x ^^^ y, false) else none
    | .shl | .shr | .rol | .ror => if bits then some (bitShift op (tyBits t) x y, false) else none
    | _ => (compareBy op (decide (a < b)) (decide (b < a)) (decide (a = b))).map (fun v => (v, false))

/-- Is one string before another, by characters? -/
def strLt : List Byte → List Byte → Bool
  | _, [] => false
  | [], _ :: _ => true
  | a :: as, b :: bs => decide (a.toNat < b.toNat) || (a == b && strLt as bs)

/-- A conversion (R272): the result, and whether CONVERSION was met. A REAL becomes the nearest integer; a bit string stands for its
unsigned number. -/
def convNum (t u x : Nat) : Nat × Bool :=
  match tyReal t, tyReal u with
  | true, true =>
    if ieeeNan t x then (if ieeeNan u x && t == u then x else ieeeBad u, false)
    else if ieeeInf t x then (ieeeWith u (ieeeSign t x) (ieeeTop u), false)
    else
      let y := ieeeNear u (ieeeSign t x) (ieeeFrac t x)
      if ieeeInf u y then (y - 1, true) else (y, false)
  | true, false =>
    if ieeeNan t x then (0, true)
    else if ieeeInf t x then (tyWrap u (if ieeeSign t x = 1 then tyLow u else tyHigh u), true)
    else
      let n := (ieeeFrac t x).round
      (tyWrap u (clampI (tyLow u) (tyHigh u) n), decide (n < tyLow u ∨ tyHigh u < n))
  | false, true => (ieeeNear u 0 (Frac.ofInt (tyInt t x)), false)
  | false, false =>
    let n := tyInt t x
    (tyWrap u (clampI (tyLow u) (tyHigh u) n), decide (n < tyLow u ∨ tyHigh u < n))

/-- Where string `b` first stands in `a`, from 1, and 0 where it does not. -/
def strFind (a b : List Byte) : Nat :=
  match (List.range (a.length + 1 - b.length)).find? (fun i => (a.drop i).take b.length == b) with
  | some i => if b.length ≤ a.length then i + 1 else 0
  | none => 0

/-- The string functions on the values taken from the stack, the last argument first. Positions count from 1. -/
def strVal : StrOp → List Val → Option (Val × List Val)
  | .len, .str a :: r => some (.num a.length, r)
  | .left, .num n :: .str a :: r => some (.str (a.take n), r)
  | .right, .num n :: .str a :: r => some (.str (a.drop (a.length - n)), r)
  | .mid, .num p :: .num n :: .str a :: r => some (.str ((a.drop (p - 1)).take n), r)
  | .concat, .str b :: .str a :: r => some (.str (a ++ b), r)
  | .insert, .num p :: .str b :: .str a :: r => some (.str (a.take p ++ b ++ a.drop p), r)
  | .delete, .num p :: .num n :: .str a :: r => some (.str (a.take (p - 1) ++ a.drop (p - 1 + n)), r)
  | .replace, .num p :: .num n :: .str b :: .str a :: r => some (.str (a.take (p - 1) ++ b ++ a.drop (p - 1 + n)), r)
  | .find, .str b :: .str a :: r => some (.num (strFind a b), r)
  | _, _ => none

/-- The place of an array element by its indices, first dimension first: nothing outside the bounds (R272). -/
def arrayAt : List (Int × Int) → List Int → Option Nat
  | [], [] => some 0
  | (lo, hi) :: ds, i :: is =>
    if lo ≤ i ∧ i ≤ hi then
      (arrayAt ds is).map (fun k => (i - lo).toNat * (ds.foldl (fun n d => n * (d.2 - d.1 + 1).toNat) 1) + k)
    else none
  | _, _ => none

/-! ### Standard function blocks (R270): an instance is three 64-bit words -/

/-- What an instance holds: flags or a count, an instant, and an elapsed time or the last inputs. -/
structure Inst where
  a : Nat
  b : Nat
  c : Nat
deriving DecidableEq, Repr

/-- A time in ns read as signed. -/
def nsOf (v : Nat) : Int := toSigned 64 v

/-- The time since an instant, not negative. -/
def sinceNs (now was : Nat) : Int := max 0 (nsOf now - nsOf was)

/-- One call of a standard block at `now`, its inputs as they stand on the stack (the last first): the instance after it and its outputs,
the last on top. The timers measure by CYC_TIME (R276). -/
def blockVal (k : FbKind) (now : Nat) (x : Inst) : List Val → Option (Inst × List Val × List Val)
  | .num pt :: .num i :: r =>
    match k with
    | .ton =>
      if i = 0 then some (⟨0, 0, 0⟩, r, [.num 0, .num 0])
      else
        let b := if x.a = 0 then now else x.b
        let et := min (sinceNs now b) (max 0 (nsOf pt))
        some (⟨1, b, 0⟩, r, [.num (ofSigned 64 et), .num (bit (decide (nsOf pt ≤ et)))])
    | .tof =>
      if i ≠ 0 then some (⟨1, 0, 0⟩, r, [.num 0, .num 1])
      else
        let y : Inst := if x.a = 1 then ⟨2, now, 0⟩ else x
        let et := if y.a = 2 then min (sinceNs now y.b) (max 0 (nsOf pt)) else 0
        some (y, r, [.num (ofSigned 64 et), .num (bit (y.a == 2 && decide (et < nsOf pt)))])
    | .tp =>
      let y : Inst := if x.a = 0 ∧ i ≠ 0 ∧ x.c = 0 then ⟨1, now, 1⟩ else x
      let et := if y.a = 1 then min (sinceNs now y.b) (max 0 (nsOf pt)) else 0
      let on := y.a == 1 && decide (et < nsOf pt)
      let z : Inst := ⟨if y.a = 1 ∧ (on ∨ i ≠ 0) then 1 else 0, y.b, bit (i != 0)⟩
      some (z, r, [.num (ofSigned 64 (if z.a = 1 then et else 0)), .num (bit on)])
    | .sr =>
      let q := bit (i != 0 || (pt == 0 && x.a == 1))
      some (⟨q, 0, 0⟩, r, [.num q])
    | .rs =>
      let q := bit (pt == 0 && (i != 0 || x.a == 1))
      some (⟨q, 0, 0⟩, r, [.num q])
    | .rTrig => some (⟨bit (pt != 0), 0, 0⟩, .num i :: r, [.num (bit (pt != 0 && x.a == 0))])
    | .fTrig => some (⟨bit (pt != 0), 0, 0⟩, .num i :: r, [.num (bit (pt == 0 && x.a == 1))])
    | .ctu =>
      match r with
      | .num cu :: r =>
        let v := if i ≠ 0 then 0 else if cu ≠ 0 ∧ x.c = 0 ∧ toSigned 64 x.a < 32767 then toSigned 64 x.a + 1 else toSigned 64 x.a
        some (⟨ofSigned 64 v, 0, bit (cu != 0)⟩, r, [.num (ofSigned 64 v), .num (bit (decide (toSigned 64 pt ≤ v)))])
      | _ => none
    | .ctd =>
      match r with
      | .num cd :: r =>
        let v := if i ≠ 0 then toSigned 64 pt else if cd ≠ 0 ∧ x.c = 0 ∧ -32768 < toSigned 64 x.a then toSigned 64 x.a - 1 else toSigned 64 x.a
        some (⟨ofSigned 64 v, 0, bit (cd != 0)⟩, r, [.num (ofSigned 64 v), .num (bit (decide (v ≤ 0)))])
      | _ => none
    | .ctud =>
      match r with
      | .num rst :: .num cd :: .num cu :: r =>
        let up := cu != 0 && x.b == 0
        let down := cd != 0 && x.c == 0
        let w := toSigned 64 x.a
        let v := if rst ≠ 0 then 0 else if i ≠ 0 then toSigned 64 pt
          else if up && !down && decide (w < 32767) then w + 1 else if down && !up && decide (-32768 < w) then w - 1 else w
        some (⟨ofSigned 64 v, bit (cu != 0), bit (cd != 0)⟩, r,
          [.num (ofSigned 64 v), .num (bit (decide (v ≤ 0))), .num (bit (decide (toSigned 64 pt ≤ v)))])
      | _ => none
  | [.num i] =>
    match k with
    | .rTrig => some (⟨bit (i != 0), 0, 0⟩, [], [.num (bit (i != 0 && x.a == 0))])
    | .fTrig => some (⟨bit (i != 0), 0, 0⟩, [], [.num (bit (i == 0 && x.a == 1))])
    | _ => none
  | _ => none

/-! ### SFC charts (R270) -/

/-- A step's word: 0 inactive, 1 active, 2 initially active, before the first evolution. `since` is the instant of its activation, or, of an
action's association, of its storing. -/
structure Mark where
  flag : Nat
  since : Nat
deriving DecidableEq, Repr

/-- The steps after one evolution: every transition enabled at the start clears, all together. -/
def chartSteps (c : Chart) (now : Nat) (conds : List Bool) (ms : List Mark) : List Mark :=
  let on (i : Nat) : Bool := (ms.getD i ⟨0, 0⟩).flag != 0
  let fired := ((c.trans.zip conds).filter (fun x => x.2 && x.1.1.all on)).map (fun x => x.1)
  (List.range c.steps).map (fun i =>
    let m := ms.getD i ⟨0, 0⟩
    if fired.any (fun t => t.2.contains i) then ⟨1, now⟩
    else if fired.any (fun t => t.1.contains i) then ⟨0, now⟩
    else if m.flag = 2 then ⟨1, now⟩
    else m)

/-- An association after the evolution: what it stores, and whether it drives its action. `was`: the step was active before; `stop`: the
action's R is active. -/
def chartAssoc (q : Qual) (t now : Nat) (stop was : Bool) (step m : Mark) : Mark × Bool :=
  let x := step.flag != 0
  let up := x && !was
  let late (k : Nat) : Bool := decide (nsOf t ≤ sinceNs now k)
  match q with
  | .n => (m, x)
  | .p | .p1 => (m, up)
  | .p0 => (m, !x && was)
  | .r => (m, false)
  | .l => (m, x && !late step.since)
  | .d => (m, x && late step.since)
  | .s => let n : Mark := if stop then ⟨0, 0⟩ else if x then ⟨1, now⟩ else m; (n, n.flag != 0)
  | .sd => let n : Mark := if stop then ⟨0, 0⟩ else if up then ⟨1, now⟩ else m; (n, n.flag != 0 && late n.since)
  | .ds => let n : Mark := if stop then ⟨0, 0⟩ else if x && late step.since then ⟨1, now⟩ else m; (n, n.flag != 0)
  | .sl => let n : Mark := if stop then ⟨0, 0⟩ else if up then ⟨1, now⟩ else m; (n, n.flag != 0 && !late n.since)

/-- One evolution of a chart (R270): the marks of its steps and associations after it, and which actions run. -/
def chartEvolve (c : Chart) (now : Nat) (conds : List Bool) (ms : List Mark) : List Mark × List Bool :=
  let steps := chartSteps c now conds ms
  let was (i : Nat) : Bool := (ms.getD i ⟨0, 0⟩).flag == 1
  let stop (a : Nat) : Bool := c.assoc.any (fun x => x.2.1 == .r && x.2.2.2 == a && (steps.getD x.1 ⟨0, 0⟩).flag != 0)
  let as := (c.assoc.zip (List.range c.assoc.length)).map (fun x =>
    let r := chartAssoc x.1.2.1 x.1.2.2.1.toNat now (stop x.1.2.2.2) (was x.1.1) (steps.getD x.1.1 ⟨0, 0⟩) (ms.getD (c.steps + x.2) ⟨0, 0⟩)
    (r.1, x.1.2.2.2, r.2))
  (steps ++ as.map (fun x => x.1), (List.range c.actions).map (fun a => !stop a && as.any (fun x => x.2.1 == a && x.2.2)))

end Sys2Proof.Machine
end

