-- ==== Sys2Proof/Machine/CellOps.lean ====
section
/-! DEFINITION. Cells: which partitions they host, what an image loads into them, the checks of the load table, and what a cell fault does
(R267, R274, R277, R304–R307, R410). -/

namespace Sys2Proof.Machine
open Sys2Proof

/-- `n` bytes of memory from `src` are copied to `dst`. -/
def State.copyRange (s : State) (src dst n : Nat) : State :=
  let es := s.mem.filter (fun e => decide (src ≤ e.1 ∧ e.1 < src + n))
  let s1 := s.memClear (fun k => decide (dst ≤ k ∧ k < dst + n))
  es.foldl (fun s e => s.mset (dst + (e.1 - src)) e.2) s1

/-! ### The load table (R267, R274, R277) -/

/-- Two periods with phases fall due in one cycle at some time: their phases agree modulo the greatest common divisor. For any number of them it
is enough that each two do. -/
def duePair (a b : Nat × Nat × Nat) : Bool := decide (a.2.1 % Nat.gcd a.1 b.1 = b.2.1 % Nat.gcd a.1 b.1)

/-- The largest sum of the times of entries (period, phase, time) that fall due in one cycle, beside those of `ch`. -/
def maxLoad (ch : List (Nat × Nat × Nat)) : List (Nat × Nat × Nat) → Nat
  | [] => 0
  | x :: xs => max (maxLoad ch xs) (if ch.all (duePair x) then x.2.2 + maxLoad (x :: ch) xs else 0)

/-- The period, phase and estimate of a partition. -/
def partLoad (i : ProgImage) (d : PartDesc) : Nat × Nat × Nat :=
  match taskOf i d.task.val with
  | some t => (multOf i t, t.phase, d.est)
  | none => (1, 0, d.est)

/-- The partitions `ds` fit one cell: their number, their code and data, and their estimated times in every cycle (R267, R274, R277). -/
def cellFits (i : ProgImage) (ds : List PartDesc) : Bool :=
  decide (ds.length ≤ 8) && decide ((ds.map (fun d => d.codeSize + d.size)).sum ≤ 126976) &&
  decide (2000 + maxLoad [] (ds.map (partLoad i)) ≤ 1000 * i.commit)

/-- The placement of an image's partitions on lane `l` (R408, R410). -/
def laneParts (i : ProgImage) (l : Lane) : List PartAt :=
  i.parts.filterMap (fun d =>
    let n := d.cell.val
    let m := n % 128 + 128 * l.num
    if !i.wide then some ⟨d.task.val, n, m, m, d.base, true⟩
    else if clusterLane (n / 16) = l then some ⟨d.task.val, n, n, n, d.base, true⟩
    else d.take.map (fun p => ⟨d.task.val, n, p.cell.val, p.cell.val, p.base, true⟩))

/-- The partitions a logical cell executes, with what the image says of them. -/
def State.hosted (s : State) (n : Nat) : List PartAt := (s.cyc (clusterLane (n / 16))).parts.filter (fun a => a.host == n && a.runs)

def State.hostedDescs (s : State) (i : ProgImage) (n : Nat) : List PartDesc := (s.hosted n).filterMap (fun a => partOf i a.task a.home)

/-- What the registers show of the placement of lane `l` (R309): each task's cluster and cells, and each cell's partitions. -/
def State.showParts (s : State) (l : Lane) : State :=
  let c := s.cyc l
  let s1 := (List.range 64).foldl (fun s t => match c.parts.filter (fun a => a.task == t) with
    | [] => s
    | a :: as => (s.fset (taskB l t) CYC_TASK_CFG_CLUSTER (a.host / 16)).fset (taskB l t) CYC_TASK_CFG_CELLS
        ((a :: as).foldl (fun m x => if x.runs then m ||| 2 ^ (x.host % 16) else m) 0)) s
  (List.range 128).foldl (fun s k =>
    let n := k + 128 * l.num
    s.fset (cellB n) CYC_CELL_PARTS (min 8 (s.hosted n).length)) s1

/-- The code of an image lies in the cells of lane `l` (R267, R410). -/
def State.loadCode (s : State) (l : Lane) (i : ProgImage) : State :=
  i.cells.foldl (fun s d =>
    let n := if i.wide then d.cell.val else d.cell.val % 128 + 128 * l.num
    if clusterLane (n / 16) = l then s.mwrite (localKey (s.runsOn n)) d.code else s) s

/-! ### Moves of partitions (R305–R307) -/

/-- Where the state of a moved cell or partition comes from (R305): 1 its own memory, 2 the standby's copy, 3 a restart. -/
def State.faultSource (s : State) (n : Nat) (readable : Bool) : Nat :=
  if readable then 1
  else if s.mode = .paired ∧ clusterLane (n / 16) = s.hg.active ∧ s.lstate s.hg.active.other = .standby ∧
    (s.lane s.hg.active.other).copy.isSome ∧ s.hg.copyStale = false then 2
  else 3

/-- The PROG_VARs of a placed partition. -/
def State.partVars (s : State) (a : PartAt) : Tab PointEnt :=
  s.points.filter (fun q => q.2.ptype == 3 && q.2.task == a.task && q.2.writer == some a.home)

/-- A partition's state arrives at its place `b` (R305): from the memory at `a`, from the partner's copy, or as in a WARM start with the RETAIN
variables of the staging set. -/
def State.partArrive (s : State) (l : Lane) (a b : PartAt) (source : Nat) : State :=
  match s.image with
  | none => s
  | some i =>
    let size := ((partOf i a.task a.home).map (fun d => d.size)).getD 0
    let c := s.cyc l
    match source with
    | 1 => s.copyRange (localKey (s.phys a.host) + a.base) (s.partKey b) size
    | 2 =>
      let o := s.cyc l.other
      let s1 := s.setCyc l { c with vars := (s.partVars a).foldl (fun t q => put0 t q.1 (nat0 o.vars q.1)) c.vars }
      (match o.parts.find? (fun x => x.task == a.task && x.home == a.home) with
      | some x => s1.copyRange (s1.partKey x) (s1.partKey b) size
      | none => s1)
    | _ =>
      let vars := (s.partVars a).foldl (fun t q => put0 t q.1 (startVal q.2 (some c.stage.vars) q.1)) c.vars
      (s.setCyc l { c with vars := vars, first := c.first.filter (fun x => x != (a.task, a.home)) ++ [(a.task, a.home)] }).partStart i b (some c.stage.bytes)

/-- The logical cell takes the spare (R305): event 517 with the source of its state. Its code comes from the image when the memory cannot be
copied. -/
def State.cellMove (s : State) (n p q source : Nat) : State :=
  let l := clusterLane (n / 16)
  let s1 := (((s.fset (cellB n) CYC_CELL_PHYS q).fset (cellB n) CYC_CELL_MIGRATED 1).fset (cluB (n / 16)) CYC_CLUSTER_SPARE_FREE 0)
  let s2 := match source with
    | 0 => s1
    | 1 => s1.copyRange (localKey p) (localKey q) 0x20000
    | _ =>
      let s2 := s1.memClear (fun k => decide (localKey q ≤ k ∧ k < localKey q + 0x20000))
      let s3 := match s2.image.bind (fun i => i.cells.find? (fun (d : CellDesc) => d.cell.val == s2.imageCell n)) with
        | some d => s2.mwrite (localKey q) d.code
        | none => s2
      (s3.hosted n).foldl (fun s a => s.partArrive l a a source) s3
  s2.event 517 0 true (n * 0x1000000 + p * 0x8000 + q * 0x40 + source * 0x10)

/-- Can logical cell `d` take a partition (R306)? Answers the base of its data there. -/
def State.roomAt (s : State) (i : ProgImage) (d : Nat) (x : PartDesc) : Option Nat :=
  let hosts := s.hosted d
  let ds := s.hostedDescs i d
  let base := ds.zip hosts |>.foldl (fun b e => max b (e.2.base + e.1.size)) (s.codeEnd d)
  if s.fbit (cellB d) CYC_CELL_VACANT = false ∧ cellFits i (x :: ds) = true ∧ base + x.size ≤ 0x1F000 then some base
  else none

/-- Replace the placement of a partition on lane `l`. -/
def State.putPart (s : State) (l : Lane) (b : PartAt) : State :=
  let c := s.cyc l
  s.setCyc l { c with parts := c.parts.map (fun a => if a.task == b.task && a.home == b.home then b else a) }

/-- One partition of a vacated cell moves to another active cell of its cluster, the lowest that fits, or fits none and stops (R306, R307): events
518, 519. -/
def State.partMove (s : State) (n source : Nat) (a : PartAt) : State :=
  let l := clusterLane (n / 16)
  let place := match s.image with
    | none => none
    | some i => match partOf i a.task a.home with
      | none => none
      | some x => ((List.range 16).map (fun k => n / 16 * 16 + k)).findSome? (fun d =>
          if d = n then none else (s.roomAt i d x).map (fun b => (d, b)))
  match place with
  | some (d, b) =>
    let y : PartAt := { a with host := d, base := b }
    ((s.putPart l y).partArrive l a y source).event 518 0 true (n * 0x1000000 + d * 0x10000 + a.task * 0x100)
  | none =>
    let s1 : State := { s.putPart l { a with runs := false } with hg := { s.hg with unplaced := true } }
    let s2 := s1.event 519 0 true (n * 0x1000000 + a.task * 0x10000)
    if s2.mode = .paired ∧ l = s2.hg.active ∧ s2.lstate l = .active ∧ s2.hg.handover.isNone then { s2 with hg := { s2.hg with handover := some 7 } } else s2

/-- A cell with no spare beside it is vacated (R306). -/
def State.cellVacate (s : State) (n source : Nat) : State :=
  let l := clusterLane (n / 16)
  let s1 := (s.fset (cellB n) CYC_CELL_VACANT 1).fset (cluB (n / 16)) CYC_CLUSTER_REPACKED 1
  ((s1.hosted n).foldl (fun s a => s.partMove n source a) s1).showParts l

/-- The logical cell that runs on a physical cell by the map, if one does. -/
def State.logicalOf (s : State) (p : Nat) : Option Nat :=
  ((List.range 16).map (fun k => 16 * (p / 17) + k)).find? (fun n => s.phys n == p && !s.fbit (cellB n) CYC_CELL_VACANT)

/-- The logical cell of a mapped-out position moves to its cluster's spare or is repacked (R305, R306). -/
def State.faultSettle (s : State) (p : Nat) (readable : Bool) : State :=
  match s.logicalOf p with
  | none => s
  | some n =>
    let k := s.faultSource n readable
    match s.spareOf (p / 17) with
    | some q => s.cellMove n p q k
    | none => s.cellVacate n k

/-- The cells of lane `l` that have faulted since its last S are moved, in ascending order (R305, R308). -/
def State.faultsSettle (s : State) (l : Lane) : State :=
  let mine := s.cellFaults.filter (fun f => clusterLane (f.1 / 17) == l)
  let s1 : State := { s with cellFaults := s.cellFaults.filter (fun f => clusterLane (f.1 / 17) != l) }
  ((List.range 272).filterMap (fun p => mine.find? (fun f => f.1 == p))).foldl (fun s f => s.faultSettle f.1 f.2) s1

/-- The placement of an image on lane `l` (R304, R408, R410): its partitions lie where the image puts them, and those of cells without a position
are repacked. -/
def State.placeImage (s : State) (l : Lane) (i : ProgImage) : State :=
  let c := s.cyc l
  let s1 := (s.setCyc l { c with parts := laneParts i l, first := [], fresh := [], varW := [], hist := c.hist }).loadCode l i
  let vacant := ((List.range 128).map (fun k => k + 128 * l.num)).filter (fun n => s1.fbit (cellB n) CYC_CELL_VACANT)
  (vacant.foldl (fun s n => (s.hosted n).foldl (fun s a => s.partMove n 3 a) s) s1).showParts l

end Sys2Proof.Machine
end

