-- ==== Sys2Proof/Machine/RetOps.lean ====
section
/-! DEFINITION. The retention store: copies, sets and their records (R302, R530–R533). -/

namespace Sys2Proof.Machine
open Sys2Proof

/-- Where the raw view of the retention store is held. -/
def retKey : Nat := 0x300000000

/-- Where page `p` of the retention store is held. -/
def retPage (p : Nat) : Nat := retKey + 256 * p

/-- BASE pages of the areas, by AREA code (R530). -/
def areaBase : Nat → Nat
  | 1 => 0
  | 2 => 128
  | 4 => 1020
  | _ => 1024

/-- The SEQ of the copy at page `p`, 0 when it was never written. -/
def State.pageSeq (s : State) (p : Nat) : Nat := s.mnat (retPage p) 8

/-- The newer copy of logical page `n` of an area: its page number. -/
def State.newerCopy (s : State) (area n : Nat) : Nat :=
  let p := areaBase area + 2 * n
  if s.pageSeq (p + 1) > s.pageSeq p then p + 1 else p

/-- The first 252 bytes of a copy. -/
def copyBytes (seq area n : Nat) (payload : List Byte) : List Byte :=
  leBytes 8 seq ++ [BitVec.ofNat 8 area, 1] ++ leBytes 2 n ++ payload.take 240 ++ List.replicate (240 - payload.length) 0

/-- Write one copy with the next SEQ, to the copy that is not the newer one (R531, R532). -/
def State.copyWrite (s : State) (area n : Nat) (payload : List Byte) : State :=
  let p0 := areaBase area + 2 * n
  let p := if s.newerCopy area n = p0 then (if s.pageSeq p0 = 0 then p0 else p0 + 1) else p0
  let seq := s.upd.retSeq + 1
  let bs := copyBytes seq area n payload
  let crc := crc32c (leBytes 8 (0x800000 + 256 * p) ++ bs)
  let s1 : State := { s with upd := { s.upd with retSeq := seq } }
  s1.mwrite (retPage p) (bs ++ leBytes 4 crc)

/-- A set record (R531): set 0 for RETAIN, 1 for ENERGY. -/
def State.recordWrite (s : State) (set cycle layout pages : Nat) : State :=
  s.copyWrite 4 set (leBytes 4 cycle ++ leBytes 4 layout ++ leBytes 2 pages ++ [0, 0] ++
    leBytes 4 ((s.image.map (fun i => i.id.toNat)).getD 0))

/-- The 240 bytes of RETAIN page `n` in a table of bytes. -/
def retainPage (t : Tab Byte) (n : Nat) : List Byte := (List.range 240).map (fun i => tabGet (fun _ => 0) t (240 * n + i))

/-- The pages of RETAIN data of `bytes` bytes. -/
def retainPages (bytes : Nat) : Nat := (bytes + 239) / 240

/-- The RETAIN variables of the tasks lane `l` runs go into `x` as its staging set holds them. -/
def State.overlay (s : State) (x : Staging) (l : Lane) : Staging :=
  let c := s.cyc l
  let g := c.stage
  let bytes := match s.image with
    | none => x.bytes
    | some i => (c.parts.filter (fun a => s.taskRuns l a.task)).foldl (fun t a => match partOf i a.task a.home with
      | none => t
      | some d => d.retain.foldl (fun t r => (List.range r.2.1).foldl (fun t j =>
          tabSet (fun _ => 0) t (r.2.2 + j) (tabGet (fun _ => 0) g.bytes (r.2.2 + j))) t) t) x.bytes
  let mine := s.points.filter (fun q => q.2.retain && s.taskRuns l q.2.task)
  let put (k : Nat) (t u : Tab Nat) : Tab Nat := (mine.filter (fun q => q.2.ptype == k)).foldl (fun t q => put0 t q.1 (nat0 u q.1)) t
  ⟨x.cycle, bytes, put 3 x.vars g.vars, put 1 x.ins g.ins⟩

/-- What a set written by lane `l` holds (R302): every RETAIN variable; in WIDE those of the other lane as its staging set has them, or as
committed last when it runs no cycles. -/
def State.retainSet (s : State) (l : Lane) : Staging :=
  let layout := (s.image.map (fun i => i.layout.toNat)).getD 0
  let old : Staging := match s.retSet with
    | some r => if r.layout = layout ∧ r.bad = false then ⟨0, r.bytes, r.vars, r.ins⟩ else Staging.none
    | none => Staging.none
  let x := s.overlay (if s.runsCycles l.other then s.overlay old l.other else old) l
  { x with cycle := (s.cyc l).stage.cycle }

/-- Lane `l` shows the newest committed set, and RETAIN_LAG ends when it is within the limits (R303). -/
def State.retainShow (s : State) (l : Lane) (cycle : Nat) : State :=
  let s1 := s.fset (cycB l) CYC_RETAIN_CYCLE cycle
  let age := cyclesAfter (s1.fget (cycB l) CYC_DONE) cycle
  if age ≤ 8 ∨ age * s1.base ≤ 50000 then s1.fset (cycB l) CYC_STATUS_RETAIN_LAG 0 else s1

/-- Lane `l` has staged a cycle that no committed set holds. -/
def State.retainDue (s : State) (l : Lane) : Bool :=
  s.runsCycles l && decide ((s.cyc l).stage.cycle ≠ s.fget (cycB l) CYC_RETAIN_CYCLE)

/-- The staging set of lane `l` is written and committed (R302, R303, R532): changed pages first, then the record. -/
def State.retainCommit (s : State) (l : Lane) : State :=
  let c := s.retainSet l
  let n := match s.image with
    | some i => retainPages i.retainBytes
    | none => 0
  let layout := (s.image.map (fun i => i.layout.toNat)).getD 0
  let old (k : Nat) : Bool := match s.retSet with
    | some r => decide (r.layout = layout) && decide (retainPage r.bytes k = retainPage c.bytes k) && !r.bad
    | none => false
  let s1 := ((List.range n).filter (fun k => !old k)).foldl (fun s k => s.copyWrite 3 k (retainPage c.bytes k)) s
  let s2 := s1.recordWrite 0 c.cycle layout n
  let r : RetSet := ⟨c.cycle, layout, c.bytes, c.vars, c.ins, false⟩
  let s3 : State := ({ s2 with retSet := some r, retSetAt := s2.now } : State).retainShow l c.cycle
  if s3.runsCycles l.other then s3.retainShow l.other c.cycle else s3

/-- The energy store is saved as a set (R357, R530, R532): the order of the energy values in the ENERGY pages is not given, so the pages'
payloads are free values; the record names the capture. -/
def State.energyCommit (s : State) (pfw : Bool) : State :=
  let s1 := s.energySaved pfw
  let s2 : State := { s1 with upd := { s1.upd with retSeq := s1.upd.retSeq + 192 } }
  s2.recordWrite 1 (s2.uptime % 0x100000000) 0 192

end Sys2Proof.Machine
end

