-- ==== Sys2Proof/Machine/LaneOps.lean ====
section
/-! DEFINITION. Lanes, the headgate and resets: what happens when a lane stops, fails, takes over or comes back, and entry to SAFE
(chapters "Lanes, fail-over and the headgate" and "Reset and self-test"). -/

namespace Sys2Proof.Machine
open Sys2Proof

/-! ### Modes, and lanes that stop -/

/-- The module changes mode (R436): event 585. -/
def State.enterMode (s : State) (m : Mode) : State :=
  if s.mode = m then s
  else
    let old := s.mode
    let s1 : State := { s with mode := m }
    s1.event 585 0 (decide (m = .hold ∨ m = .safe)) (16 * old.code + m.code)

/-- A lane runs no more cycles: its loop engine stops (R331), and nothing staged is committed. -/
def State.laneStop (s : State) (l : Lane) : State :=
  let s1 := s.loopStop l
  (((s1.setCyc l { s1.cyc l with phase := .stopped, staged := [], empty := [], overrun := false, idleLow := none }).fset (cycB l) CYC_STATUS_RUNNING 0).fset
    (cycB l) CYC_STATUS_LAGGING 0).faultsSettle l

/-- The registers that show the headgate's cell map (R309) and its `LUM_EPOCH` (R209) are not the lane's own. -/
def isMapReg (a : Nat) : Bool := (0x1A0700 ≤ a && a < 0x1A0C00) || a == 0x1B000C

/-- A lane reset clears the lane's registers, memories and blocks (R442). -/
def State.laneClear (s : State) (l : Lane) : State :=
  let s1 := s.regClear (fun k => k / 0x100000000 == l.num && isLaneReg (k % 0x100000000) && !isMapReg (k % 0x100000000))
  let s2 := s1.memClear (fun k => decide (laneKey l 0x1000000 ≤ k ∧ k < laneKey l 0x3000000))
  (s2.setLane l .reset).setLaneHg l { s2.laneHg l with waiting := false, testPassed := false }

/-- The counter of resets of a domain, by bit (R468). -/
def rstCntF : Nat → Fld
  | 2 => HG_RST_CNT_A_SWITCH
  | 3 => HG_RST_CNT_A_METER
  | 4 => HG_RST_CNT_A_AIO
  | 5 => HG_RST_CNT_A_CAN
  | 6 => HG_RST_CNT_B_LANE_A
  | _ => HG_RST_CNT_B_LANE_B

/-- `HG_RST_LAST` and its time (R441, R468); `quiesce` in 10 µs. -/
def State.rstNote (s : State) (src mask quiesce : Nat) : State :=
  (((s.fset 0 HG_RST_LAST_SOURCE src).fset 0 HG_RST_LAST_DOMAINS mask).fsat 0 HG_RST_LAST_QUIESCE quiesce).fset 0 HG_RST_LAST_TIME s.uptime

/-- Set or clear a domain's bit in a field of `HG_RST_STATUS`. -/
def State.rstBit (s : State) (f : Fld) (d : Nat) (v : Bool) : State :=
  let x := s.fget 0 f
  s.fset 0 f (if v then x ||| 2 ^ d else x - (if x.testBit d then 2 ^ d else 0))

/-- A lane's reset is asserted (R442, R449): its NV interface ends a flash pulse first. -/
def State.laneAssert (s : State) (l : Lane) (src : Nat) : State :=
  let d := l.dom.bit
  let s1 := ((s.laneStop l).laneClear l).setInReset d true
  let s2 := (s1.setDom l.dom ⟨.asserted, src, [], s.now, false⟩).finc 0 (rstCntF d)
  s2.rstBit HG_RST_STATUS_DEFERRED d (s.upd.pulses.contains l)

/-! ### Grants (R409) -/

/-- Gallery `g` has no grant. -/
def State.noGrant (s : State) (g : Nat) : State := s.wr (grantB g) 0

/-- Every enabled gallery is granted to the active lane. -/
def State.grantsPaired (s : State) (l : Lane) : State :=
  (List.range 64).foldl (fun s g => if s.galEn g then s.setGrant g l false false else s.noGrant g) s

/-- The lane that WIDE_LANE named for gallery `g` at the start of the image. -/
def State.wideHome (s : State) (g : Nat) : Lane := if s.wideLane.any (fun x => x.val == g) then .b else .a

def State.grantsWide (s : State) : State :=
  (List.range 64).foldl (fun s g => if s.galEn g then s.setGrant g (s.wideHome g) false false else s.noGrant g) s

/-- The image in force has a takeover placement of gallery `g` on lane `l` (R410). -/
def State.hasPlacement (s : State) (l : Lane) (g : Nat) : Bool :=
  match s.image with
  | some i => (match l with | .a => i.takeoverA | .b => i.takeoverB).any (fun x => x.val == g)
  | none => false

/-! ### Starts -/

/-- The programs and the loop engine of a lane start, asked as `want`, with the tick about to fall (R300, R301, R331). -/
def State.startLane (s : State) (l : Lane) (want : Nat) : State :=
  let k := s.startKind want
  let s1 := s.startPrograms l want s.nextTick
  if k.1 = kHot then s1.loopResume l
  else match s1.image with
    | some i => s1.loopStart l i
    | none => s1

/-- The loop slots of galleries `gs` start from their descriptors on lane `l` (R331). -/
def State.galsLoops (s : State) (l : Lane) (gs : List Nat) : State :=
  match s.image with
  | none => s
  | some i => (i.loops.filter (fun d => gs.contains (s.loopOwner d.1.val))).foldl (fun s d =>
      let q := d.1.val
      let s1 := (s.fset (loopS l q) LOOPS_STAT_STATE lsOff).setLoopX l q .reset
      let s2 := ((d.2.take 15).zip (List.range 15)).foldl (fun s e => s.wr (loopD l q + 4 * e.2) e.1) s1
      s2.loopCfg l q) s

/-- Galleries make a WARM start on a lane that runs, or a COLD one where R301 says so (R300, R424, R427): their tasks and their loop slots begin
again. -/
def State.galsStart (s : State) (l : Lane) (gs : List Nat) : State :=
  if gs.isEmpty then s else (s.warmTasks l (fun t => gs.contains (s.taskOwner t))).galsLoops l gs

/-- A gallery is shed (R424): event 578, its loop slots go to OFF and its analogue outputs to their SAFE codes. -/
def State.galShedNow (s : State) (l : Lane) (g cause : Nat) : State :=
  let s1 := (s.setGrant g l true false).event 578 g true (cause * 0x1000000)
  let s2 := ((List.range 1024).filter (fun q => s1.loopOwner q == g && s1.loopState l q != lsOff)).foldl (fun s q => s.loopGo l q lsOff) s1
  ((List.range 16).filter (fun c => s2.aioOwner c == g && aioOut (s2.aioMode c))).foldl (fun s c =>
    let safe := s.fget (aioB c) AIO_CH_SAFE_CODE
    (s.aioCode c safe).fset (aioB c) AIO_CH_OUT_CODE safe) s2

/-- In WIDE the survivor takes the failed lane's galleries (R424): those ESSENTIAL with a placement start on it, the others are shed. -/
def State.wideTake (s : State) (p : Lane) (cause : Nat) : State :=
  let gs := (List.range 64).filter (fun g => s.galEn g && s.grant g == some p.other)
  let ess := gs.filter (fun g => s.fbit (galB g) HG_GAL_LIVE_ESSENTIAL && s.hasPlacement p g)
  let s1 := (ess.foldl (fun s g => s.setGrant g p false true) s).galsStart p ess
  (gs.filter (fun g => !ess.contains g)).foldl (fun s g => s.galShedNow p g cause) s1

/-- Galleries move to lane `l` with a WARM start on it (R427, R524); `ev`: with event 579 for each. -/
def State.galReturn (s : State) (l : Lane) (gs : List Nat) (ev : Bool) : State :=
  let s1 := (gs.foldl (fun s g => s.setGrant g l false false) s).galsStart l gs
  gs.foldl (fun s g =>
    let s1 := s.forPorts (fun s p => if s.portOwner p == g then s.lumMove p l.other l else s)
    if ev then s1.event 579 g false (l.num * 0x1000000) else s1) s1

/-! ### What a lane loads -/

def State.bank (s : State) (l : Lane) (b : Nat) : Bank := tabGet (fun _ => Bank.empty) s.upd.banks (2 * l.num + b)

def State.setBank (s : State) (l : Lane) (b : Nat) (x : Bank) : State :=
  State.sysPage { s with upd := { s.upd with banks := tabSet (fun _ => Bank.empty) s.upd.banks (2 * l.num + b) x } }

/-- The bank a lane booted. -/
def State.bootBank (s : State) (l : Lane) : Nat := nat0 s.upd.boot l.num

/-- The register words that the settings and the program image in force hold for addresses `lo` to `hi` are written. -/
def State.configWrite (s : State) (lo hi : Nat) : State :=
  let ws := ((s.upd.settings.map SettingsImage.regs).getD []) ++ ((s.image.map ProgImage.regs).getD [])
  (ws.filter (fun e => lo ≤ e.1 && e.1 ≤ hi)).foldl (fun s e => s.wr e.1 e.2) s

/-- The port configuration comes into force, and microcode is staged (R37, R173). -/
def State.loadPorts (s : State) (f : FwImage) : State :=
  let s1 := s.forPorts (fun s p =>
    let s1 := s.fset (portB p) PORT_MCODE_STAGED f.seq.toNat
    if s1.fget (portB p) PORT_MCODE_IN_USE = 0 then s1.adopt p else s1)
  if s1.alloc.config then s1
  else
    let s2 : State := { s1.configWrite 0x80000 0x9FFFF with alloc := { s1.alloc with config := true } }
    s2.forPorts (fun s p => if s.powered p then s.retarget p else s.portEnable p)

/-- The switch takes its firmware (R241, R522): at once when it runs none; otherwise forwarding goes on and gPTP holds over. -/
def State.loadSwitch (s : State) (f : FwImage) : State :=
  if s.isolated .switch then s
  else
    let v := f.sw.toNat
    if !s.fbit 0 ETH_STATUS_FW_LOADED then
      ((((s.configWrite 0x1000 0x1FFF).configWrite 0x100000 0x144FFF).fset 0 ETH_STATUS_FW_LOADED 1).fset 0 ETH_STATUS_FW_VERSION v).ptpEnable
    else if s.fget 0 ETH_STATUS_FW_VERSION ≠ v then
      let s1 := s.fset 0 ETH_STATUS_FW_VERSION v
      if s1.ptpState = ptpLocked then s1.ptpTo ptpHoldover else s1
    else s

/-- The metering DSP takes its firmware (R359, R522): at once when it runs none, otherwise at the next latch. -/
def State.loadMeter (s : State) (f : FwImage) : State :=
  if s.isolated .meter then s
  else
    let v := f.mtr.toNat
    if !s.fbit 0 MTR_STATUS_FW_LOADED then (s.configWrite 0xA0000 0xAFFFF).meterLoaded v
    else if s.fget 0 MTR_STATUS_FW_VERSION ≠ v then { s with upd := { s.upd with mtrStaged := some v } }
    else s

/-- The CAN controllers take their firmware and configuration (R400, R522). -/
def State.loadCan (s : State) (f : FwImage) : State :=
  if s.isolated .can then s
  else if !s.fbit (canB 0) CAN_STATUS_FW_LOADED then (s.configWrite 0xC0000 0xCFFFF).canLoaded f.can.toNat
  else (List.range 4).foldl (fun s n => s.fset (canB n) CAN_STATUS_FW_VERSION f.can.toNat) s

/-- The channel configuration is written (R376). -/
def State.loadAio (s : State) : State := if s.isolated .aio then s else (s.configWrite 0xB0000 0xBFFFF).aioConfig

/-- The lane that answers gallery 0 stages the firmware of the shared blocks from its booted bank (R522). -/
def State.loadShared (s : State) (l : Lane) : State :=
  match (s.bank l (s.bootBank l)).image with
  | none => s
  | some f =>
    let fresh := !s.fbit (canB 0) CAN_STATUS_FW_LOADED
    let s0 : State := { s with upd := { s.upd with fw := some f } }
    let s1 := (((s0.fset 0 SYS_REV_FW_MAJOR (f.version.toNat / 0x10000)).fset 0 SYS_REV_FW_MINOR (f.version.toNat / 0x100)).fset 0
      SYS_REV_FW_PATCH f.version.toNat).loadPorts f
    let s2 := if fresh then s1.loadAio else s1
    ((s2.loadSwitch f).loadMeter f).loadCan f

/-- The lane that answers gallery 0 loads the shared blocks, when it is `l` (R522). -/
def State.loadIfFirst (s : State) (l : Lane) : State := if s.answering 0 = some l then s.loadShared l else s

/-! ### Sessions at a change of lanes (R91) -/

/-- A session as the taking lane continues it: 256 sequence numbers above its copied H are marked, the reply counter advances by 256. -/
def Session.taken (x : Session) : Session :=
  { x with h := min (x.h + 256) seqMax, window := BitVec.allOnes 256, replies := x.replies + 256 }

/-- Every operation in flight is answered TIMEOUT, also one of a session that has closed; a session that was closing is closed (R84, R91). -/
def State.timeoutAll (s : State) (l : Lane) : State :=
  let s1 := s.flights.foldl (fun s f => s.answerBy l f .timeout []) s
  { s1 with flights := [], dying := [] }

/-- The taking lane goes on with the sessions of its copy. -/
def State.takeSessions (s : State) (l : Lane) (old : List Session) : State :=
  let s1 : State := { s with sessions := old.map Session.taken }
  s1.xferKeep.timeoutAll l

/-- Session state is lost with the lanes that held it. -/
def State.loseSessions (s : State) : State :=
  let s1 : State := { s with sessions := [], flights := [], dying := [] }
  s1.xferKeep

/-! ### Taking over -/

/-- The standby is current (R416). -/
def State.current (s : State) : Bool :=
  s.lstate s.hg.active.other == .standby && (s.lane s.hg.active.other).copy.isSome && !s.hg.copyStale

/-- A switch-over or handover is recorded (R421, R438); `gap` in µs. -/
def State.recordSwitch (s : State) (cause : Nat) (l : Lane) (kind gap : Nat) (ev : Bool) : State :=
  let s1 := ((((s.finc 0 HG_SWITCH_CNT).fset 0 HG_LAST_SWITCH_CAUSE cause).fset 0 HG_LAST_SWITCH_LANE l.num).fset 0
    HG_LAST_SWITCH_START kind).fsat 0 HG_LAST_SWITCH_GAP (gap / 10)
  let s2 := s1.fset 0 HG_LAST_SWITCH_CYCLE s.nextTick
  if ev then
    s2.event 576 0 (decide (cause ≠ 7 ∧ cause ≠ 8)) (cause * 0x10000000 + l.num * 0x8000000 + kind * 0x1000000 + min gap 0xFFFFFF)
  else s2

def ckvB (l : Lane) (i : Nat) : Nat := laneKey l (0x30000 + 0x400 * i)

/-- Units that were busy in the copy read IDLE with LOST_SCAN on the taking lane (R513). -/
def State.ckvLost (s : State) (l : Lane) (busy : List Nat) : State :=
  busy.foldl (fun s i => (s.fset (ckvB l i) CKV_STATUS_BUSY 0).fset (ckvB l i) CKV_STATUS_LOST_SCAN 1) s

/-- The taking lane starts its own BIST rounds at position 0 of each cluster (R467). -/
def State.bistRestart (s : State) (l : Lane) : State :=
  let s1 := s.regClear (fun k => decide (laneKey l 0x1C8100 ≤ k ∧ k < laneKey l 0x1C8120))
  s1.setLane l { s1.lane l with bist := [], roundAt := s1.now }

/-- Lane `p` becomes the active lane with every grant (R421, R425): a HOT start from its copy when `hot`, a WARM start otherwise; the
sessions go on from the copy. The answer's second part is the kind of start made. -/
def State.makeActive (s : State) (p : Lane) (hot : Bool) : State × Nat :=
  let copy := (s.lane p).copy
  let s0 := (s.setLstate p .active).grantsPaired p
  let s1 : State := { s0 with hg := { s0.hg with active := p, takeover := none, copyStale := true } }
  let want := if hot then kHot else kWarm
  let k := (s1.startKind want).1
  let s2 := (s1.startLane p want).bistRestart p
  let s3 := if hot then s2.forPorts (fun s q => s.lumArrive q) else s2.lumStart p
  let s4 := match copy with
    | some c => (s3.takeSessions p c.sessions).ckvLost p c.busy
    | none => s3.loseSessions
  (s4.setLane p { s4.lane p with copy := none }, k)

/-- A switch-over in PAIRED (R421, R422). -/
def State.takePaired (s : State) (t : Takeover) : State :=
  let p := t.lane.other
  let r := s.makeActive p s.current
  (r.1.recordSwitch t.cause p r.2 ((s.now - t.gapFrom) / 1000) true).loadIfFirst p

/-- A switch-over in WIDE (R424). -/
def State.takeWide (s : State) (t : Takeover) : State :=
  let p := t.lane.other
  let s0 : State := { s with hg := { s.hg with takeover := none } }
  let s1 := s0.forPorts (fun s q => if s.grant (s.portOwner q) == some t.lane then s.lumForget p q |>.lumArrive q else s)
  ((s1.wideTake p 1).recordSwitch t.cause p kWarm ((s.now - t.gapFrom) / 1000) true).loadIfFirst p

/-- A planned handover (R425, R430, R524): the standby becomes ACTIVE, the former active lane takes the state `after`. -/
def State.handover (s : State) (cause : Nat) (after : LState) (hot ev : Bool) : State :=
  let o := s.hg.active
  let p := o.other
  let n := s.fget (cycB o) CYC_DONE
  let s0 : State := { s with hg := { s.hg with handover := none } }
  let r := (s0.laneStop o).makeActive p hot
  let s1 := (r.1.setLstate o after).recordSwitch cause p r.2 0 ev
  let s2 := if after = .standby then
      let s2 := (s1.setLane o { s1.lane o with copy := some ⟨n, s1.sessions, []⟩ }).event 580 0 false (o.num * 0x1000000 + 0x300000)
      ({ s2 with hg := { s2.hg with copyStale := false } } : State)
    else s1
  s2.loadIfFirst p

/-! ### HOLD (R432, R435) -/

/-- Lanes that run go to HELD and keep their state (R412). -/
def State.holdLane (s : State) (l : Lane) (starting : Bool) : State :=
  let x := s.lstate l
  let held := match x with
    | .reset | .failed | .retired | .held => false
    | .starting => starting
    | _ => true
  if held then
    let s1 := s.laneStop l
    s1.setLaneHg l { s1.laneHg l with state := .held, held := x }
  else s

/-- The module enters HOLD with a cause: 1 DISAGREE, 2 COPY_SILENT, 3 NO_LANE. -/
def State.enterHold (s : State) (cause : Nat) : State :=
  let m := if s.mode = .hold then s.hg.heldMode else s.mode
  let s1 : State := { s with hg := { s.hg with heldMode := m, holdCause := cause, takeover := none, handover := none, choice := none } }
  ((s1.holdLane .a (cause != 3)).holdLane .b (cause != 3)).enterMode .hold

/-- A failed lane is put in RESET to be released (R412, R435). -/
def State.failedRetry (s : State) (l : Lane) : State :=
  if s.lstate l = .failed then s.setLaneHg l { s.laneHg l with state := .reset, rejoin := true } else s

/-- No lane is left running (R435): outside SINGLE the failed lanes are released again. -/
def State.noLane (s : State) : State :=
  let s0 := s.enterHold 3
  let s1 := if s0.procRuns .a || s0.procRuns .b then s0 else s0.loseSessions
  match s1.hg.hg with
  | .single0 | .single1 => s1
  | _ => (s1.failedRetry .a).failedRetry .b

/-- Lane `l` becomes the first lane to run (R412, R435, R436): the module takes the mode of the image in force, with a WARM start. In WIDE it takes
over for a lane that has failed. -/
def State.leadStart (s : State) (l : Lane) : State :=
  match s.image with
  | none => s
  | some i =>
    let s1 := s.setLaneHg l { s.laneHg l with state := if i.wide then .wideRun else .active, waiting := false }
    let s2 : State := { s1 with hg := { s1.hg with active := if i.wide then s1.hg.active else l, copyStale := !i.wide, holdCause := 0, takeover := none, enterService := false, leaveService := false } }
    let s3 := if i.wide then (s2.enterMode .wide).grantsWide else (s2.enterMode .paired).grantsPaired l
    let s4 := ((s3.startLane l kWarm).lumStart l).bistRestart l
    match i.wide, s4.lstate l.other with
    | true, .failed | true, .retired => s4.wideTake l 1
    | _, _ => s4

/-! ### Siphon and fallback (R523–R527) -/

def sipIdle : Nat := 0
def sipFirst : Nat := 1
def sipPending : Nat := 2
def sipSecond : Nat := 3
def sipFallback : Nat := 4

/-- The siphon moves to a stage: event 586. -/
def State.setSiphon (s : State) (n : Nat) : State :=
  if s.upd.siphon = n then s
  else
    let s1 : State := State.sysPage { s with upd := { s.upd with siphon := n } }
    s1.event 586 0 false (n * 0x10000000 + s.upd.first.num * 0x8000000 + s.upd.version)

/-- Where the flash regions lie (R517). -/
def bankAt (b : Nat) : Nat := 0x1000000 * b

/-- Erase a range of a lane's flash. -/
def State.flashErase (s : State) (l : Lane) (o n : Nat) : State :=
  s.memClear (fun k => decide (flashKey l o ≤ k ∧ k < flashKey l (o + n)))

/-- A bank is erased and reads EMPTY (R535). -/
def State.bankErase (s : State) (l : Lane) (b : Nat) : State := (s.flashErase l (bankAt b) 0x1000000).setBank l b .empty

/-- The bank of a lane in a state, if there is one. -/
def State.bankIn (s : State) (l : Lane) (st : Nat) : Option Nat :=
  if (s.bank l 0).state = st then some 0 else if (s.bank l 1).state = st then some 1 else none

/-- The lane's PENDING bank changes state; nothing when it has none. -/
def State.pendingTo (s : State) (l : Lane) (st : Nat) : State :=
  match s.bankIn l 2 with
  | some b => s.setBank l b { s.bank l b with state := st }
  | none => s

/-- The lane's PENDING bank is confirmed, and its CONFIRMED bank becomes VALID (R523, R525). -/
def State.confirmBank (s : State) (l : Lane) : State :=
  match s.bankIn l 2 with
  | none => s
  | some b =>
    let s1 := match s.bankIn l 3 with
      | some c => s.setBank l c { s.bank l c with state := 1 }
      | none => s
    s1.setBank l b { s1.bank l b with state := 3 }

/-- What a fallback marks (R526): the first lane's new bank FAILED, the second lane's erased, UPDATE_PENDING cleared, and the siphon over. -/
def State.fallbackBanks (s : State) : State :=
  let l := s.upd.first
  let s1 := s.pendingTo l 4
  let s2 := match s1.bankIn l.other 2 with
    | some b => s1.bankErase l.other b
    | none => s1
  let s3 : State := { s2 with updatePending := false, upd := { s2.upd with windowEnd := none, judged := none } }
  s3.setSiphon sipIdle

/-- A fallback begins: event 588 with its cause (R526). -/
def State.fallbackEvent (s : State) (cause : Nat) : State :=
  (({ s with updatePending := false, upd := { s.upd with windowEnd := none } } : State).event 588 0 true (cause * 0x1000000 + s.upd.version)).setSiphon
    sipFallback

/-! ### The failure of a lane (R417–R424) -/

/-- Failures of a lane within the last hour. -/
def State.failHour (s : State) (l : Lane) : List Nat := (s.laneHg l).failures.filter (fun t => s.now < t + 3600000000000)

/-- An exercise ends (R430): 1 PASS, 2 FAIL, 3 ABORTED; `lane` the lane that failed. -/
def State.exerciseEnd (s : State) (result : Nat) (lane : Option Lane) : State :=
  match s.hg.exercise with
  | none => s
  | some _ =>
    let s1 : State := State.sysPage { s with hg := { s.hg with exercise := none, exercises := s.hg.exercises ++ [(result, s.uptime)], exerPassAt := if result = 1 then some s.now else s.hg.exerPassAt } }
    let s2 := (s1.fset 0 HG_EXER_LAST_RESULT result).event 582 0 (result != 1) (result * 0x1000000 + (match lane with
      | some l => l.num
      | none => 0xFF) * 0x10000)
    if result = 1 then s2.fset 0 HG_EXER_AGE_HOURS 0 else s2

/-- A lane that leaves STARTING for a failure other than its self-test's keeps its report (R462): its registers after the reset are as before. -/
def State.keepReport (s t : State) (l : Lane) (cause : Nat) : State :=
  if s.lstate l = .starting ∧ cause ≠ 0xB then
    [0x1C0018, 0x1C001C, 0x1C8020, 0x1C8024].foldl (fun t a => t.wr (laneKey l a) (s.rd (laneKey l a))) t
  else t

/-- The registers and states of a failed lane (R407, R412, R421): FAILED, or RETIRED at the third failure within the hour. -/
def State.markFailed (s : State) (l : Lane) (cause : Nat) : State :=
  let counted := cause != 6
  let fs := if counted then s.failHour l ++ [s.now] else s.failHour l
  let retired := counted && decide (3 ≤ fs.length)
  let s0 : State := State.sysPage { s with hg := { s.hg with failLog := s.hg.failLog ++ [(l, cause, s.uptime)] } }
  let s1 := s.keepReport ((s0.fset (4 * l.num) HG_LANE_A_LAST_FAIL cause).laneAssert l (if counted then 4 else 5)) l cause
  let s2 := (s1.setLaneHg l { s1.laneHg l with state := .failed, failures := fs, lockstep := (s.laneHg l).lockstep || cause == 3 }).rstNote
    (if counted then 4 else 5) (2 ^ l.dom.bit) 0
  let s3 := s2.event 580 0 true (l.num * 0x1000000 + 0x600000 + cause * 0x10000)
  if retired then (s3.setLstate l .retired).event 580 0 true (l.num * 0x1000000 + 0x700000 + cause * 0x10000) else s3

/-- The instant of the tick whose release the lane does not make (R422). -/
def State.gapFrom (s : State) (l : Lane) : Nat :=
  let c := s.cyc l
  match c.phase with
  | .computing | .done | .committing => c.tickAt
  | .stopped => s.now
  | _ => match s.nextCycle l with
    | some (_, t) => t
    | none => s.tickAt + s.periodNs

/-- A lane that runs or can take over. -/
def State.laneLeft (s : State) (l : Lane) : Bool :=
  match s.lstate l with
  | .active | .standby | .syncing | .wideRun | .serviceTest => true
  | _ => false

/-- Is the module in SINGLE? -/
def State.single (s : State) : Bool :=
  match s.hg.hg with
  | .single0 | .single1 => true
  | _ => false

/-- What the failure of a lane that was in state `was` means for the module (R421, R424, R430, R435, R437). -/
def State.failRole (s : State) (l : Lane) (was : LState) (cause gap : Nat) : State :=
  let p := l.other
  match s.mode with
  | .paired =>
    if s.single then s.noLane
    else if was = .active then
      match s.lstate p with
      | .standby | .syncing => { s with hg := { s.hg with takeover := some ⟨l, cause, gap⟩, handover := none } }
      | .serviceTest =>
        let s1 := (s.exerciseEnd 3 (some l)).setLaneHg p { s.laneHg p with state := .starting, testPassed := true }
        { s1 with hg := { s1.hg with takeover := some ⟨l, cause, gap⟩ } }
      | _ => s.noLane
    else
      let s1 := s.exerciseEnd (if cause = 0xB then 2 else 3) (some l)
      let s2 : State := { s1 with hg := { s1.hg with handover := none, copyStale := true } }
      if s2.lstate p = .active then s2 else if s2.hg.takeover.isSome then s2.noLane else s2
  | .wide =>
    if s.single then s.noLane
    else if s.lstate p = .wideRun then
      (if was = .wideRun then { s with hg := { s.hg with takeover := some ⟨l, cause, gap⟩ } } else s)
    else s.noLane
  | .service => if s.laneLeft p || s.lstate p = .starting then s else s.noLane
  | .boot => match s.lstate p with
    | .failed | .retired => s.noLane
    | _ => s
  | _ => s

/-- The headgate decides that a lane has failed (R417, R418, R421, R437). In HOLD for a disagreement or a silent copy the decision waits; two causes
of one instant make one failure with the lower code (R423). -/
def State.laneFail (s : State) (l : Lane) (cause : Nat) : State :=
  let was := s.lstate l
  match was with
  | .reset | .retired => s
  | .failed =>
    if (s.laneHg l).failures.getLast? = some s.now ∧ cause < s.fget (4 * l.num) HG_LANE_A_LAST_FAIL then
      let s1 := s.fset (4 * l.num) HG_LANE_A_LAST_FAIL cause
      (match s1.hg.takeover with
      | some t => if t.lane = l then { s1 with hg := { s1.hg with takeover := some { t with cause := cause } } } else s1
      | none => s1)
    else s
  | _ =>
    if s.mode = .hold ∧ s.hg.holdCause ≠ 3 then s.setLaneHg l { s.laneHg l with decided := true }
    else
      let gap := s.gapFrom l
      let mine := (s.sessions.filter (fun x => s.answering x.gallery == some l)).map Session.id
      let s1 := s.markFailed l cause
      let s2 : State := if s1.mode = .wide then { s1 with sessions := s1.sessions.filter (fun x => !mine.contains x.id), flights := s1.flights.filter (fun f => !mine.contains f.session) } |>.xferKeep else s1
      let s3 := s2.failRole l was cause gap
      let sip := s3.upd.siphon
      if l = s3.upd.first ∧ (sip = sipFirst ∨ sip = sipPending) then (s3.fallbackEvent 2).fallbackBanks else s3

/-! ### SAFE (R463–R466) -/

/-- A lane qualifies as the SAFE responder (R465). -/
def State.qualifies (s : State) (l : Lane) : Bool :=
  match (s.laneHg l).parts with
  | some p => p.testBit 7 && p.testBit 6 && !(s.laneHg l).lockstep
  | none => false

/-- The computing parts of a lane are held in reset: LOOP, CYC, LUM, RED and the cells (R464). -/
def State.computeClear (s : State) (l : Lane) : State :=
  let s1 := (s.laneStop l).regClear (fun k =>
    let a := k % 0x100000000
    k / 0x100000000 == l.num && 0x180000 ≤ a && a < 0x1C8000 && !isMapReg a)
  let s2 := s1.memClear (fun k => decide (laneKey l 0x1000000 ≤ k ∧ k < laneKey l 0x3000000))
  s2.setLane l .reset

/-- The module enters SAFE with a cause (R464, R465). -/
def State.enterSafe (s : State) (cause : Nat) : State :=
  if s.mode = .safe then s
  else
    let before := s.answering 0
    let first := before.getD .a
    let resp := if s.qualifies first then some first else if s.qualifies first.other then some first.other else none
    let s1 := s.exerciseEnd 3 none
    let s2 := [Lane.a, Lane.b].foldl (fun s l =>
      if resp = some l then (s.computeClear l).setInReset l.dom.bit false
      else ((s.laneStop l).laneClear l).setInReset l.dom.bit true) s1
    let kept := match resp with
      | none => []
      | some r =>
        let own := s.sessions.filter (fun x => s.answering x.gallery == some r)
        if s.mode = .wide ∨ before = some r then own else match (s.lane r).copy with
          | some c => c.sessions.map Session.taken
          | none => own
    let h := { s2.hg with a := { s2.hg.a with state := .reset }, b := { s2.hg.b with state := .reset }, takeover := none, handover := none, exercise := none, holdCause := 0, heldMode := s.mode, enterService := false, leaveService := false, choice := none, rebalance := false }
    let s3 : State := { s2 with acts := s2.acts.filter (fun a => a.kind != actWrite), relActs := [], hidden := [], responder := resp, sessions := kept, hg := h }
    let s4 := ((s3.fset 0 HG_SAFE_CAUSE cause).fsetB 0 HG_SAFE_RESPONDER_VALID resp.isSome).fset 0 HG_SAFE_RESPONDER ((resp.map Lane.num).getD 0)
    let s5 := (((s4.finc 0 HG_RST_CNT_B_LANE_A).finc 0 HG_RST_CNT_B_LANE_B).rstNote 7 0xC0 0).enterMode .safe
    let s6 := s5.event 8 0 true (cause * 0x1000000 + (if resp.isSome then 0x100 else 0) + (resp.map Lane.num).getD 0)
    let s7 := match resp with
      | some r =>
        let s7 := s6.timeoutAll r
        (match (s7.bank r (s7.bootBank r)).image with
        | some f => (s7.loadSwitch f).loadMeter f
        | none => s7)
      | none => { s6 with flights := [], dying := [] }
    ((s7.forPorts (fun s p => s.portSafe p)).aioSafe).canSafe

/-! ### Resets of blocks (R442) -/

/-- A SWITCH reset (R257, R263, R266, R442): links, queues and counters are lost, gPTP begins again, each with its event, while the time counter keeps
its last corrected rate for 60 s; CAB, its mirror and the doorbell are idle. -/
def State.switchReset (s : State) : State :=
  let s0 := (List.range 66).foldl (fun s i => if s.fbit (ethB (i + 1)) ETH_PORT_STATUS_LINK_UP then s.linkDown (i + 1) else s) s
  let s1 := (s0.forPorts (fun s p => s.lumNone p)).ptpTo ptpListening
  let s2 := s1.regClear (fun k => decide (0x1000 ≤ k ∧ k ≤ 0x1FFF) || decide (0x100000 ≤ k ∧ k ≤ 0x144FFF))
  let s3 := s2.memClear (fun k => decide (mirrorFront ≤ k ∧ k < mirrorFront + 0x4000))
  { s3 with eth := { EthSt.reset with shift := s3.eth.shift, rate := s3.eth.rate, rateAt := s3.eth.rateAt, rateEnd := some (s3.eth.rateEnd.getD (s3.now + 60000000000)), cageA := s3.eth.cageA, cageB := s3.eth.cageB }, dbLen := 0, backDone := false }

/-- What a reset of a shared domain clears. -/
def State.blockClear (s : State) : Dom → State
  | .switch => s.switchReset
  | .meter => s.meterReset
  | .aio => s.aioReset
  | .can => s.canReset
  | .laneA => s.laneClear .a
  | .laneB => s.laneClear .b

/-- The shared domains, in the order of their release (R34). -/
def sharedDoms : List Dom := [.switch, .meter, .aio, .can]

/-- SWITCH, METER, AIO, CAN and both lanes are reset together (R28, R30, R441): no lane fails, and sessions are lost with the lanes. -/
def State.resetSix (s : State) (src : Nat) : State :=
  let s1 := sharedDoms.foldl (fun s d =>
    ((((s.blockClear d).setInReset d.bit true).setDom d { DomRst.idle with times := (s.dom d).times }).rstBit HG_RST_STATUS_QUIESCING d.bit false).finc 0 (rstCntF d.bit)) s
  let s2 := [Lane.a, Lane.b].foldl (fun s l =>
    if s.lstate l = .failed ∨ s.lstate l = .retired then s
    else (s.laneAssert l src).setLstate l .reset) (s1.exerciseEnd 3 none)
  let s3 : State := { s2 with hg := { s2.hg with takeover := none, handover := none } }
  (s3.loseSessions).rstNote src 0xFC 0

end Sys2Proof.Machine
end

