-- ==== Sys2Proof/Machine/ImgOps.lean ====
section
/-! DEFINITION. Program and settings images: what they must meet, and what their start does (R121, R126, R267–R278, R289, R408–R410, R528, R529). -/

namespace Sys2Proof.Machine
open Sys2Proof

/-! ### Checks of a program image -/

/-- The binding of an entry fits its type, and a PROG_IN or a meter value is not written (R125, R289, R290). -/
def bindFits (d : PointDesc) : Bool :=
  match d.ptype.toNat, d.bind with
  | 1, .prog => d.writer.isNone
  | 2, .prog => true
  | 3, .prog => true
  | 4, .loop _ i => i.val == 0
  | 5, .loop _ i => i.val == 1
  | 6, .loop _ i => i.val == 2
  | 7, .aio _ => true
  | 8, .can _ _ _ => true
  | 9, .meterIn _ _ => d.writer.isNone
  | 9, .meterPort _ _ => d.writer.isNone
  | 10, .port _ => true
  | 16, .node _ => true
  | 17, .group _ => true
  | _, _ => false

/-- The gallery of a task of an image. -/
def taskGal (i : ProgImage) (t : Nat) : Nat := ((i.tasks.find? (fun x => x.task.val == t)).map (fun x => x.gallery.val)).getD 0

/-- A task reads and writes only what its gallery owns, or reads a SHARED point of gallery 0 (R124, R289). -/
def State.ownedOk (s : State) (i : ProgImage) (d : PointDesc) : Bool :=
  match d.bind with
  | .prog => true
  | b => s.bindOwner d.task.val b == taskGal i d.task.val || (d.shared && d.writer.isNone && s.bindOwner d.task.val b == 0)

/-- Every mailbox has one sender, of its receiver's gallery and lane (R292). -/
def boxesOk (i : ProgImage) : Bool :=
  let home (t : Fin 64) : Option Lane := (i.parts.find? (fun x => x.task == t)).map (fun x => if i.wide then clusterLane (x.cell.val / 16) else .a)
  i.boxes.all (fun d => taskGal i d.sender.val == taskGal i d.receiver.val && home d.sender == home d.receiver && (home d.sender).isSome &&
    i.boxes.all (fun e => e.cell != d.cell || e.box != d.box || e.sender == d.sender))

/-- The variables a step names with their types, and whether it writes them. -/
def stepPlaces : Step → List (Place × Bool)
  | .load _ p | .loadAt _ p _ => [(p, false)]
  | .store _ p | .storeIn _ p _ _ | .storeAt _ p _ => [(p, true)]
  | .block _ p => [(p, true)]
  | .chart c => [(c.place, true)]
  | .send _ _ p _ => [(p, false)]
  | .receive _ p _ => [(p, true)]
  | _ => []

/-- A string of at most 254 characters, an array of at most three dimensions, a bounded loop, a divergence of at most 16 branches and a message of at
most 120 bytes (R270, R273, R292). -/
def stepOk : Step → Bool
  | .load (.str n) _ | .store (.str n) _ => decide (n.toNat ≤ 254)
  | .loadAt t _ ds | .storeAt t _ ds => decide (ds.length ≤ 3) && (match t with
    | .str n => decide (n.toNat ≤ 254)
    | .num _ => true)
  | .loopEnter n => decide (1 ≤ n) && decide (n ≤ 65535)
  | .chart c => c.trans.all (fun t => decide (t.2.length ≤ 16))
  | .send _ _ _ n => decide (n.toNat ≤ 120)
  | _ => true

/-- A task reads only points of its own gallery and SHARED points of gallery 0, and writes only entries that name it and this cell, no PROG_IN among
them (R124, R290). -/
def State.accessOk (s : State) (i : ProgImage) (d : PartDesc) (x : Place × Bool) : Bool :=
  match x.1 with
  | .point e => match i.points.find? (fun p => p.entry == e) with
    | none => false
    | some p =>
      let owner := match p.bind with
        | .prog => taskGal i p.task.val
        | b => s.bindOwner p.task.val b
      if x.2 then p.task == d.task && p.writer == some d.cell && p.ptype.toNat != 1
      else owner == taskGal i d.task.val || (p.shared && owner == 0)
  | _ => true

/-- A task: its INTERVAL is a whole multiple of the base cycle and MULT, PHASE, cells and shared data keep their limits (R274, R277). -/
def taskOk (i : ProgImage) (t : TaskDesc) : Bool :=
  let ps := i.parts.filter (fun d => d.task == t.task)
  let c := (ps.head?.map (fun d => d.cell.val / 16)).getD 0
  let end_ := t.sharedBase + t.sharedSize
  decide (t.interval % (1000 * i.base) = 0) && decide (1 ≤ multOf i t) && decide (multOf i t ≤ 10000) && decide (t.phase < multOf i t) &&
  !ps.isEmpty && ps.all (fun d => d.cell.val / 16 == c) && (i.wide || decide (c < 8)) &&
  decide ((i.tasks.filter (fun u => u.task == t.task)).length = 1) && decide (end_ ≤ 0x9F000) &&
  i.tasks.all (fun u => u.task == t.task || !((i.parts.filter (fun d => d.task == u.task)).any (fun d => d.cell.val / 16 == c)) ||
    decide (end_ ≤ u.sharedBase ∨ u.sharedBase + u.sharedSize ≤ t.sharedBase))

/-- A partition: its task is defined, it is the task's only one on its cell, its data lie between CODE_END and the system area, its RETAIN variables in
the RETAIN data, and its steps keep their limits (R124, R267, R270, R273, R277). -/
def State.partOk (s : State) (i : ProgImage) (d : PartDesc) : Bool :=
  let e := ((i.cells.find? (fun c => c.cell == d.cell)).map (fun c => c.codeEnd.toNat * 0x1000)).getD 0
  (taskOf i d.task.val).isSome && decide ((i.parts.filter (fun x => x.task == d.task && x.cell == d.cell)).length = 1) &&
  decide (e ≤ d.base ∧ d.base + d.size ≤ 0x1F000) && d.retain.all (fun r => decide (r.1 + r.2.1 ≤ d.size ∧ r.2.2 + r.2.1 ≤ i.retainBytes)) &&
  d.steps.all (fun st => stepOk st && (stepPlaces st).all (s.accessOk i d))

/-- The takeover placements of an image (R410): those a lane lists are complete, lie on that lane on cells its own placement leaves free, and fit them. -/
def takesOk (i : ProgImage) : Bool :=
  let full (l : Lane) (g : Fin 64) : Bool := i.parts.all (fun d => taskGal i d.task.val != g.val || clusterLane (d.cell.val / 16) == l ||
    (match d.take with
    | some p => clusterLane (p.cell.val / 16) == l
    | none => false))
  let taken (n : Nat) : List PartDesc := i.parts.filter (fun d => d.take.any (fun p => p.cell.val == n))
  i.takeoverA.all (full .a) && i.takeoverB.all (full .b) &&
  (List.range 256).all (fun n => (taken n).isEmpty || ((i.parts.all (fun d => d.cell.val != n)) && cellFits i (taken n)))

/-- Can `need` more of the loops (period, phase) fall due in one frame with those of `ch`? -/
def manyDue : Nat → List (Nat × Nat × Nat) → List (Nat × Nat × Nat) → Bool
  | need, _, [] => need == 0
  | need, ch, x :: xs => need == 0 || (decide (need ≤ xs.length + 1) &&
      ((ch.all (duePair x) && manyDue (need - 1) (x :: ch) xs) || manyDue need ch xs))

/-- The enabled loop slots of a descriptor list: slot, SUBFRAME, and PERIOD and PHASE (R311, R334). -/
def imageLoops (i : ProgImage) : List (Nat × Nat × Nat × Nat × Nat) :=
  (i.loops.filter (fun d => fieldGet (d.2.getD 0 0).toNat 31 1 == 1)).map (fun d =>
    let w (f : Fld) : Nat := fieldGet (d.2.getD (f.off / 4) 0).toNat f.lo f.width
    (d.1.val, min 4 (w LOOP_PERIOD_SUBFRAME), max 1 (min 480000 (w LOOP_PERIOD)), w LOOP_PHASE, 0))

/-- Does an image place more than 320 samples in a sub-frame of one lane's engine (R314)? In WIDE a lane also runs the slots of the galleries it has
takeover placements of (R410). -/
def State.loopsOver (s : State) (i : ProgImage) : Bool :=
  let on (l : Lane) (q : Nat) : Bool :=
    let g := s.loopOwner q
    !i.wide || (if s.fbit (galB g) HG_GAL_LIVE_WIDE_LANE then Lane.b else Lane.a) == l ||
      (match l with | .a => i.takeoverA | .b => i.takeoverB).any (fun x => x.val == g)
  [Lane.a, Lane.b].any (fun l => (List.range 5).any (fun k =>
    manyDue 321 [] (((imageLoops i).filter (fun x => x.2.1 == k && on l x.1)).map (fun x => x.2.2))))

/-- The limits of R124, R270, R273, R274, R277, R289, R290, R292, R314, R408 and R410. -/
def State.progOk (s : State) (i : ProgImage) : Bool :=
  i.uses.all elementOk && decide (500 ≤ i.base) && decide (i.base ≤ 100000) && decide (100 * (i.commit + 2) ≤ 85 * i.base) &&
  decide (i.retainBytes ≤ 262144) && decide (i.points.length ≤ 8192) && i.tasks.all (taskOk i) && i.parts.all (s.partOk i) &&
  i.cells.all (fun c => decide (c.code.length ≤ c.codeEnd.toNat * 0x1000)) &&
  (List.range 256).all (fun n => cellFits i (i.parts.filter (fun d => d.cell.val == n))) &&
  i.points.all (fun d => bindFits d && s.ownedOk i d) && boxesOk i && !s.loopsOver i &&
  (!i.wide || (takesOk i && (match s.fbit (galB 0) HG_GAL_LIVE_WIDE_LANE with
    | true => i.takeoverA.any (fun g => g.val == 0)
    | false => i.takeoverB.any (fun g => g.val == 0))))

/-! ### The start of a program image -/

/-- An entry keeps its role: type, binding, owner and, for a program variable, its task (R126). -/
def sameRole (o : PointEnt) (d : PointDesc) (was now : Nat) : Bool :=
  o.ptype == d.ptype.toNat && decide (o.bind = d.bind) && (d.bind != .prog || o.task == d.task.val) && was == now

/-- Registers of a lane that show the image, and its partitions on the lane's cells (R309). The tasks' counters go on. -/
def State.laneImage (s : State) (l : Lane) (i : ProgImage) : State :=
  let b := cycB l
  let s1 := (((s.fset b CYC_BASE_PERIOD i.base).fset b CYC_TIMING_COMMIT i.commit).fset b CYC_RETAIN_SIZE_BYTES i.retainBytes).fset b CYC_IMAGE i.id.toNat
  let s2 := s1.regClear (fun k => decide (laneKey l 0x1A0100 ≤ k ∧ k < laneKey l 0x1A0500) && decide (k % 16 < 8))
  let s3 := i.tasks.foldl (fun s t =>
    let b := taskB l t.task.val
    let m := ((i.parts.find? (fun d => d.task == t.task)).map (fun d => if i.wide then d.cell.val / 16 else d.cell.val / 16 % 8 + 8 * l.num)).getD 0
    (((s.fset b CYC_TASK_CFG_DEFINED 1).fset b CYC_TASK_CFG_CLUSTER m).fset b CYC_TASK_PERIOD_PHASE t.phase).fset b CYC_TASK_PERIOD_MULT (multOf i t)) s2
  s3.placeImage l i

/-- The point table, the task owners and the forces follow an image (R121, R126, R298): an entry that is given to another variable or resource, or to
another gallery, or that the image no longer binds, ends its role. -/
def State.imagePoints (s : State) (i : ProgImage) : State :=
  let s1 := (List.range 64).foldl (fun s t => s.fset (0x13C00 + 4 * t) HG_OWN_TASK_OWNER (taskGal i t)) s
  let gone := s1.points.map (fun q => (q.1, { PointEnt.none with gen := q.2.gen }))
  let pts := i.points.foldl (fun t d =>
    let e := d.entry.val
    let o := s.point e
    let same := sameRole o d (s.pointOwner e) (s1.bindOwner d.task.val d.bind)
    let p : PointEnt := ⟨d.ptype.toNat, if same then o.gen else genNext o.gen, d.bind, d.task.val, d.dtype.toNat, d.retain, d.shared, d.writable, d.init.toNat, d.writer.map (fun c => c.val)⟩
    tabSet (fun _ => PointEnt.none) t e p) gone
  let now (e : Nat) : PointEnt := tabGet (fun _ => PointEnt.none) pts e
  let kept (e : Nat) : Bool := (now e).ptype != 0 && (now e).gen == (s.point e).gen
  let olds := ((s.points.filter (fun q => q.2.ptype != 0)).map (fun q => q.1) ++ (i.points.map (fun d => d.entry.val)).filter (fun e => (s.point e).ptype == 0)).filter
    (fun e => !kept e)
  let roles := olds.map (fun e => (⟨s.nextTick, (s.point e).ptype, e, s.pointOwner e, (s.point e).gen, (s.point e).bind⟩ : OldRole))
  ({ s1 with points := pts.filter (fun q => !decide (q.2 = PointEnt.none)), committed := s1.committed.filter (fun e => kept e.1), progIn := s1.progIn.filter (fun e => kept e.1) } : State).rolesEnd roles

/-- The registers an image lays at CAN addresses; an active object whose header or signals change goes through RECONFIG (R398). -/
def State.imageCan (s : State) (i : ProgImage) : State :=
  let rs := i.regs.filter (fun e => 0xC0000 ≤ e.1 && e.1 ≤ 0xCFFFF)
  let s1 := rs.foldl (fun s e => s.wr e.1 e.2) s
  (List.range 4).foldl (fun s n => (List.range 128).foldl (fun s o =>
    if rs.any (fun e => decide (canObjB n o ≤ e.1 ∧ e.1 < canObjB n o + 16)) then s.canChanged n o else s) s) s1

/-- The lanes' states and the grants under an image's mode (R408, R409, R528): a lane that runs keeps running. -/
def State.imageLanes (s : State) (i : ProgImage) : State :=
  let up (x : LState) : Bool := x == .active || x == .standby || x == .syncing || x == .wideRun
  if i.wide then
    let s1 := [Lane.a, Lane.b].foldl (fun s l => if up (s.lstate l) then s.setLstate l .wideRun else s) s
    ({ s1 with hg := { s1.hg with copyStale := false } } : State).grantsWide
  else
    let act := if s.lstate s.hg.active == .active then s.hg.active else if up (s.lstate .a) then Lane.a else .b
    let s1 := [Lane.a, Lane.b].foldl (fun s l =>
      if !up (s.lstate l) then s else if l = act then s.setLstate l .active
      else if s.lstate l = .wideRun then s.setLstate l .syncing else s) s
    let s2 : State := { s1 with hg := { s1.hg with active := act, copyStale := true } }
    (s2.setLane act.other { s2.lane act.other with copy := none }).grantsPaired act

/-- An image is in force: points, registers, placements and CAN tables follow it (R304, R528), and another base cycle changes the light
cycle in force (R216). `wideLane` is WIDE_LANE as it stands now (R409). -/
def State.imageForce (s : State) (i : ProgImage) : State :=
  let wl := (List.range 64).filterMap (fun g => if s.fbit (galB g) HG_GAL_LIVE_WIDE_LANE then some (Fin.ofNat 64 g) else none)
  let s1 := s.imagePoints i
  let s2 : State := { s1 with image := some i, upd := { s1.upd with flashProg := some i }, wideLane := wl, base := i.base, hg := { s1.hg with unplaced := false } }
  let s5 := ((s2.imageCan i).laneImage .a i).laneImage .b i
  if i.base = s.base then s5 else (s5.lumForce .a).lumForce .b

/-- A committed program image takes the place of the one in force, whose slot stays in flash (R528). -/
def State.imageSwap (s : State) (i : ProgImage) : State :=
  let old := (s.image.map (fun i => i.id.toNat)).getD 0
  let s1 := s.imageForce i
  { s1 with upd := { s1.upd with prog := none, progSlot := 1 - s1.upd.progSlot, progId := old } }

/-- A committed program image starts on every lane that runs (R528), asked as WARM. -/
def State.imageStart (s : State) (i : ProgImage) : State :=
  let s1 := (s.imageSwap i).imageLanes i
  let s2 := s1.enterMode (if i.wide then .wide else .paired)
  let s3 := [Lane.a, Lane.b].foldl (fun s l => if s.runsCycles l then s.startLane l kWarm else s) s2
  if i.wide then
    (match s3.lstate .a, s3.lstate .b with
    | .wideRun, .wideRun => s3
    | .wideRun, _ => s3.wideTake .a 1
    | _, .wideRun => s3.wideTake .b 1
    | _, _ => s3)
  else s3

/-! ### Settings -/

/-- What a lane's own registers take from the settings in force (R215, R529). -/
def State.laneSettings (s : State) (l : Lane) : State :=
  match s.upd.settings with
  | none => s
  | some x =>
    let s0 := s.fset (laneKey l 0) UPD_SETTINGS x.id.toNat
    let s1 := (x.regs.filter (fun e => isLaneReg e.1)).foldl (fun s e => s.wr (laneKey l e.1) e.2) s0
    let s2 := x.nodeSafe.foldl (fun s e => s.fset (lumN l e.1.val) LUM_NODE_CFG_SAFE e.2.toNat) s1
    let s3 := x.maxNodes.foldl (fun s e => s.fset (lumP l e.1.val) LUM_PORT_STATE_MAX_NODES e.2.toNat) s2
    (s3.fset (laneKey l 0) UPD_DEFAULTED_BLOCKS x.defaulted.length).fset (laneKey l 0) UPD_DEFAULTED_UNKNOWN x.unknown

/-- A settings image is in force (R121, R215, R529, R538): registers, luminaire groups and nodes, and the module's address; event 590 for
each block replaced by its defaults. -/
def State.settingsStart (s : State) (x : SettingsImage) : State :=
  let s0 : State := { s with upd := { s.upd with settings := some x, flashSett := some x } }
  let s1 := (x.regs.filter (fun e => !isLaneReg e.1)).foldl (fun s e => s.wr e.1 e.2) s0
  let own := x.groupOwner.foldl (fun t e => put0 t e.1.val e.2.val) []
  let moved := (List.range 256).filter (fun g => nat0 own g != s1.grpOwner g)
  let grps := x.nodeGroups.foldl (fun t e => tabSet (fun _ => []) t e.1.val (e.2.map (fun g => g.val))) []
  let s2 : State := { s1 with groupOwner := own, nodeGroups := grps }
  let old := s.upd.settings
  let safe (o : Option SettingsImage) (n : Nat) : Nat := ((o.bind (fun y => y.nodeSafe.find? (fun e => e.1.val == n))).map (fun e => e.2.toNat)).getD 0
  let changed := (List.range 256).filter (fun n => s.groupsOf n != s2.groupsOf n || safe old n != safe (some x) n)
  let adm (o : Option SettingsImage) (n : Nat) : Bool :=
    decide (n % 4 < ((o.bind (fun y => y.maxNodes.find? (fun e => e.1.val == n / 4))).map (fun e => e.2.toNat)).getD 4)
  let nodes := (List.range 256).filter (fun n => s.groupsOf n != s2.groupsOf n || adm old n != adm (some x) n)
  let roles := nodes.map (fun n => (⟨s.nextTick, 16, n, s.portOwner (n / 4), s.genOf 16 n, .node (Fin.ofNat 256 n)⟩ : OldRole)) ++
    moved.map (fun g => (⟨s.nextTick, 17, g, s.grpOwner g, s.genOf 17 g, .group (Fin.ofNat 256 g)⟩ : OldRole))
  let s2r := s2.reRole roles
  let s3 := (s2r.laneSettings .a).laneSettings .b
  let s4 := changed.foldl (fun s n => match s.lumLane (n / 4) with
    | some l => s.lumChanged l n
    | none => s) s3
  let s5 := s4.fset 0 SYS_SYSTEM x.system.toNat
  let s6 := match x.address with
    | some (g, m) => ((s5.fset 0 SYS_ADDRESS_ASSIGNED 1).fset 0 SYS_ADDRESS_GROUP g.toNat).fset 0 SYS_ADDRESS_MODULE m.toNat
    | none => s5.wr 0x024 0
  let s7 := x.defaulted.foldl (fun s e => s.event 590 0 true (e.1.toNat * 0x10000 + e.2.toNat)) s6
  (s7.forPorts (fun s p => if s.alloc.config then s.portCtrlChanged p else s)).flowSync

/-- A lane's firmware has judged the blocks of the settings in force again, and they decode to `y` (R529): with the same outcome it reports them
again; another outcome takes effect at once, or in a siphon at its handover. -/
def State.settingsJudge (s : State) (x y : SettingsImage) : State :=
  if y.id ≠ x.id then s
  else if y = x then x.defaulted.foldl (fun s e => s.event 590 0 true (e.1.toNat * 0x10000 + e.2.toNat)) s
  else if s.upd.siphon = sipIdle then s.settingsStart y
  else { s with upd := { s.upd with judged := some y } }

/-- A lane has loaded what its flash holds (R412, R529): the images in force. When the module has none yet, settings the flash holds start, and a
program image waits for the tick at which the lane starts (R278). `sett`: the settings image in its flash as its firmware decodes it. -/
def State.laneLoad (s : State) (l : Lane) (image : Option ProgImage) (sett : Option SettingsImage) : State :=
  let s1 := match s.upd.settings, s.upd.flashSett, sett with
    | some x, _, some y => s.settingsJudge x y
    | none, some x, some y => s.settingsStart (if y.id = x.id then y else x)
    | none, some x, none => s.settingsStart x
    | none, none, some y => s.settingsStart y
    | some _, _, none => s
    | none, none, none => s
  let s2 := match s1.image with
    | none => { s1 with upd := { s1.upd with flashProg := s1.upd.flashProg.orElse (fun _ => image) } }
    | some i => s1.laneImage l i
  s2.laneSettings l

end Sys2Proof.Machine
end

