-- ==== Sys2Proof/Machine/UpdOps.lean ====
section
/-! DEFINITION. Firmware update: transfers, the stages of the siphon and the fallback (R517–R529). -/

namespace Sys2Proof.Machine
open Sys2Proof

/-! ### Transfers (R517–R521) -/

/-- The lanes whose flash a transfer reaches: those whose processor runs (R521; in SAFE the responder's, R465). -/
def State.updLanes (s : State) : List Lane := [Lane.a, Lane.b].filter (fun l => s.procRuns l)

/-- The bank that a firmware transfer erases: the one that is not CONFIRMED, or with none confirmed the one not booted (R521). -/
def State.newBank (s : State) (l : Lane) : Nat :=
  match s.bankIn l 3 with
  | some b => 1 - b
  | none => 1 - s.bootBank l

/-- The region a transfer of a KIND writes in a lane's flash: its address and size (R517). -/
def State.xferRegion (s : State) (l : Lane) (kind : Nat) : Nat × Nat :=
  match kind with
  | 1 => (bankAt (s.newBank l), 0x1000000)
  | 2 => (0x2000000 + 0x800000 * (1 - s.upd.progSlot), 0x800000)
  | _ => (0x3000000 + 0x100000 * (1 - s.upd.setSlot), 0x100000)

/-- The size of a KIND's region. -/
def kindSize : Nat → Nat
  | 1 => 0x1000000
  | 2 => 0x800000
  | _ => 0x100000

/-- Does the mode refuse a transfer of this KIND (R465, R521)? A siphon in progress refuses it too. -/
def State.xferRefused (s : State) (kind : Nat) : Bool :=
  s.upd.siphon != sipIdle || (match s.mode with
    | .paired | .wide | .service => false
    | .safe => kind != 1
    | _ => true)

/-- A lane erases the target of a transfer (R521, R535). -/
def State.xferErase (s : State) (kind : Nat) (l : Lane) : State :=
  if kind = 1 then s.bankErase l (s.newBank l)
  else
    let r := s.xferRegion l kind
    s.flashErase l r.1 r.2

/-- A transfer opens (R521). An image committed to the erased slot and not started is gone with it. -/
def State.xferBegin (s : State) (session kind size : Nat) : State :=
  let ls := s.updLanes
  let s1 := ls.foldl (fun s l => s.xferErase kind l) s
  let u := s1.upd
  let u1 : UpdSt := { u with xfer := some ⟨session, kind, size, [], s.now⟩, pulses := ls }
  { s1 with upd := if kind = 2 then { u1 with prog := none, progId := 0 } else if kind = 3 then { u1 with sett := none } else u1 }

/-- A block is written to both lanes' flash (R521). -/
def State.xferWrite (s : State) (x : Xfer) (off : Nat) (data : List Byte) : State :=
  let ls := s.updLanes
  let s1 := ls.foldl (fun s l => s.mwrite (flashKey l ((s.xferRegion l x.kind).1 + off)) data) s
  let ws := (List.range (data.length / 4)).foldl (fun t i => tabSet (fun _ => false) t (off / 4 + i) true) x.words
  { s1 with upd := { s1.upd with xfer := some { x with words := ws, at_ := s.now }, pulses := ls } }

/-- May the key in slot `n` authenticate a program or settings image: owned by gallery 0, usable, with HMAC (R498, R502, R519)? -/
def State.authSlot (s : State) (n : Nat) : Bool :=
  let a := (s.rd (0x35000 + 0x10 * n)).toNat
  decide (n < 128) && a.testBit 30 && decide (a / 0x1000000 % 64 = 0) && a.testBit 1

/-- Is the trailer of an image of `size` bytes at key `k` right (R518, R519): for firmware an ECDSA-P-384 signature of the SHA-384 of what precedes
it, valid under slot 2 or slot 3, otherwise its HMAC-SHA-256 under the key in AUTH_SLOT? -/
def State.trailerOk (s : State) (k kind size : Nat) : Bool :=
  if kind = 1 then
    let h := sha384 (s.mbytes k (size - 96))
    let sig := s.mbytes (k + size - 96) 96
    ecdsaValid (s.slotKey 2) sig h || ecdsaValid (s.slotKey 3) sig h
  else decide (s.mbytes (k + size - 32) 32 = hmacSha256 (s.slotKey (s.mnat (k + 0x11) 1)) (s.mbytes k (size - 32)))

/-- Does the copy in lane `l`'s flash verify (R518, R519)? -/
def State.imageOk (s : State) (l : Lane) (kind : Nat) : Bool :=
  let k := flashKey l (s.xferRegion l kind).1
  let size := s.mnat (k + 0x0C) 4
  decide (s.mnat k 4 = 0x49434647) && decide (s.mnat (k + 4) 1 = kind) && decide (s.mnat (k + 6) 2 = 1) &&
  decide (128 ≤ size) && decide (size ≤ kindSize kind) &&
  (if kind = 1 then decide (s.mnat (k + 0x10) 1 ≤ 1) else s.authSlot (s.mnat (k + 0x11) 1)) && s.trailerOk k kind size

/-- What the bytes decode to fits the KIND, and a program image meets the limits of R519. -/
def State.bodyOk (s : State) (kind : Nat) : Option ImageBody → Bool
  | some (.firmware _) => kind == 1
  | some (.program p) => kind == 2 && s.progOk p
  | some (.settings _) => kind == 3
  | none => false

/-- The header of lane `l`'s copy says what the decoded image says (R518): VERSION, and STATE_FORMAT or LAYOUT_ID. -/
def State.headOk (s : State) (l : Lane) (kind : Nat) (body : Option ImageBody) : Bool :=
  let k := flashKey l (s.xferRegion l kind).1
  match body with
  | some (.firmware f) => decide (s.mnat (k + 8) 4 % 0x1000000 = f.version.toNat) && decide (s.mnat (k + 0x14) 4 = f.stateFormat.toNat)
  | some (.program p) => decide (s.mnat (k + 8) 4 = p.id.toNat) && decide (s.mnat (k + 0x18) 4 = p.layout.toNat)
  | some (.settings x) => decide (s.mnat (k + 8) 4 = x.id.toNat)
  | none => false

/-- The lane that event 589 names: 0xFF when both copies fail. -/
def failedLanes (a b : Bool) : Nat := if !a && !b then 0xFF else if !a then 0 else 1

/-! ### The siphon (R523–R527) -/

/-- In WIDE the galleries of lane `l` leave it as it is put in RESET (R424, R524). -/
def State.wideLeave (s : State) (l : Lane) (cause : Nat) : State :=
  let p := l.other
  let mine := (s.sessions.filter (fun x => s.answering x.gallery == some l)).map Session.id
  let s1 := s.forPorts (fun s q => if s.grant (s.portOwner q) == some l then s.lumForget p q |>.lumArrive q else s)
  let s2 := s1.wideTake p cause
  let s3 : State := { s2 with sessions := s2.sessions.filter (fun x => !mine.contains x.id), flights := s2.flights.filter (fun f => !mine.contains f.session) }
  s3.xferKeep

/-- A lane is put in RESET for a stage of the siphon: no failure (R523). -/
def State.sipReset (s : State) (l : Lane) : State :=
  if s.lstate l = .retired then s
  else
    let s1 := if s.mode = .wide ∧ s.lstate l = .wideRun ∧ s.lstate l.other = .wideRun then s.wideLeave l 2 else s
    let s2 : State := { s1.laneAssert l 5 with hg := { s1.hg with copyStale := decide (s1.mode = .paired) } }
    let s3 := s2.setLaneHg l { s1.laneHg l with state := .reset, waiting := false, testPassed := false, rejoin := false }
    (s3.setLane l { s3.lane l with copy := none })

/-- The first lane of a siphon (R522): the standby in PAIRED, lane B in WIDE. -/
def State.sipFirstLane (s : State) : Lane :=
  let m := if s.mode = .service then s.hg.heldMode else s.mode
  if m = .wide then .b else s.hg.active.other

/-- A committed firmware image begins its siphon (R523, t1). -/
def State.sipBegin (s : State) (f : FwImage) : State :=
  let l := s.sipFirstLane
  let s1 := [Lane.a, Lane.b].foldl (fun s l => s.setBank l (s.newBank l) ⟨2, some f⟩) s
  let s2 : State := { s1 with upd := { s1.upd with xfer := none, first := l, version := f.version.toNat } }
  (s2.setSiphon sipFirst).sipReset l

/-- The copy of the active lane's newest released cycle is complete (R425). -/
def State.copyFresh (s : State) : Bool :=
  match (s.lane s.hg.active.other).copy with
  | some c => decide (c.cycle = s.fget (cycB s.hg.active) CYC_DONE)
  | none => false

/-- The formats of the state that the two lanes' firmware copies are the same (R524). -/
def State.sameFormat (s : State) : Bool :=
  match (s.bank .a (s.bootBank .a)).image, (s.bank .b (s.bootBank .b)).image with
  | some f, some g => decide (f.stateFormat = g.stateFormat)
  | _, _ => true

/-- The handover of R524 from the active lane to the other, the former active lane staying as STANDBY; without the same format the start is WARM and
no copy can follow. -/
def State.sipHandover (s : State) : State :=
  if s.sameFormat then s.handover 10 .standby s.current false
  else
    let o := s.hg.active
    let s1 := s.handover 10 .standby false false
    let s2 := s1.setLane o { s1.lane o with copy := none }
    { s2 with hg := { s2.hg with copyStale := true } }

/-- Galleries whose home is lane `l`. -/
def State.homeGals (s : State) (l : Lane) : List Nat := (List.range 64).filter (fun g => s.galEn g && s.wideHome g == l)

/-- At the handover the new firmware's judgement of the settings takes effect (R529). -/
def State.settingsTake (s : State) : State :=
  match s.upd.judged with
  | some y => ({ s with upd := { s.upd with judged := none } } : State).settingsStart y
  | none => s

/-- Has the first lane reached t3 (R523)? -/
def State.sipReady (s : State) : Bool :=
  let l := s.upd.first
  match s.mode with
  | .paired => s.lstate l == .standby && s.hg.active == l.other && ((s.current && s.copyFresh) || !s.sameFormat)
  | .wide => s.lstate l == .wideRun
  | _ => false

/-- The confirm window starts (t4). -/
def State.windowStart (s : State) (l : Lane) : State :=
  let w := s.fget (laneKey l 0) UPD_CONFIRM_WINDOW
  let secs := max 60 (min 3600 w)
  ({ s with updatePending := true, upd := { s.upd with windowEnd := some (s.now + secs * 1000000000) } } : State).setSiphon sipPending

/-- A fallback completes: the first lane's new bank FAILED and that lane reset onto its old one (R526). -/
def State.sipFallback (s : State) : State :=
  let l := s.upd.first
  (s.fallbackBanks).sipReset l

/-- With no other lane running, the reset of the first lane leaves none: HOLD (R435, R527). -/
def State.sipLone (s : State) : State :=
  let s1 := s.sipFallback
  if s1.laneLeft .a || s1.laneLeft .b then s1 else s1.noLane

/-- A transfer, program or settings operation of R521 finds the session's own transfer. -/
def State.xferOf (s : State) (session : Nat) : Option Xfer :=
  match s.upd.xfer with
  | some x => if x.session = session then some x else none
  | none => none

/-- Verification failed (R519): event 589. -/
def State.imageReject (s : State) (kind lane : Nat) : State :=
  let l := if lane = 1 then Lane.b else Lane.a
  let v := s.mnat (flashKey l (s.xferRegion l kind).1 + 8) 2
  s.event 589 0 true (kind * 0x1000000 + lane * 0x10000 + v)

/-- A verified image goes into service (R523, R528, R529); in SAFE it is staged for the next power-on (R465). -/
def State.imageTake (s : State) (body : Option ImageBody) : State :=
  match body with
  | some (.firmware f) =>
    if s.mode = .safe then
      let s1 := s.updLanes.foldl (fun s l => s.setBank l (s.newBank l) ⟨1, some f⟩) s
      { s1 with upd := { s1.upd with xfer := none } }
    else s.sipBegin f
  | some (.program p) => { s with upd := { s.upd with xfer := none, prog := some (p, s.now), progId := p.id.toNat } }
  | some (.settings x) => { s with upd := { s.upd with xfer := none, sett := some (x, s.now) } }
  | none => s

end Sys2Proof.Machine
end

