-- ==== Sys2Proof/Machine/CopyOps.lean ====
section
/-! DEFINITION. The state copy from the active lane to the standby (R414–R416). -/

namespace Sys2Proof.Machine
open Sys2Proof

/-- The registers of a lane that the state copy carries (R414): slot state, descriptors and schedule tables of the loop engine, the
luminaire link's device states, counters and `LUM_CTRL`, the CYC counters, and the contexts of the check-value units. -/
def copyReg (a : Nat) : Bool :=
  (0x184000 ≤ a && a < 0x1A0000) ||
  a == 0x1B0000 || a == 0x1B0010 || (0x1B0028 ≤ a && a < 0x1B003C) || (0x1B0100 ≤ a && a < 0x1B2800) ||
  (0x1A000C ≤ a && a < 0x1A0028 && a != 0x1A0010) || (0x1A0100 ≤ a && a < 0x1A0500 && a % 16 ≥ 8) ||
  (0x30000 ≤ a && a < 0x31000 && (a % 0x400 == 0 || (0x20 ≤ a % 0x400 && a % 0x400 < 0x30)))

/-- The registers of the copy arrive. -/
def State.copyRegs (s : State) (l p : Lane) : State :=
  let es := s.regs.filter (fun e => e.1 / 0x100000000 == l.num && copyReg (e.1 % 0x100000000))
  let s1 := s.regClear (fun k => k / 0x100000000 == p.num && copyReg (k % 0x100000000))
  es.foldl (fun s e => s.wr (laneKey p (e.1 % 0x100000000)) e.2) s1

/-- The memories of the copy arrive (R267, R268, R414): each pair of logical cells from CODE_END up without the system area, the data of
partitions that the two lanes have placed differently, the staging area, mailboxes and shared data of each pair of clusters, and of
cluster control the bank pointers and marks. -/
def State.copyMem (s : State) (l p : Lane) : State :=
  let s1 := (List.range 128).foldl (fun s k =>
    let e := s.codeEnd k
    s.copyRange (localKey (s.runsOn (k + 128 * l.num)) + e) (localKey (s.runsOn (k + 128 * p.num)) + e) (0x1F000 - e)) s
  let s2 := (s.cyc l).parts.foldl (fun s a => match (s.cyc p).parts.find? (fun b => b.task == a.task && b.home == a.home) with
    | some b =>
      if a.host % 128 = b.host % 128 ∧ a.base = b.base then s
      else s.copyRange (s.partKey a) (s.partKey b) (((s.image.bind (fun i => partOf i a.task a.home)).map (fun d => d.size)).getD 0)
    | none => s) s1
  (List.range 8).foldl (fun s c =>
    let x := sharedKey (c + 8 * l.num)
    let y := sharedKey (c + 8 * p.num)
    ((s.copyRange (x + 0x40000) (y + 0x40000) 0x20000).copyRange (x + 0x60800) (y + 0x60800) 0x40).copyRange (x + 0x61000) (y + 0x61000) 0x9F000) s2

/-- The units of lane `l` that are busy. -/
def State.ckvBusy (s : State) (l : Lane) : List Nat := (List.range 4).filter (fun i => s.fbit (ckvB l i) CKV_STATUS_BUSY)

/-- The standby applies a complete copy in one step (R415). -/
def State.copyApply (s : State) (l p : Lane) : State :=
  let n := s.fget (cycB l) CYC_DONE
  let copy : LaneCopy := ⟨n, s.sessions, s.ckvBusy l⟩
  let s1 := (s.copyRegs l p).copyMem l p
  let y := s1.lane p
  let x := s1.lane l
  let z : LaneSt := { y with cyc := { x.cyc with phase := .stopped, parts := y.cyc.parts, stage := x.cyc.snap }, lum := x.lum, loop := { x.loop with cap := y.loop.cap, free := [] }, copy := some copy }
  ((s1.setLane p z).fset (laneKey l 0) RED_COPY_CYCLE n).fset (laneKey p 0) RED_COPY_CYCLE n

/-- Can a copy complete now (R282, R415, R416, R419): the cycle is released, both links are up, and no culvert path is impaired? -/
def State.copyCan (s : State) : Bool :=
  let l := s.hg.active
  s.mode == .paired && s.lstate l == .active && ((s.cyc l).phase == .released || (s.cyc l).phase == .waiting) && s.hg.linkA && s.hg.linkB &&
  !s.hg.a.culvImp && !s.hg.b.culvImp

/-- The KiB of the full copy of lane `l`'s memories (R414, R426). DESIGN CHOICE: the size of the rest of the state is not given, and REMAINING
counts the memories alone (log entry 109). -/
def State.syncKib (s : State) (l : Lane) : Nat :=
  ((List.range 128).foldl (fun n k => n + (0x1F000 - s.codeEnd (k + 128 * l.num))) (8 * (0x20000 + 0x40 + 0x9F000)) + 1023) / 1024

/-- `RED_SYNC` on both lanes. -/
def State.syncRest (s : State) (kib : Nat) : State := (s.fset (laneKey .a 0) RED_SYNC kib).fset (laneKey .b 0) RED_SYNC kib

/-- With a cycle's copy the active lane sends as much of the full copy as 200 µs at 25 Gb/s carry, 610 KiB (R426). -/
def State.syncStep (s : State) (l : Lane) : State := s.syncRest (s.fget (laneKey l 0) RED_SYNC - 610)

/-- What the sending lane counts of a copy's frames (R439). -/
def State.copyFrames (s : State) (l : Lane) (crc resent : Nat) : State :=
  (s.fadd (laneKey l 0) RED_CULVERT_ERR_CRC crc).fadd (laneKey l 0) RED_CULVERT_ERR_RESENT resent

end Sys2Proof.Machine
end

