-- ==== Sys2Proof/Machine/ResetOps.lean ====
section
/-! DEFINITION. Resets of domains: quiesce, assertion, release and reload (R441–R451, R520, R534). -/

namespace Sys2Proof.Machine
open Sys2Proof

/-- A lane's domain. -/
def domIsLane : Dom → Bool
  | .laneA | .laneB => true
  | _ => false

def domLane : Dom → Lane
  | .laneB => .b
  | _ => .a

/-- Reset is asserted on a shared domain (R445, t3; R442, R451, R468). -/
def State.domAssert (s : State) (d : Dom) : State :=
  let r := s.dom d
  let q := if r.phase = .quiescing then (s.now - r.since) / 10000 else 0
  let times := (r.times.filter (fun t => s.now < t + 60000000000)) ++ [s.now]
  let mask := 2 ^ d.bit
  let s1 := ((s.blockClear d).setInReset d.bit true).setDom d ⟨.asserted, r.source, times, s.now, false⟩
  let s2 := ((s1.rstBit HG_RST_STATUS_QUIESCING d.bit false).finc 0 (rstCntF d.bit)).rstNote r.source mask q
  let s3 := s2.event 636 0 (decide (r.source = 6)) (r.source * 0x1000000 + mask * 0x10000 + min q 0xFFFF)
  let s4 := if s3.mode = .safe then s3.canSafe else s3
  if times.length ≥ 4 then (s4.rstBit HG_RST_STATUS_BACKOFF d.bit true).event 637 0 true (mask * 0x10000) else s4

/-- A reset of a shared domain by source 5 or 6 is requested at t0 (R445, R450). -/
def State.domRequest (s : State) (d : Dom) (src : Nat) : State :=
  let r := s.dom d
  match r.phase with
  | .idle =>
    if s.inReset d.bit then s
    else (s.setDom d { r with phase := .quiescing, source := src, since := s.now, due := false }).rstBit HG_RST_STATUS_QUIESCING d.bit true
  | .quiescing => s.setDom d { r with due := false }
  | .asserted => s.setDom d { r with since := s.now, due := false }
  | .reloading => (s.setDom d { r with source := src, due := false }).domAssert d

/-- The bank a lane boots (R520): PENDING in a siphon, else CONFIRMED, else VALID with the higher VERSION first. -/
def State.bootChoice (s : State) (l : Lane) : Nat :=
  let ver (b : Nat) : Nat := ((s.bank l b).image.map (fun f => f.version.toNat)).getD 0
  match (if s.upd.siphon = sipIdle then none else s.bankIn l 2), s.bankIn l 3 with
  | some b, _ => b
  | none, some b => b
  | none, none =>
    if (s.bank l 0).state = 1 ∧ (s.bank l 1).state = 1 then (if ver 1 > ver 0 then 1 else 0)
    else if (s.bank l 1).state = 1 then 1
    else if (s.bank l 0).state = 0 ∧ (s.bank l 1).state ≠ 0 ∧ (s.bank l 1).state ≠ 4 then 1 else 0

/-- At a lane's start the pages its flash controller marked are erased and counted (R534). -/
def State.flashRepair (s : State) (l : Lane) : State :=
  let mine := s.upd.torn.filter (fun p => p.lane == l)
  let s0 : State := { s with upd := { s.upd with torn := s.upd.torn.filter (fun p => p.lane != l) } }
  let s1 := mine.foldl (fun s p => s.flashErase l p.addr.toNat p.len.toNat) s0
  let hit (o n : Nat) : Bool := mine.any (fun p => decide (p.addr.toNat < o + n) && decide (o < p.addr.toNat + p.len.toNat))
  let s2 := [0, 1].foldl (fun s b => if hit (bankAt b) 0x1000000 then s.setBank l b .empty else s) s1
  let s3 := match s2.upd.xfer with
    | some x => if hit (s2.xferRegion l x.kind).1 (s2.xferRegion l x.kind).2 then ({ s2 with upd := { s2.upd with xfer := none } } : State) else s2
    | none => s2
  s3.fset (laneKey l 0) UPD_FLASH_ERASED mine.length

/-- A lane is released from reset and begins its self-test (R412, R452). -/
def State.laneRelease (s : State) (l : Lane) : State :=
  let d := l.dom
  let h := s.laneHg l
  let s1 := ((s.setInReset d.bit false).setDom d { s.dom d with phase := .idle }).flashRepair l
  let s2 : State := { s1 with upd := { s1.upd with boot := put0 s1.upd.boot l.num (s1.bootChoice l) } }
  let h1 : LaneHg := { h with state := .starting, testPassed := false, waiting := false, rejoin := false, wireMiss := 0, culvMiss := 0, hbFrom := s.now }
  let s3 := s2.setLaneHg l h1
  if h.rejoin then s3.finc (4 * l.num) HG_LANE_A_REJOINS else s3

/-- The end of a domain's reset (R443, R445, t5). A lane in reset for a failure waits for R412, and in HOLD for a disagreement or a silent copy
no lane is released (R432). -/
def State.domRelease (s : State) (d : Dom) : State :=
  let r := s.dom d
  if r.phase ≠ .asserted ∨ s.mode = .safe ∧ (domIsLane d) ∨ (s.fget 0 HG_RST_STATUS_BACKOFF).testBit d.bit ∨ (s.fget 0 HG_RST_STATUS_DEFERRED).testBit d.bit then s
  else if (domIsLane d) then
    (if s.lstate (domLane d) = .reset ∧ ¬(s.mode = .hold ∧ s.hg.holdCause ≠ 3) then s.laneRelease (domLane d) else s)
  else
    let s1 := (s.setInReset d.bit false).setDom d { r with phase := .reloading }
    if d = .meter then s1.meterUp else s1

/-- The lane that answers gallery 0 reloads a domain's firmware and configuration, and isolation lifts (R445, t6; R447). -/
def State.domReload (s : State) (d : Dom) : State :=
  if (s.dom d).phase ≠ .reloading then s
  else match s.answering 0 with
    | none => s
    | some l => match (s.bank l (s.bootBank l)).image with
      | none => s
      | some f =>
        let s1 := s.setDom d { s.dom d with phase := .idle, source := 0 }
        match d with
        | .switch => s1.loadSwitch f
        | .meter => s1.loadMeter f
        | .aio => s1.loadAio
        | .can => s1.loadCan f
        | .laneA | .laneB => s

/-- What a REG_WRITE to `HG_RST_CMD` leaves for after its reply: lane resets (R448) and SAFE (R463). -/
def State.rstAfter (s : State) : State :=
  if s.rd 0x11000 = 0 then s
  else
    let safe := s.fbit 0 HG_RST_CMD_ENTER_SAFE
    let d := s.fget 0 HG_RST_CMD_DOMAIN
    let s1 := s.wr 0x11000 0
    if safe then s1.enterSafe 7
    else
      let s2 := if d.testBit 4 then s1.laneFail .a 6 else s1
      if d.testBit 5 then s2.laneFail .b 6 else s2

/-- A write of `HG_RST_CMD` (R448, R463): the answer is whether it is accepted. The shared domains it names are reset 1 ms after the reply. -/
def State.rstCommand (s : State) (v : Nat) : Option State :=
  let doms := v / 4 % 64
  if v.testBit 31 then (if s.mode = .service then some (s.wr 0x11000 0x80000000) else none)
  else
    let lanes := decide (doms / 16 ≠ 0)
    let served := match s.mode with
      | .paired | .wide | .service => true
      | .hold => !lanes
      | _ => false
    let ok := decide (doms ≠ 0) && served
    if ok then
      let s1 := sharedDoms.foldl (fun s d => if v.testBit d.bit then s.setDom d { s.dom d with due := true } else s) s
      some (s1.wr 0x11000 (BitVec.ofNat 32 (doms / 16 * 64)))
    else none

end Sys2Proof.Machine
end

