-- ==== Sys2Proof/Machine/BistOps.lean ====
section
/-! DEFINITION. Self-tests and cells mapped out: reports, runtime slices, the move to a spare, and repacking (R304–R307, R452–R462). -/

namespace Sys2Proof.Machine
open Sys2Proof

/-! ### Cells (R304–R307) -/

/-- A cluster without a free spare stalls runtime BIST (R460): event 595 once. -/
def State.stallCheck (s : State) (c : Nat) : State :=
  let l := clusterLane c
  let b := laneKey l 0
  let m := s.fget b BIST_STATUS_STALLED
  if (s.spareOf c).isSome || m.testBit (c % 8) then s
  else (s.fset b BIST_STATUS_STALLED (m ||| 2 ^ (c % 8))).event 595 0 true (l.num * 0x1000000 + c % 8 * 0x10000)

def State.bist (s : State) (c : Nat) : BistX := tabGet (fun _ => BistX.idle) (s.lane (clusterLane c)).bist (c % 8)

def State.setBist (s : State) (c : Nat) (x : BistX) : State :=
  let l := clusterLane c
  s.setLane l { s.lane l with bist := tabSet (fun _ => BistX.idle) (s.lane l).bist (c % 8) x }

/-- The test of the position under test ends without a result: its logical cell runs on it again (R457, R460). -/
def State.bistDrop (s : State) (c : Nat) : State :=
  let pos := s.fget (bistB c) BIST_CLUSTER_POS
  let s1 := match (s.bist c).onSpare, s.spareOf c with
    | true, some q => s.copyRange (localKey q) (localKey (17 * c + pos)) 0x20000
    | _, _ => s
  (((s1.setBist c .idle).fset (cluB c) CYC_CLUSTER_SPARE_BIST 0).fset (bistB c) BIST_CLUSTER_POS 0x1F).fset (bistB c) BIST_CLUSTER_SLICE 0

/-- A position is mapped out and recorded (R305, R306, R460): a slice under way on another position ends first. -/
def State.mapOut (s : State) (p : Nat) : State :=
  let c := p / 17
  let j := p % 17
  let s0 : State := State.sysPage { s.fset (cluB c) CYC_CLUSTER_MAPPED_OUT (s.fget (cluB c) CYC_CLUSTER_MAPPED_OUT ||| 2 ^ j) with mapOuts := s.mapOuts ++ [p] }
  let testing := s.fbit (cluB c) CYC_CLUSTER_SPARE_BIST && decide (s.fget (bistB c) BIST_CLUSTER_POS ≠ j)
  let s1 := if testing then s0.bistDrop c else s0
  if s.spareOf c = some p then s1.fset (cluB c) CYC_CLUSTER_SPARE_FREE 0 else s1

/-- A physical cell faults (R305–R308): it is mapped out, its commit slot stays empty in the cycle under way, and its logical cell moves at the next
S of the lane; at once where the lane runs no cycles. -/
def State.cellFault (s : State) (p : Nat) (readable : Bool) : State :=
  if (s.fget (cluB (p / 17)) CYC_CLUSTER_MAPPED_OUT).testBit (p % 17) then s
  else
    let l := clusterLane (p / 17)
    let s1 := s.mapOut p
    let s2 := match s1.logicalOf p with
      | none => s1
      | some n =>
        let c := s1.cyc l
        if !s1.runsCycles l || c.phase == CycPhase.stopped then s1.faultSettle p readable
        else
          let run := c.phase == CycPhase.computing || c.phase == CycPhase.done || c.phase == CycPhase.committing
          let s2 := if run && !c.empty.contains n then s1.setCyc l { c with empty := c.empty ++ [n] } else s1
          { s2 with cellFaults := s2.cellFaults ++ [(p, readable)] }
    s2.stallCheck (p / 17)

/-- A position fails a self-test: its logical cell moves to the spare, which has run its partitions when the test was a slice (R305, R453, R459). -/
def State.cellTestFail (s : State) (p : Nat) (slice : Bool) : State :=
  if (s.fget (cluB (p / 17)) CYC_CLUSTER_MAPPED_OUT).testBit (p % 17) then s
  else
    let s1 := s.mapOut p
    let s2 := match s1.logicalOf p, s1.spareOf (p / 17) with
      | some n, some q => s1.cellMove n p q (if slice then 0 else 3)
      | some n, none => s1.cellVacate n (s1.faultSource n false)
      | none, _ => s1
    s2.stallCheck (p / 17)

/-! ### Reports (R452, R453, R461, R462, R469) -/

/-- A lane's report goes to its BIST and RED registers, and event 594 is raised. -/
def State.report (s : State) (l : Lane) (kind : Nat) (t : SelfTest) (parts dp : Nat) (pass : Bool) : State :=
  let b := laneKey l 0
  let free := ((List.range 8).filter (fun c => (s.spareOf (c + 8 * l.num)).isSome)).length
  let out := ((List.range 8).map (fun c => ((List.range 17).filter (fun j => (s.fget (cluB (c + 8 * l.num)) CYC_CLUSTER_MAPPED_OUT).testBit j)).length)).sum
  let s1 := ((((s.fsetB b BIST_REPORT_PASS pass).fset b BIST_REPORT_KIND kind).fsat b BIST_REPORT_CELLS_FAILED t.cells.length).fset b
    BIST_REPORT_DP_OK dp).fset b BIST_REPORT_PARTS parts
  let s2 := (s1.fset b BIST_REPORT_TIME_DURATION t.duration.toNat).fset b BIST_ROW_REPAIR_ROWS t.rows.toNat
  let s3 := (((s2.fsat b RED_HEALTH_MAPPED_OUT out).fset b RED_HEALTH_SPARES_FREE free).fset b RED_HEALTH_DP_OK dp).fsetB b RED_HEALTH_BIST_PASS pass
  let s4 := (s3.fset b RED_HEALTH_TIME s3.uptime).fset b LOOP_CTRL_DP_OK dp
  let s5 := s4.setLaneHg l { s4.laneHg l with parts := some parts, lockstep := false, testPassed := pass }
  s5.event 594 0 (!pass) (l.num * 0x1000000 + kind * 0x10000 + parts * 0x100 + (if pass then 1 else 0))

/-- The cells that failed a test of a lane are mapped out (R453). -/
def State.testCells (s : State) (l : Lane) (t : SelfTest) : State :=
  t.cells.foldl (fun s (k : Fin 136) => s.cellTestFail (k.val + 136 * l.num) false) s

/-- The state of a bank before the test: one that reads EMPTY but holds a verified image is VALID (R520). -/
def State.bankSeen (s : State) (l : Lane) (b : Nat) (f : Option FwImage) : State :=
  let x := s.bank l b
  match f with
  | some g => if x.state = 0 then s.setBank l b ⟨1, some g⟩ else s.setBank l b { x with image := some g }
  | none => s

/-- A bank that was to be booted does not verify (R520). -/
def State.bankFails (s : State) (l : Lane) (b : Nat) : State :=
  if (s.bank l b).state = 0 then s else s.setBank l b { s.bank l b with state := 4 }

/-- The bank a lane boots at t2 of R452, and whether one verifies. -/
def State.bootTry (s : State) (l : Lane) (t : SelfTest) : State × Bool :=
  let s1 := (s.bankSeen l 0 t.bank0).bankSeen l 1 t.bank1
  let good (b : Nat) : Bool := if b = 0 then t.bank0.isSome else t.bank1.isSome
  let b := s1.bootChoice l
  let put (s : State) (b : Nat) : State := { s with upd := { s.upd with boot := put0 s.upd.boot l.num b } }
  if good b then (put s1 b, true)
  else
    let s2 := s1.bankFails l b
    if good (1 - b) then (put s2 (1 - b), true) else (s2.bankFails l (1 - b), false)

/-! ### Slices in service (R456–R460) -/

/-- May slices run in lane `l` (R456, R460)? -/
def State.bistRuns (s : State) (l : Lane) : Bool :=
  s.fbit (laneKey l 0) BIST_CTRL_RUN_EN && (s.mode == .paired || s.mode == .wide) && s.runsCycles l && !s.fbit 0 ALLOC_ENTRY_STATUS_PFW

/-- A position hosts a logical cell with partitions. -/
def State.hosting (s : State) (p : Nat) : Bool :=
  match s.logicalOf p with
  | some n => decide (s.fget (cellB n) CYC_CELL_PARTS ≠ 0)
  | none => false

/-- Positions of a cluster still to be tested in this round. -/
def State.toTest (s : State) (c : Nat) : List Nat :=
  let out := s.fget (cluB c) CYC_CLUSTER_MAPPED_OUT
  let done := s.fget (bistB c) BIST_CLUSTER_TESTED
  (List.range 17).filter (fun j => !out.testBit j && !done.testBit j && ((s.spareOf c).isSome || !s.hosting (17 * c + j)))

/-- The next position comes under test (R457): a hosting one's local memory is copied to the spare. -/
def State.bistPick (s : State) (c : Nat) : State :=
  if s.fget (bistB c) BIST_CLUSTER_POS ≠ 0x1F then s
  else match s.toTest c with
    | [] => s
    | j :: _ =>
      let s1 := (s.fset (bistB c) BIST_CLUSTER_POS j).fset (bistB c) BIST_CLUSTER_SLICE 0
      match s.hosting (17 * c + j), s.spareOf c with
      | true, some q => ((s1.copyRange (localKey (17 * c + j)) (localKey q) 0x20000).setBist c ⟨false, true⟩).fset (cluB c) CYC_CLUSTER_SPARE_BIST 1
      | _, _ => s1

/-- The conditions of a slice (R458), from the deviations of the cluster's core supply and of CLK_FAB from nominal, 0.01 % per unit: the supply
within ±3 %, CLK_FAB within ±0.5 %. -/
def voltFits (v : BitVec 16) : Bool := decide (v.toInt.natAbs ≤ 300)
def clockFits (c : BitVec 16) : Bool := decide (c.toInt.natAbs ≤ 50)

/-- A slice is skipped (R458): counted, and event 593 once per minute with both counts. -/
def State.bistSkip (s : State) (l : Lane) (volt clock : Nat) : State :=
  let s1 := (s.fadd (laneKey l 0) BIST_SKIP_VOLT volt).fadd (laneKey l 0) BIST_SKIP_CLOCK clock
  let d := ((s1.rates.find? (fun w => w.is 593 0)).map (fun w => w.data)).getD 0
  s1.eventCounted 593 0 0 false (min 0xFFFF (d / 0x10000 + volt) * 0x10000 + min 0xFFFF (d % 0x10000 + clock)) 60000000000 1

/-- The round of a lane ends when no cluster has a position left (R456, R469). -/
def State.roundEnd (s : State) (l : Lane) : State :=
  let cs := (List.range 8).map (fun c => c + 8 * l.num)
  if cs.all (fun c => (s.toTest c).isEmpty && s.fget (bistB c) BIST_CLUSTER_POS == 0x1F) then
    let s1 := (s.fset (laneKey l 0) BIST_ROUND ((s.now - (s.lane l).roundAt) / 1000000)).setLane l { s.lane l with roundAt := s.now }
    cs.foldl (fun s c => s.fset (bistB c) BIST_CLUSTER_TESTED 0) s1
  else s

/-- A slice passes; the eighth ends the test of the position (R456, R457). -/
def State.slicePass (s : State) (c : Nat) : State :=
  let l := clusterLane c
  let n := s.fget (bistB c) BIST_CLUSTER_SLICE
  let s1 := (s.finc (laneKey l 0) BIST_PASS_CNT).setBist c { s.bist c with running := false }
  if n < 7 then s1.fset (bistB c) BIST_CLUSTER_SLICE (n + 1)
  else
    let j := s1.fget (bistB c) BIST_CLUSTER_POS
    let s2 := s1.fset (bistB c) BIST_CLUSTER_TESTED (s1.fget (bistB c) BIST_CLUSTER_TESTED ||| 2 ^ j)
    (s2.bistDrop c).roundEnd l

/-- A slice fails (R459): event 592, and the position is mapped out as a cell fault whose partitions the spare runs already. -/
def State.sliceFail (s : State) (c : Nat) : State :=
  let l := clusterLane c
  let j := s.fget (bistB c) BIST_CLUSTER_POS
  let n := s.fget (bistB c) BIST_CLUSTER_SLICE
  let p := 17 * c + j
  let b := laneKey l 0
  let s1 := (((s.finc b BIST_FAIL_CNT).fset b BIST_LAST_FAIL_PHYS p).fset b BIST_LAST_FAIL_SLICE n).fset b BIST_LAST_FAIL_PHASE 2
  let s2 := s1.event 592 0 true (p * 0x800000 + n * 0x10000 + 0x8000)
  let s3 := s2.cellTestFail p true
  ((((s3.setBist c .idle).fset (cluB c) CYC_CLUSTER_SPARE_BIST 0).fset (bistB c) BIST_CLUSTER_POS 0x1F).fset (bistB c) BIST_CLUSTER_SLICE 0).roundEnd l

end Sys2Proof.Machine
end

