-- ==== Sys2Proof/Machine/Bist.lean ====
section
/-! DEFINITION. Self-tests, runtime slices and cell faults (R305, R452–R462). -/

namespace Sys2Proof.Machine
open Sys2Proof

/-- The lane's last report found a firmware bank that verifies. -/
def State.foundFirmware (s : State) (l : Lane) : Bool :=
  match (s.laneHg l).parts with
  | some p => p.testBit 6
  | none => false

/-- A lane's start-up self-test ends (R452, R453, R462): its report is written, failing cells are mapped out, and a lane that fails goes to FAILED with
cause 0xB. With both lanes failing after a power-on the module enters SAFE (R463); the second lane of a siphon boots its old bank
(R527). -/
def execStartupSelftestDone (lane : Lane) (test : SelfTest) (s : State) : Host.Outcome State Fault Refusal :=
  .next (if s.lstate lane ≠ .starting ∨ (s.laneHg lane).testPassed then s
    else
      let cores := test.parts.getLsbD 7
      let r := if cores then s.bootTry lane test else (s, false)
      let parts := if !cores then 0 else if !r.2 then 0x80 else test.parts.toNat ||| 0x40
      let full := cores && r.2
      let dp := if full then test.dpOk.toNat else 0
      let pass := decide (parts = 0xFF) && decide (dp ≠ 0)
      let sig := ((r.1.bank lane (r.1.bootBank lane)).image.map (fun f => f.sigId.toNat)).getD 0
      let s1 := if full then (r.1.testCells lane test).fset (laneKey lane 0) BIST_SIG_ID sig else r.1
      let s2 := s1.report lane 1 (if full then test else { test with cells := [], rows := 0 }) parts dp pass
      if pass then s2
      else if s2.upd.siphon = sipSecond ∧ lane = s2.upd.first.other then
        let s3 := (s2.pendingTo lane 4).event 588 0 true (5 * 0x1000000 + s2.upd.version)
        (s3.setSiphon sipIdle).sipReset lane
      else if s2.mode = .boot ∧ s2.lstate lane.other = .failed ∧ s2.fget (4 * lane.other.num) HG_LANE_A_LAST_FAIL = 0xB then
        let bare := !s2.foundFirmware .a && !s2.foundFirmware .b
        (s2.markFailed lane 0xB).enterSafe (if bare then 2 else 1)
      else s2.laneFail lane 0xB)

/-- A full pass in SERVICE_TEST ends (R429, R430, R461, R462): its report is written; a lane that passes leaves with SERVICE, one that fails goes to
FAILED. -/
def execServicePassDone (lane : Lane) (test : SelfTest) (s : State) : Host.Outcome State Fault Refusal :=
  .next (if s.lstate lane ≠ .serviceTest then s
    else
      let kind := if s.hg.exercise.isSome ∧ s.mode = .paired then 3 else 2
      let dp := test.dpOk.toNat
      let parts := test.parts.toNat
      let pass := decide (parts / 2 % 32 = 31) && decide (dp ≠ 0)
      let s1 := (s.testCells lane test).report lane kind test parts dp pass
      if !pass then s1.laneFail lane 0xB
      else if s1.mode = .service then (if s1.hg.leaveService then s1.setLstate lane .starting else s1)
      else if kind = 3 then s1
      else s1.setLstate lane .starting)

/-- A slice falls due (R456–R458, R460). -/
def execBistSliceDue (lane : Lane) (cluster : Fin 8) (volt clock : BitVec 16) (s : State) :
    Host.Outcome State Fault Refusal :=
  let c := cluster.val + 8 * lane.num
  .next (if !s.bistRuns lane || (s.bist c).running then s
    else
      let s1 := s.stallCheck c
      let s2 := s1.bistPick c
      if s2.fget (bistB c) BIST_CLUSTER_POS = 0x1F then s2
      else if !voltFits volt then s2.bistSkip lane 1 0
      else if !clockFits clock then s2.bistSkip lane 0 1
      else s2.setBist c { s2.bist c with running := true })

/-- A slice ends (R458–R460): skipped when its conditions lapsed or power-fail warning asserted. -/
def execBistSliceDone (lane : Lane) (cluster : Fin 8) (volt clock : BitVec 16) (pass : Bool) (s : State) :
    Host.Outcome State Fault Refusal :=
  let c := cluster.val + 8 * lane.num
  .next (if !(s.bist c).running then s
    else if !voltFits volt then (s.setBist c { s.bist c with running := false }).bistSkip lane 1 0
    else if !clockFits clock then (s.setBist c { s.bist c with running := false }).bistSkip lane 0 1
    else if pass then s.slicePass c else s.sliceFail c)

/-- A cell fault (R305–R307). -/
def execCellFault (cell : Fin 272) (readable : Bool) (s : State) : Host.Outcome State Fault Refusal :=
  if s.pwr.refclkLost then .next s else
  .next (s.cellFault cell.val readable)

end Sys2Proof.Machine
end

