-- ==== Sys2Proof/Machine/Cabinet.lean ====
section
/-! DEFINITION. The cabinet bus: the status mirror and the doorbell (R56–R58, R113–R120). -/

namespace Sys2Proof.Machine
open Sys2Proof

/-- The cabinet bus interface answers: the SWITCH domain is out of reset and REFCLK runs (R58). -/
def State.cabUp (s : State) : Bool := !s.inReset 2 && !s.pwr.refclkLost

/-- The doorbell's states (R117). -/
def dbIdle : Nat := 0
def dbBusy : Nat := 1
def dbDone : Nat := 2

/-- The live STATUS word of the mirror, as a gallery-0 session would receive it (R113). -/
def State.liveStatus (s : State) : Nat :=
  match s.answering 0 with
  | some l => s.status l 0 .ok
  | none => s.status s.hg.active 0 .ok

/-- The 16-bit word `w` of the mirror or doorbell region (R113, R117). -/
def State.cabRead (s : State) (w : Nat) : Nat :=
  if w = 2 then s.liveStatus % 0x10000
  else if w = 3 then s.liveStatus / 0x10000
  else if w < 0x800 then s.mnat (mirrorFront + 2 * w) 2
  else if 0xC00 ≤ w ∧ w ≤ 0xFFD then s.mnat (doorbellRep + 2 * (w - 0xC00)) 2
  else if w = 0xFFE then s.fget 0 CAB_STATUS_DB_STATE * 0x4000 + s.dbLen
  else 0

/-- A cabinet-bus read cycle (R56, R58, R113, R115, R117). A read of word 0x000 pins the front buffer, a read of word 0x7FF
ends the pin. With the bus released the supervisor reads the pull-ups, 0xFFFF. -/
def execCabinetBusRead (w : BitVec 12) (s : State) : Host.Outcome State Fault Refusal :=
  let n := w.toNat
  .next (if !s.cabUp then s.send (.cabWord 0xFFFF)
    else
      let s1 := if n = 0 then s.fset 0 CAB_STATUS_PINNED 1 else s
      let s2 := s1.send (.cabWord (BitVec.ofNat 16 (s1.cabRead n)))
      if n = 0x7FF then s2.fset 0 CAB_STATUS_PINNED 0 else s2)

/-- A ring with a request of `len` bytes (R118): a valid one in IDLE or DONE is taken from the request buffer, and dropped at once when it is
malformed (R79) or not authentic (R86). DESIGN CHOICE (log entry 97): the reply length at word 0xFFE reads 0 from the ring on. -/
def State.ring (s : State) (len : Nat) : State :=
  let st := s.fget 0 CAB_STATUS_DB_STATE
  if st = dbBusy ∨ len < 24 ∨ len > 1448 ∨ s.fbit 0 CAB_CTRL_DOORBELL_EN = false then s.finc 0 CAB_DB_ERR
  else
    let s1 : State := { s.fset 0 CAB_STATUS_DB_STATE dbBusy with dbLen := 0, dbReqLen := len, dbReply := none }
    let d := s1.dbPacket
    if packetMalformed d then s1.dropPacket .doorbell
    else if packetSecure d && !s1.authentic d then s1.authFail .doorbell
    else s1

/-- A write of 0 to word 0xFFE releases a reply; in BUSY it is ignored and counted (R118). DESIGN CHOICE (log entry 98): in IDLE it changes nothing and
is not counted, and the reply length reads 0 after a release (log entry 97). -/
def State.dbRelease (s : State) : State :=
  let st := s.fget 0 CAB_STATUS_DB_STATE
  if st = dbDone then { s.fset 0 CAB_STATUS_DB_STATE dbIdle with dbLen := 0 }
  else if st = dbBusy then s.finc 0 CAB_DB_ERR
  else s

/-- A cabinet-bus write cycle (R57, R117, R118): the mirror ignores it, the request buffer takes it unless the doorbell is
BUSY, word 0xFFE rings or releases. -/
def execCabinetBusWrite (w : BitVec 12) (v : BitVec 16) (s : State) : Host.Outcome State Fault Refusal :=
  let n := w.toNat
  .next (if !s.cabUp then s
    else if 0x800 ≤ n ∧ n ≤ 0xBFF then
      if s.fget 0 CAB_STATUS_DB_STATE = dbBusy then s.finc 0 CAB_DB_ERR
      else s.mwrite (doorbellReq + 2 * (n - 0x800)) (leBytes 2 v.toNat)
    else if n = 0xFFE then if v = 0 then s.dbRelease else s.ring v.toNat
    else s)

/-- 100 µs after it began a mirror pin ends (R115). -/
def execMirrorPinTimeout (s : State) : Host.Outcome State Fault Refusal :=
  .next (s.fset 0 CAB_STATUS_PINNED 0)

/-- A write of a length to word 0xFFE (R118): with a valid length, in IDLE or DONE, the request is taken. -/
def execDoorbellRing (len : BitVec 16) (s : State) : Host.Outcome State Fault Refusal :=
  .next (if !s.cabUp then s else s.ring len.toNat)

/-- The reply is written to the reply buffer and the doorbell moves to DONE (R78, R117, R118). -/
def execDoorbellReplyReady (s : State) : Host.Outcome State Fault Refusal :=
  .next (match s.dbReply with
    | some d =>
      if s.fget 0 CAB_STATUS_DB_STATE ≠ dbBusy then s
      else
        let s1 : State := { s.mwrite doorbellRep d with dbLen := d.length, dbReply := none }
        s1.fset 0 CAB_STATUS_DB_STATE dbDone
    | none => s)

/-- A write of 0 to word 0xFFE (R118). -/
def execDoorbellRelease (s : State) : Host.Outcome State Fault Refusal :=
  .next (if !s.cabUp then s else s.dbRelease)

/-- A write to the request buffer or word 0xFFE while BUSY is ignored and counted (R118). -/
def execDoorbellWriteWhileBusy (s : State) : Host.Outcome State Fault Refusal :=
  .next (if s.cabUp ∧ s.fget 0 CAB_STATUS_DB_STATE = dbBusy then s.finc 0 CAB_DB_ERR else s)

/-- The swap that falls due at a tick (R115), in every mode: skipped and counted while the front buffer is pinned or the back buffer is not
complete. In HOLD and SAFE no lane fills the back buffer (R116). -/
def State.mirrorSwap (s : State) : State :=
  if s.fbit 0 CAB_CTRL_MIRROR_EN = false ∨ s.inReset 2 then s
  else if s.fbit 0 CAB_STATUS_PINNED ∨ s.backDone = false then s.finc 0 CAB_SKIPPED_SWAPS
  else
    let back := s.mbytes mirrorBack 4096
    { s.mwrite mirrorFront back with backDone := false }

end Sys2Proof.Machine
end

