-- ==== Sys2Proof/Machine/Can.lean ====
section
/-! DEFINITION. The events of the CAN buses (R381–R401). Operations that are register writes stand in `RegRows`. -/

namespace Sys2Proof.Machine
open Sys2Proof

/-- 11 consecutive recessive bits end the integration (R386). -/
def execCanIntegrationDone (ctl : Fin 4) (s : State) : Host.Outcome State Fault Refusal :=
  .next (if s.canRuns ctl.val && s.canState ctl.val == cIntegrating then s.fset (canB ctl.val) CAN_STATUS_STATE cActive else s)

/-- A bus error (R386): the counters, the last error, and perhaps the state. -/
def execCanBusError (ctl : Fin 4) (kind : Fin 7) (tec : BitVec 10) (rec : BitVec 9) (s : State) : Host.Outcome State Fault Refusal :=
  let n := ctl.val
  .next (if s.canRuns n && s.canState n != cIntegrating && s.canState n != cBusOff then
      ((s.finc (canB n) CAN_ERRFRAME_CNT).fset (canB n) CAN_ERR_LAST_ERR kind.val).canCounts n tec.toNat rec.toNat
    else s)

/-- 128 occurrences of 11 recessive bits (R386). -/
def execCanRecoveryDone (ctl : Fin 4) (s : State) : Host.Outcome State Fault Refusal :=
  let n := ctl.val
  .next (if s.canRuns n && s.canState n == cRecovering then
      (((s.fset (canB n) CAN_STATUS_STATE cActive).fset (canB n) CAN_ERR_TEC 0).fset (canB n) CAN_ERR_REC 0).canStateEvent n
    else s)

/-- A controller that hears the bus. -/
def State.canHears (s : State) (n : Nat) : Bool := s.canRuns n && (s.canState n == cActive || s.canState n == cPassive)

/-- Does receive object o take a frame (R389)? -/
def State.canMatch (s : State) (n o : Nat) (xtd : Bool) (id : Nat) : Bool :=
  let m := s.fget (canObjB n o) CAN_OBJ_MASK
  s.fget (canObjB n o) CAN_OBJ_STAT_STATE != 0 && !s.fbit (canObjB n o) CAN_OBJ_ID_DIR && s.fbit (canObjB n o) CAN_OBJ_ID_XTD == xtd &&
    (id &&& m) == (s.fget (canObjB n o) CAN_OBJ_ID &&& m)

/-- A signal of the object that the frame's `len` bytes hold only in part keeps its value from before; one they hold wholly is read from the
payload (R392). Answers the kept values and whether a signal fell short. -/
def State.sigKeep (s : State) (n o len : Nat) : Tab Nat × Bool :=
  ((List.range 512).filter (fun d => s.sigUsed n d && s.fget (canSigB n d) CAN_SIG_BIND_OBJECT == o)).foldl
    (fun (acc : Tab Nat × Bool) d =>
      let k := 512 * n + d
      if (s.sigField n d).all (fun b => b < 8 * len) then (acc.1.filter (fun e => e.1 != k), acc.2)
      else if acc.1.any (fun e => e.1 == k) then (acc.1, true)
      else (tabInsert k (s.sigNow n d) acc.1, true)) (s.can.keep, false)

/-- A receive object takes a frame (R390, R392). -/
def State.canTake (s : State) (n o : Nat) (dlc : Nat) (bytes : List Nat) : State :=
  let b := canObjB n o
  let x := s.canObj n o
  let r := s.sigKeep n o bytes.length
  let s0 : State := { s with can := { s.can with keep := r.1 } }
  let s1 := (bytes.zip (List.range bytes.length)).foldl (fun s e => s.setCanByte n o e.2 e.1) s0
  let s2 := (s1.fset (canB n) CAN_RX_CNT (s1.fget (canB n) CAN_RX_CNT + 1)).setCanObj n o { x with fresh := true }
  let s3 := (((s2.fset b CAN_OBJ_STAT_STALE 0).fset b CAN_OBJ_STAT_NEVER 0).fset b CAN_OBJ_STAT_DLC_LAST dlc).fset b
    CAN_OBJ_STAT_FRAMES (s2.fget b CAN_OBJ_STAT_FRAMES + 1)
  let s4 := if r.2 then s3.fset b CAN_OBJ_STAT_SHORT 1 else s3
  if x.fresh then
    ((s4.fset b CAN_OBJ_STAT_LOST 1).finc (canB n) CAN_LOST_CNT).eventCounted (canSrc n 3) (128 * n + o) (s4.canOwner n o) false
      (o * 0x1000000) 1000000000 1
  else s4

/-- A data frame has become valid (R388–R390, R398): a wrapping counter counts it, the lowest matching object takes it. -/
def execCanFrameReceived (ctl : Fin 4) (xtd : Bool) (ident : BitVec 29) (fdf : Bool) (dlc : BitVec 4) (data : List Byte) (tec : BitVec 10)
    (rec : BitVec 9) (s : State) : Host.Outcome State Fault Refusal :=
  let n := ctl.val
  let bytes := (data.take (dlcBytes fdf dlc.toNat)).map (fun x => x.toNat)
  .next (if !s.canHears n then s
    else if fdf && !s.fbit (canB n) CAN_CTRL_FD_EN then
      ((s.finc (canB n) CAN_ERRFRAME_CNT).fset (canB n) CAN_ERR_LAST_ERR 2).canCounts n tec.toNat rec.toNat
    else
      let s1 := s.canCounts n tec.toNat rec.toNat
      match (List.range 128).find? (fun o => s1.canMatch n o xtd ident.toNat) with
      | none => s1.finc (canB n) CAN_NOMATCH_CNT
      | some o =>
        if s1.fget (canObjB n o) CAN_OBJ_STAT_STATE = 2 then
          (s1.finc (canB n) CAN_RECONF_DROP).eventCounted (canSrc n 4) (128 * n + o) (s1.canOwner n o) false (o * 0x1000000) 1000000000 1
        else s1.canTake n o dlc.toNat bytes)

/-- A remote frame is acknowledged and counted (R381). -/
def execCanRemoteFrame (ctl : Fin 4) (s : State) : Host.Outcome State Fault Refusal :=
  .next (if s.canHears ctl.val then s.finc (canB ctl.val) CAN_REMOTE_CNT else s)

/-- A receive object has heard nothing for TIMEOUT ms (R390). -/
def execCanRxTimeout (ctl : Fin 4) (obj : Fin 128) (s : State) : Host.Outcome State Fault Refusal :=
  let n := ctl.val
  let o := obj.val
  let t := 256 * s.fget (canObjB n o) CAN_OBJ_CTL_DIV + s.fget (canObjB n o) CAN_OBJ_CTL_PHASE
  .next (if s.canRuns n && s.canActive n o false && t != 0 && !s.fbit (canObjB n o) CAN_OBJ_STAT_STALE then
      (s.fset (canObjB n o) CAN_OBJ_STAT_STALE 1).eventLimited (canSrc n 2) (128 * n + o) (s.canOwner n o) true (o * 0x1000000 + t) 1000000000
    else s)

/-- May the controller send (R386, R387)? -/
def State.canSends (s : State) (n : Nat) : Bool := s.canHears n && s.canMode n == 0

/-- The frame the controller offers has been sent (R385, R388, R394, R395, R397). -/
def execCanFrameSent (ctl : Fin 4) (tdc : BitVec 16) (tec : BitVec 10) (rec : BitVec 9) (s : State) : Host.Outcome State Fault Refusal :=
  let n := ctl.val
  .next (if !s.canSends n then s
    else match s.canHead n with
    | none => s
    | some o =>
      let b := canObjB n o
      let x := s.canObj n o
      let fd := s.fbit b CAN_OBJ_CTL_FDF && s.fbit (canB n) CAN_CTRL_FD_EN
      let brs := fd && s.fbit b CAN_OBJ_CTL_BRS && s.fbit (canB n) CAN_CTRL_BRS_EN
      let dlc := s.fget b CAN_OBJ_CTL_DLC
      let s1 := s.send (.can n o (s.fget b CAN_OBJ_ID) dlc (s.canBytes n o (dlcBytes fd dlc)))
      let s2 := (s1.canSetPending n o false).setCanObj n o { x with attempts := 0, changed := false, repeatDue := false }
      let s3 := (s2.fset (canB n) CAN_TX_CNT (s2.fget (canB n) CAN_TX_CNT + 1)).fset b CAN_OBJ_STAT_FRAMES (s2.fget b CAN_OBJ_STAT_FRAMES + 1)
      let s4 := (s3.fset b CAN_OBJ_STAT_ATTEMPTS (min 15 (x.attempts + 1))).fset b CAN_OBJ_STAT_DLC_LAST dlc
      let s5 := if x.repeatDue then s4.finc (canB n) CAN_REPEAT_CNT else s4
      let s6 := if brs && s.fbit (canB n) CAN_CTRL_TDC_EN then
          (let s7 := s5.fset (canB n) CAN_TDC_MEAS_DELAY (min 127 tdc.toNat)
           if 127 < tdc.toNat then s7.fset (canB n) CAN_STATUS_TDC_SAT 1 else s7)
        else s5
      s6.canCounts n tec.toNat rec.toNat)

/-- The frame the controller offers has lost arbitration or met an error (R395). -/
def execCanArbitrationLost (ctl : Fin 4) (s : State) : Host.Outcome State Fault Refusal :=
  let n := ctl.val
  .next (if !s.canSends n then s
    else match s.canHead n with
    | none => s
    | some o =>
      let b := canObjB n o
      let x := s.canObj n o
      let k := x.attempts + 1
      if k ≤ s.fget b CAN_OBJ_CTL_RETRY then s.setCanObj n o { x with attempts := k }
      else
        let s1 := ((s.setCanObj n o { x with attempts := 0 }).canSetPending n o false).fset b CAN_OBJ_STAT_TX_FAILED 1
        (s1.fset b CAN_OBJ_STAT_ATTEMPTS (min 15 k)).event (canSrc n 1) (s.canOwner n o) true (o * 0x1000000 + min 15 k * 0x1000 +
          s.fget (canB n) CAN_ERR_LAST_ERR))

/-- Does an object that a release has reached repeat by itself (R397)? -/
def State.canRepeats (s : State) (n o : Nat) : Bool :=
  s.canRuns n && s.mode != .safe && !s.galShed (s.canOwner n o) && s.canActive n o true && s.fbit (canObjB n o) CAN_OBJ_CTL_REPEAT &&
    s.fget (canObjB n o) CAN_OBJ_CTL_TXMODE == 1 && (s.canObj n o).relAt != 0

/-- 1.5 × DIV × T without a release (R397). -/
def execCanRepeatStart (ctl : Fin 4) (obj : Fin 128) (s : State) : Host.Outcome State Fault Refusal :=
  let n := ctl.val
  let o := obj.val
  .next (if s.canRepeats n o && !s.fbit (canObjB n o) CAN_OBJ_STAT_REPEATING && decide (3 * s.canDiv n o * s.periodNs ≤ 2 * (s.now - (s.canObj n o).relAt)) then
      ((s.fset (canObjB n o) CAN_OBJ_STAT_REPEATING 1).canPend n o true).eventLimited (canSrc n 7) (128 * n + o) (s.canOwner n o) false
        (o * 0x1000000 + s.tickNo % 0x1000000) 1000000000
    else s)

/-- DIV × T after the last repetition (R397). -/
def execCanRepeatSend (ctl : Fin 4) (obj : Fin 128) (s : State) : Host.Outcome State Fault Refusal :=
  .next (if s.canRepeats ctl.val obj.val && s.fbit (canObjB ctl.val obj.val) CAN_OBJ_STAT_REPEATING then s.canPend ctl.val obj.val true else s)

/-- A dominant state held for 4.0 ms is cut off (R382). -/
def execCanDominantTimeout (ctl : Fin 4) (s : State) : Host.Outcome State Fault Refusal :=
  .next (if s.isolated .can then s else (s.fset (canB ctl.val) CAN_STATUS_DOM_TIMEOUT 1).event (canSrc ctl.val 6) 0 true 1)

/-- The isolated supply has been out of regulation for 1 ms (R405). -/
def execCanTransceiverSupply (ctl : Fin 4) (s : State) : Host.Outcome State Fault Refusal :=
  .next (if s.isolated .can then s else s.event (canSrc ctl.val 6) 0 true 2)

/-- A changed MODE takes effect at bus idle (R387). -/
def execCanModeApply (ctl : Fin 4) (s : State) : Host.Outcome State Fault Refusal :=
  .next (if s.isolated .can then s else s.canModeTake ctl.val)

end Sys2Proof.Machine
end

