-- ==== Sys2Proof/Machine/CkvOps.lean ====
section
/-! DEFINITION. The check-value units CKV0–CKV3 of a lane (R508–R515). -/

namespace Sys2Proof.Machine
open Sys2Proof

/-- The algorithm a unit is set to. -/
def State.ckvAlgo (s : State) (b : Nat) : CrcAlgo := crcAlgo (s.fget b CKV_CFG_ALGO)

/-- A unit's running register. -/
def State.ckvValue (s : State) (b : Nat) : Nat := s.fget b CKV_VALUE_LO + 0x100000000 * s.fget b CKV_VALUE_HI

def State.ckvSet (s : State) (b v : Nat) : State := (s.fset b CKV_VALUE_LO v).fset b CKV_VALUE_HI (v / 0x100000000)

/-- Bytes are fed into a unit (R509). -/
def State.ckvFeed (s : State) (b : Nat) (bs : List Byte) : State := s.ckvSet b (crcFeed (s.ckvAlgo b) (s.ckvValue b) bs)

/-- The eight fold bytes (R509). -/
def State.ckvFoldBytes (s : State) (b : Nat) : List Byte := leBytes 4 (s.fget b CKV_FOLD_LO) ++ leBytes 4 (s.fget b CKV_FOLD_HI)

/-- `RESULT` (R508). -/
def State.ckvResult (s : State) (b : Nat) : Nat := s.ckvValue b ^^^ (s.ckvAlgo b).xorout

/-- The end of a unit's space (R510). -/
def ckvSpace : Nat → Nat
  | 0 => 0x80000000
  | 1 => 0x100000000
  | _ => 0x4000000

/-- The end of the range of a scan: that of its last chunk, cut so that LENGTH bytes are fed. -/
def State.ckvEnd (s : State) (b : Nat) : Nat :=
  let a := s.fget b CKV_ADDR
  let n := s.fget b CKV_LENGTH
  let c := s.fget b CKV_CHUNK
  if c = 0 then a + n else a + (n - 1) / c * s.fget b CKV_STRIDE + ((n - 1) % c + 1)

/-- Is a START refused (R510)? -/
def State.ckvRefused (s : State) (b : Nat) : Bool :=
  let sp := s.fget b CKV_CFG_SPACE
  let n := s.fget b CKV_LENGTH
  let c := s.fget b CKV_CHUNK
  decide (sp = 3) || decide (n = 0) || decide (n > 16777216) || (decide (c ≠ 0) && decide (s.fget b CKV_STRIDE < c)) ||
    decide (s.ckvEnd b > ckvSpace sp) ||
    (decide (sp = 1) && (decide (s.fget b CKV_ADDR % 4 ≠ 0) || decide (c % 4 ≠ 0) || decide (s.fget b CKV_STRIDE % 4 ≠ 0)))

/-- A scan ends: it feeds the FOLD bytes before its data and, when it completes, after them, as FOLD_AUTO says (R509, R511). VALUE has kept what it
held at the start (R513), so the whole is fed here. -/
def State.ckvScanned (s : State) (b : Nat) (fed : List Byte) (whole : Bool) : State :=
  let f := s.fget b CKV_CFG_FOLD_AUTO
  let pre := if f % 2 = 1 then s.ckvFoldBytes b else []
  let post := if whole && decide (f ≥ 2) then s.ckvFoldBytes b else []
  ((s.ckvFeed b (pre ++ fed ++ post)).fset b CKV_POS fed.length).fset b CKV_STATUS_BUSY 0

/-- A scan stops early with a cause (R511, R516). -/
def State.ckvStop (s : State) (l : Lane) (i code addr : Nat) (fed : List Byte) : State :=
  let b := ckvB l i
  let s1 := (((s.ckvScanned b fed false).fset b CKV_STATUS_ERR 1).fset b CKV_STATUS_ERR_CODE code).fset b CKV_FAULT_ADDR addr
  if code = 5 then s1 else s1.eventLimited 632 (4 * l.num + i) 0 false (l.num * 0x80000000 + i * 0x10000000 + code * 0x1000000 + addr % 0x1000000) 1000000000

/-- The address a scan reads after `n` bytes (R510). -/
def State.ckvAt (s : State) (b n : Nat) : Nat :=
  let c := s.fget b CKV_CHUNK
  s.fget b CKV_ADDR + (if c = 0 then n else n / c * s.fget b CKV_STRIDE + n % c)

/-- Two free words as a running register of the unit's width. -/
def State.ckvFree (s : State) (b : Nat) : Nat × State :=
  let x := s.free
  let y := x.2.free
  ((x.1.toNat + 0x100000000 * y.1.toNat) % 2 ^ (s.ckvAlgo b).width, y.2)

/-- ABORT stops a running scan with ERR_CODE 0x5 (R511). How many bytes it had fed by then, and so what VALUE holds, is not given: free values. -/
def State.ckvAbort (s : State) (b : Nat) : State :=
  let v := s.ckvFree b
  let n := v.2.free
  let pos := n.1.toNat % (s.fget b CKV_LENGTH + 1)
  let s1 := ((n.2.ckvSet b v.1).fset b CKV_POS pos).fset b CKV_STATUS_BUSY 0
  ((s1.fset b CKV_STATUS_ERR 1).fset b CKV_STATUS_ERR_CODE 5).fset b CKV_FAULT_ADDR (s1.ckvAt b pos)

/-- INIT loads the algorithm's INIT (R509). -/
def State.ckvInit (s : State) (b : Nat) : State := s.ckvSet b (s.ckvAlgo b).init

/-- FOLD feeds the fold bytes (R509). -/
def State.ckvFold (s : State) (b : Nat) : State := s.ckvFeed b (s.ckvFoldBytes b)

/-- START begins a scan, or is refused (R510); the answer tells whether it began. -/
def State.ckvStart (s : State) (b : Nat) : State × Bool :=
  if s.ckvRefused b then ((s.fset b CKV_STATUS_ERR 1).fset b CKV_STATUS_ERR_CODE 1, false)
  else ((s.fset b CKV_STATUS_BUSY 1).fset b CKV_POS 0, true)

/-- A write of `CKVi_CMD`: INIT first, then START, then ABORT; FOLD before a scan (R509–R514). -/
def State.ckvCmd (s : State) (l : Lane) (i v : Nat) : State × Res :=
  let b := ckvB l i
  if s.fbit b CKV_STATUS_BUSY ∧ (v.testBit 0 ∨ v.testBit 1 ∨ v.testBit 3) then (s, .busy)
  else
    let s1 := if v.testBit 0 then s.ckvInit b else s
    let s2 := if v.testBit 3 then s1.ckvFold b else s1
    let r := if v.testBit 1 then s2.ckvStart b else (s2, true)
    let s3 := if v.testBit 2 ∧ r.1.fbit b CKV_STATUS_BUSY then r.1.ckvAbort b else r.1
    (s3, if r.2 then .ok else .range)

end Sys2Proof.Machine
end

