-- ==== Sys2Proof/Machine/Ckv.lean ====
section
/-! DEFINITION. What a scan of a check-value unit reads, and how it ends (R510, R511). -/

namespace Sys2Proof.Machine
open Sys2Proof

/-- A scan has fed all its bytes, LENGTH of them (R510, R511). -/
def execCkvScanComplete (lane : Lane) (unit : Fin 4) (fed : List Byte) (s : State) : Host.Outcome State Fault Refusal :=
  let b := ckvB lane unit.val
  .next (if s.fbit b CKV_STATUS_BUSY ∧ fed.length = s.fget b CKV_LENGTH then (s.ckvScanned b fed true).fset b CKV_STATUS_DONE 1 else s)

/-- A scan meets a failing access, or its lane stops (R511). -/
def execCkvScanFault (lane : Lane) (unit : Fin 4) (code : Fin 16) (fed : List Byte) (addr : BitVec 32) (s : State) :
    Host.Outcome State Fault Refusal :=
  .next (if s.fbit (ckvB lane unit.val) CKV_STATUS_BUSY then s.ckvStop lane unit.val code.val addr.toNat fed else s)

end Sys2Proof.Machine
end

