-- ==== Sys2Proof/Machine/Lanes.lean ====
section
/-! DEFINITION. Lanes, fail-over and the headgate: heartbeats, switch-overs, copies, starts, exercises, disagreements and modes
(chapter "Lanes, fail-over and the headgate"). -/

namespace Sys2Proof.Machine
open Sys2Proof

/-! ### Failures and heartbeats -/

/-- A direct cause of R417: 2 watchdog, 3 lockstep, 4 memory, 5 supply or clock. -/
def execLaneDirectFailure (lane : Lane) (cause : Fin 16) (s : State) : Host.Outcome State Fault Refusal :=
  if s.pwr.refclkLost then .next s else
  .next (if 2 ≤ cause.val ∧ cause.val ≤ 5 ∧ s.procRuns lane then s.laneFail lane cause.val else s)

/-- The first cycle of a lane that has not been released. -/
def State.unreleased (s : State) (l : Lane) : Nat :=
  let c := s.cyc l
  match c.phase with
  | .computing | .done | .committing => c.n
  | _ => (c.n + 1) % 0x100000000

/-- The lane's watchdog (R285, R416): cycle n has not been released by tick n + 4; the lane stops, and event 513 is raised. The failure is decided as a
direct cause. -/
def execLaneWatchdog (lane : Lane) (s : State) : Host.Outcome State Fault Refusal :=
  if s.pwr.refclkLost then .next s else
  let n := s.unreleased lane
  let k := cyclesAfter s.tickNo n
  .next (if s.runsCycles lane && decide (4 ≤ k) && decide (k < 0x80000000) then
      (s.laneStop lane).event 513 0 true (lane.num * 0x1000000 + n % 0x1000000)
    else s)

/-- The miss counter of a lane's path (R438). -/
def missF : Lane → Bool → Fld
  | .a, false => HG_HB_MISS_A_WIRE
  | .a, true => HG_HB_MISS_A_CULV
  | .b, false => HG_HB_MISS_B_WIRE
  | .b, true => HG_HB_MISS_B_CULV

/-- A path of a lane becomes impaired or is restored (R419): event 577. -/
def State.pathMark (s : State) (l : Lane) (culv imp : Bool) : State :=
  let h := s.laneHg l
  let s1 := s.setLaneHg l (if culv then { h with culvImp := imp, culvGood := 0 } else { h with wireImp := imp, wireGood := 0 })
  s1.event 577 0 imp (l.num * 0x1000000 + (if culv then 0x10000 else 0) + (if imp then 1 else 0))

/-- A miss on a path of a lane (R418, R419, R438). -/
def State.pathMiss (s : State) (l : Lane) (culv : Bool) : State :=
  if s.inReset l.dom.bit then s
  else
    let h := s.laneHg l
    let h1 : LaneHg := if culv then { h with culvMiss := h.culvMiss + 1, culvGood := 0 } else { h with wireMiss := h.wireMiss + 1, wireGood := 0 }
    let s1 := (s.setLaneHg l h1).finc 0 (missF l culv)
    let mine := if culv then h1.culvMiss else h1.wireMiss
    let other := if culv then h1.wireMiss else h1.culvMiss
    let imp := if culv then h1.culvImp else h1.wireImp
    if mine ≥ 3 ∧ other ≥ 3 then s1.laneFail l 1
    else if mine ≥ 3 ∧ other = 0 ∧ !imp then s1.pathMark l culv true
    else s1

/-- A heartbeat on a path of a lane (R418, R419): 4,000 in a row restore an impaired path. -/
def State.pathBeat (s : State) (l : Lane) (culv : Bool) : State :=
  let h := s.laneHg l
  let h1 : LaneHg := if culv then { h with culvMiss := 0, culvGood := h.culvGood + 1 } else { h with wireMiss := 0, wireGood := h.wireGood + 1 }
  let s1 := s.setLaneHg l h1
  let n := if culv then h1.culvGood else h1.wireGood
  let imp := if culv then h1.culvImp else h1.wireImp
  let s2 := if imp && n ≥ 4000 then s1.pathMark l culv false else s1
  -- the other path may have missed three while this one keeps receiving
  let g := s2.laneHg l
  if culv then (if g.wireMiss ≥ 3 ∧ !g.wireImp then s2.pathMark l false true else s2)
  else if g.culvMiss ≥ 3 ∧ !g.culvImp then s2.pathMark l true true else s2

/-- The partner's input changes (R420): event 584. -/
def State.partnerMark (s : State) (b ok : Bool) : State :=
  let f := if b then HG_HB_PB_OK else HG_HB_PA_OK
  if s.fbit 0 f = ok then s
  else
    let s1 := s.fsetB 0 f ok
    s1.event 584 0 false (2 * s1.fget 0 HG_HB_PB_OK + s1.fget 0 HG_HB_PA_OK)

/-- A miss on a partner input (R420). -/
def State.partnerMiss (s : State) (b : Bool) : State :=
  let n := (if b then s.hg.pbMiss else s.hg.paMiss) + 1
  let s1 : State := { s with hg := if b then { s.hg with pbMiss := n } else { s.hg with paMiss := n } }
  if n ≥ 3 then s1.partnerMark b false else s1

/-- A pulse on a partner input (R420). -/
def State.partnerBeat (s : State) (b : Bool) : State :=
  let s1 : State := { s with hg := if b then { s.hg with pbMiss := 0 } else { s.hg with paMiss := 0 } }
  s1.partnerMark b true

/-- A path misses a heartbeat (R418–R420). -/
def execHeartbeatMiss (path : HbPath) (s : State) : Host.Outcome State Fault Refusal :=
  if s.pwr.refclkLost then .next s else
  .next (match path with
    | .wire l => s.pathMiss l false
    | .culvert l => s.pathMiss l true
    | .partnerA => s.partnerMiss false
    | .partnerB => s.partnerMiss true)

/-- A heartbeat arrives (R418–R420). -/
def execHeartbeatReceived (path : HbPath) (s : State) : Host.Outcome State Fault Refusal :=
  if s.pwr.refclkLost then .next s else
  .next (match path with
    | .wire l => s.pathBeat l false
    | .culvert l => s.pathBeat l true
    | .partnerA => s.partnerBeat false
    | .partnerB => s.partnerBeat true)

/-- An impaired path is restored (R419). -/
def execHeartbeatPathRestored (path : HbPath) (s : State) : Host.Outcome State Fault Refusal :=
  if s.pwr.refclkLost then .next s else
  .next (match path with
    | .wire l => if (s.laneHg l).wireImp then s.pathMark l false false else s
    | .culvert l => if (s.laneHg l).culvImp then s.pathMark l true false else s
    | .partnerA => s
    | .partnerB => s)

/-- A partner input is lost or returns (R420). -/
def execPartnerHeartbeatChange (input : Bus) (ok : Bool) (s : State) : Host.Outcome State Fault Refusal :=
  if s.pwr.refclkLost then .next s else
  .next (s.partnerMark (decide (input = .b)) ok)

/-! ### Switch-over and copy -/

/-- The takeover tick (R421, R424, R527). In a siphon the first lane takes over only when it is ready, and its window starts. -/
def execTakeoverTick (s : State) : Host.Outcome State Fault Refusal :=
  if s.pwr.refclkLost then .next s else
  .next (match s.hg.takeover with
    | none => s
    | some t =>
      let p := t.lane.other
      let first := decide (s.upd.siphon = sipFirst ∧ p = s.upd.first)
      match s.mode, s.lstate p with
      | .paired, .standby | .paired, .syncing =>
        if first then (if s.current then (s.takePaired t).windowStart p else s.noLane) else s.takePaired t
      | .wide, .wideRun =>
        if first then ((s.galReturn p (s.homeGals p) true).takeWide t).windowStart p else s.takeWide t
      | _, _ => s)

/-- A planned handover at tick n + 1 (R425, R430). -/
def execPlannedHandover (s : State) : Host.Outcome State Fault Refusal :=
  if s.pwr.refclkLost then .next s else
  .next (match s.hg.handover, s.mode with
    | some c, .paired =>
      if !(s.current && s.copyFresh) then s
      else if c = 8 then
        let o := s.hg.active
        let s1 := s.handover 8 .serviceTest true true
        let s2 := s1.setLaneHg o { s1.laneHg o with testPassed := false }
        { s2 with hg := { s2.hg with exercise := some (4, o) } }
      else
        let s1 := s.handover c .standby true true
        { s1 with hg := { s1.hg with unplaced := false } }
    | _, _ => s)

/-- The copy of a cycle completes (R415, R416): a STANDBY is current again. -/
def execStateCopyComplete (dirty time crc resent : BitVec 16) (s : State) : Host.Outcome State Fault Refusal :=
  if s.pwr.refclkLost then .next s else
  let l := s.hg.active
  let p := l.other
  .next (if !s.copyCan then s
    else match s.lstate p with
      | .standby | .syncing =>
        let s1 := s.copyApply l p
        let s2 := ((s1.fset (laneKey l 0) RED_COPY_LAST_DIRTY dirty.toNat).fset (laneKey l 0) RED_COPY_LAST_TIME time.toNat).fmax (laneKey l 0) RED_COPY_MAX_DIRTY dirty.toNat
        let s3 := (s2.fmax (laneKey l 0) RED_COPY_MAX_TIME time.toNat).copyFrames l crc.toNat resent.toNat
        if s3.lstate p = .standby then { s3 with hg := { s3.hg with copyStale := false } } else s3.syncStep l
      | _ => s)

/-- A copy cannot complete (R416): it is discarded and counted. -/
def execStateCopyDiscard (crc resent : BitVec 16) (s : State) : Host.Outcome State Fault Refusal :=
  if s.pwr.refclkLost then .next s else
  let l := s.hg.active
  .next (if s.mode = .paired ∧ s.lstate l = .active then
      ((s.finc (laneKey l 0) RED_COPY_DISCARD).copyFrames l crc.toNat resent.toNat).staleCheck
    else s)

/-- A culvert link goes down or finishes training (R416, R439). -/
def execCulvertLinkChange (lane : Lane) (up : Bool) (s : State) : Host.Outcome State Fault Refusal :=
  if s.pwr.refclkLost then .next s else
  let h := s.hg
  let s1 : State := { s with hg := match lane with
    | .a => { h with linkA := up }
    | .b => { h with linkB := up } }
  .next s1.staleCheck

/-! ### Bringing a lane back -/

/-- The impairments of a lane that R413 counts. -/
def State.impairments (s : State) (l : Lane) : Nat :=
  let h := s.laneHg l
  ((List.range 8).filter (fun c => !s.fbit (cluB (c + 8 * l.num)) CYC_CLUSTER_SPARE_FREE)).length +
  ((List.range 4).filter (fun d => !(s.fget (laneKey l 0) LOOP_CTRL_DP_OK).testBit d)).length +
  (if h.wireImp then 1 else 0) + (if h.culvImp then 1 else 0)

/-- The active lane of a joint start (R413, R433). -/
def State.firstChoice (s : State) : Lane :=
  match s.hg.startChoice with
  | some l => l
  | none => if s.impairments .b < s.impairments .a then .b else .a

/-- A lane that joins a lane running in WIDE (R412, R427): its executor waits for its first tick, and galleries still granted to it start. -/
def State.wideJoin (s : State) (l : Lane) : State :=
  let s1 := (((s.setLaneHg l { s.laneHg l with state := .wideRun, waiting := false }).startLane l kHot).bistRestart l).lumStart l
  s1.galsStart l ((List.range 64).filter (fun g => s1.galEn g && s1.grant g == some l && !s1.galShed g))

/-- A lane that joins an active lane in PAIRED (R412, R426, R524). -/
def State.pairedJoin (s : State) (l : Lane) : State :=
  let s1 := (s.setLaneHg l { s.laneHg l with state := .syncing, waiting := false }).syncRest (s.syncKib l.other)
  if s.upd.siphon = sipFirst ∧ l = s.upd.first ∧ !s.sameFormat then
    (s1.setLstate l .standby).event 580 0 false (l.num * 0x1000000 + 0x300000)
  else s1

/-- The second lane of a siphon is back (t7, R523): its new bank is confirmed and the siphon ends. -/
def State.sipEnd (s : State) (l : Lane) : State :=
  if s.upd.siphon = sipSecond ∧ l = s.upd.first.other then (s.confirmBank l).setSiphon sipIdle else s

/-- What the end of STARTING makes of a lane (R412, R426, R429, R435): where no lane is ACTIVE in PAIRED it waits for the next tick, at which grants may
change (R21). -/
def State.startEnd (s : State) (l : Lane) : State :=
  let o := l.other
  let wait := s.setLaneHg l { s.laneHg l with waiting := true }
  match s.mode with
  | .boot | .wide => wait
  | .paired =>
    if s.lstate o = .active then s.pairedJoin l
    else match s.hg.takeover with
      | some t => if t.lane = o then s.setLstate l .syncing else wait
      | none => wait
  | .hold =>
    if s.hg.holdCause ≠ 3 then s
    else if s.image.isNone then
      (({ s with hg := { s.hg with holdCause := 0 } } : State).enterMode .boot).setLaneHg l { s.laneHg l with waiting := true }
    else if s.hg.heldMode = .service then
      (({ s with hg := { s.hg with holdCause := 0 } } : State).setLstate l .serviceTest).enterMode .service
    else wait
  | .service => if s.hg.leaveService then wait else s.setLaneHg l { s.laneHg l with state := .serviceTest, testPassed := false }
  | .safe => s

/-- A lane waits for a tick to start at. -/
def State.waits (s : State) (l : Lane) : Bool := (s.laneHg l).waiting && decide (s.lstate l = .starting)

/-- The module's first image, which the lanes found in their flash, is in force from the tick at which a lane starts; an image committed in SERVICE
from the tick at which SERVICE is left (R278, R528). -/
def State.imageUp (s : State) : State :=
  match s.image, s.upd.flashProg, s.upd.prog with
  | none, some i, _ => s.imageForce i
  | some _, _, some (i, _) => if s.mode = .service then s.imageSwap i else s
  | _, _, _ => s

/-- A waiting lane joins the lane that runs. -/
def State.joinRunning (s : State) (l : Lane) : State :=
  match s.mode with
  | .paired => s.pairedJoin l
  | .wide =>
    let s1 := s.wideJoin l
    if s1.upd.siphon = sipSecond ∧ l = s1.upd.first.other then (s1.galReturn l (s1.homeGals l) true).sipEnd l else s1
  | _ => s

/-- The first lane to run (R413, R433): of two that wait the one R413 names; a start-up choice of a lane still in STARTING waits for it. -/
def State.leadLane (s : State) : Option Lane :=
  let one (l : Lane) : Option Lane := match s.hg.startChoice with
    | some c => if s.mode = .boot ∧ c ≠ l ∧ (s.lstate c = .reset ∨ s.lstate c = .starting) then none else some l
    | none => some l
  match s.waits .a, s.waits .b with
  | true, true => some s.firstChoice
  | true, false => one .a
  | false, true => one .b
  | false, false => none

/-- Lanes whose STARTING is over start at the tick about to fall (R21, R278, R412, R413, R427, R435). -/
def State.tickStarts (s : State) : State :=
  if !(s.waits .a || s.waits .b) || (s.image.isNone && s.upd.flashProg.isNone) then s
  else
    let s0 := s.imageUp
    let join := fun (s : State) (l : Lane) => if s.waits l then s.joinRunning l else s
    if s0.runsCycles .a || s0.runsCycles .b then join (join s0 .a) .b
    else match s0.leadLane with
    | none => s0
    | some l =>
      let s1 := join (s0.leadStart l) l.other
      let s2 := if s0.mode = .hold ∧ s1.mode = .wide ∧ s1.lstate l.other ≠ .wideRun then s1.wideTake l 1 else s1
      s2.loadIfFirst l

/-- A lane has passed its start-up self-test and loaded the image (R412). -/
def execLaneStartingComplete (lane : Lane) (image : Option ProgImage) (settings : Option SettingsImage) (s : State) : Host.Outcome State Fault Refusal :=
  if s.pwr.refclkLost then .next s else
  .next (if s.lstate lane = .starting ∧ (s.laneHg lane).testPassed ∧ s.mode ≠ .safe then
      ((s.laneLoad lane image settings).startEnd lane).loadIfFirst lane
    else s)

/-- A SYNCING lane holds a complete copy (R426): it is STANDBY and current. In an exercise the next stage follows (R430); a siphon's second stage
ends (R523). -/
def execSyncComplete (s : State) : Host.Outcome State Fault Refusal :=
  if s.pwr.refclkLost then .next s else
  let l := s.hg.active
  let p := l.other
  .next (if !s.copyCan ∨ s.lstate p ≠ .syncing then s
    else
      let s1 := (((s.copyApply l p).syncRest 0).setLstate p .standby).event 580 0 false (p.num * 0x1000000 + 0x300000)
      let s2 : State := { s1 with hg := { s1.hg with copyStale := false } }
      let s3 := match s2.hg.exercise with
        | some (2, _) => ({ s2 with hg := { s2.hg with exercise := some (3, p), handover := some 8 } } : State)
        | some (5, _) => s2.exerciseEnd 1 none
        | _ => s2
      s3.sipEnd p)

/-- A returning lane takes back its shed galleries (R427). -/
def execGalleryRestoreTick (lane : Lane) (s : State) : Host.Outcome State Fault Refusal :=
  if s.pwr.refclkLost then .next s else
  let wait := decide (s.upd.siphon = sipFirst ∧ lane = s.upd.first)
  .next (if s.mode = .wide ∧ s.lstate lane = .wideRun ∧ s.lstate lane.other = .wideRun ∧ wait = false then
      s.galReturn lane ((s.homeGals lane).filter (fun g => s.galShed g)) true
    else s)

/-- 1 s after a failure the lane is put in RESET to be released (R412); in HOLD only for want of a lane, and in SINGLE not at all (R432, R435). -/
def execLaneFailedRetry (lane : Lane) (s : State) : Host.Outcome State Fault Refusal :=
  if s.pwr.refclkLost then .next s else
  .next (if s.mode = .safe ∨ (s.mode = .hold ∧ (s.hg.holdCause ≠ 3 ∨ s.single)) then s else s.failedRetry lane)

/-! ### Exercises (R430, R431) -/

/-- EXERCISE is accepted in PAIRED with a current standby (R430, R527). -/
def execExercise (r : Req) (s : State) : Host.Outcome State Fault Refusal :=
  .next (s.serve r 0x41 0 (fun s _ _ =>
    let p := s.hg.active.other
    if s.mode = .paired ∧ s.lstate s.hg.active = .active ∧ s.current ∧ s.hg.exercise.isNone ∧ s.upd.siphon = sipIdle then
      let s1 := (s.setLaneHg p { s.laneHg p with state := .serviceTest, testPassed := false })
      let s2 := s1.setLane p { s1.lane p with copy := none }
      ({ s2 with hg := { s2.hg with exercise := some (1, p), copyStale := true } } : State).ans .ok
    else s.ans .state))

/-- The self-test of a stage has passed: the lane loads the image again (R430). -/
def execExerciseStageDone (s : State) : Host.Outcome State Fault Refusal :=
  if s.pwr.refclkLost then .next s else
  .next (match s.hg.exercise with
    | some (n, l) =>
      if (n = 1 ∨ n = 4) ∧ s.lstate l = .serviceTest ∧ (s.laneHg l).testPassed then
        { s.setLstate l .starting with hg := { (s.setLstate l .starting).hg with exercise := some (n + 1, l) } }
      else s
    | none => s)

/-- An hour more since the last exercise that passed (R431). -/
def execExerciseAgeHour (s : State) : Host.Outcome State Fault Refusal :=
  if s.pwr.refclkLost then .next s else
  let h := s.fget 0 HG_EXER_AGE_HOURS
  let first := decide (h = 0xFFFF) && s.hg.exerPassAt.isNone && decide (s.uptime < 0xFFFF * 3600000)
  let n := if first then 1 else min (h + 1) 0xFFFF
  let m := s.fget 0 HG_EXER_CFG_MAX_AGE
  let s1 := s.fset 0 HG_EXER_AGE_HOURS n
  .next (if m > 0 ∧ n ≥ m ∧ (n - m) % 24 = 0 ∧ n ≠ h then s1.event 583 0 false n else s1)

/-! ### The headgate's own failure (R432–R435) -/

/-- HOLD with the event of R432. -/
def State.headgateHold (s : State) (cause code : Nat) : State :=
  let s1 := s.enterHold cause
  ({ s1 with hg := { s1.hg with hg := .holdWait } } : State).event 6 0 true (code * 0x1000000 + s1.tickNo % 0x1000000)

/-- HG0 and HG1 disagree (R432); within 60 s of a choice taken on DISAGREE, SAFE (R434). -/
def execHeadgateDisagree (s : State) : Host.Outcome State Fault Refusal :=
  if s.pwr.refclkLost then .next s else
  .next (if s.mode = .safe ∨ s.single then s
    else match s.mode, s.hg.hg with
      | .hold, .holdWait => s
      | _, _ => match s.hg.choiceAt with
        | some t => if s.now < t + 60000000000 then s.enterSafe 5 else s.headgateHold 1 1
        | none => s.headgateHold 1 1)

/-- A copy is silent (R432). -/
def execHeadgateCopySilent (copy : HgCopy) (s : State) : Host.Outcome State Fault Refusal :=
  if s.pwr.refclkLost then .next s else
  .next (if s.mode = .safe ∨ s.single then s
    else match s.mode, s.hg.hg with
      | .hold, .holdWait => s
      | _, _ =>
        let s1 := s.headgateHold 2 (match copy with
          | .hg0 => 2
          | .hg1 => 3)
        { s1 with hg := { s1.hg with silent := some copy } })

/-- The event of a choice (R440). -/
def State.choiceEvent (s : State) (l : Lane) (code : Nat) : State := s.event 7 0 true (code * 0x1000000 + l.num)

/-- The gap since the tick of the first cycle that a stopped lane has not run (R422). -/
def State.heldGap (s : State) (l : Lane) : Nat :=
  match s.nextCycle l with
  | some (_, t) => (s.now - t) / 1000
  | none => 0

/-- Leave HOLD for the mode before it. -/
def State.leaveHold (s : State) (h : HgMode) : State :=
  let a := { s.hg.a with decided := false }
  let b := { s.hg.b with decided := false }
  let s1 : State := { s with hg := { s.hg with hg := h, holdCause := 0, silent := none, a := a, b := b } }
  s1.enterMode s1.hg.heldMode

/-- A held lane goes on as what it was (R433): a lane that ran goes on HOT from its own state. -/
def State.heldResume (s : State) (l : Lane) : State :=
  let h := s.laneHg l
  if h.state ≠ .held then s
  else
    let s1 := s.setLstate l h.held
    if s1.runsCycles l then s1.startLane l kHot else s1

/-- The chosen lane becomes the active lane in PAIRED (R433); the move of the grants is recorded. -/
def State.chosenActive (s : State) (l : Lane) (was : LState) : State :=
  if was = .active then (s.setLstate l .active).startLane l kHot
  else
    let hot := decide (was = .standby) && (s.lane l).copy.isSome && !s.hg.copyStale
    let gap := s.heldGap l.other
    let r := s.makeActive l hot
    r.1.recordSwitch 9 l r.2 gap true

/-- A choice taken on DISAGREE (R433): the chosen lane alone runs on, the other is reset with source 8. -/
def State.takeDisagree (s : State) (l : Lane) : State :=
  let o := l.other
  let was := (s.laneHg l).held
  let s1 := s.leaveHold .dual
  let s2 : State := { s1 with hg := { s1.hg with copyStale := decide (s1.mode = .paired) } }
  let s3 := match s1.mode with
    | .paired => (match was with
      | .active | .standby | .syncing => { s2 with hg := { s2.hg with copyStale := s.hg.copyStale } } |>.chosenActive l was
      | x => s2.setLstate l x)
    | _ => s2.heldResume l
  let s4 := match s3.lstate o with
    | .failed | .retired | .reset => s3
    | _ => ((s3.laneAssert o 8).setLstate o .reset).rstNote 8 (2 ^ o.dom.bit) 0
  if s4.mode = .wide ∧ s4.lstate l = .wideRun then
    let gap := s.heldGap o
    (s4.wideTake l 1).recordSwitch 9 l kWarm gap true
  else if s4.mode = .paired then { s4 with hg := { s4.hg with copyStale := true } } else s4

/-- A choice taken on COPY_SILENT (R433): the speaking copy decides alone, and both lanes resume. -/
def State.takeSilent (s : State) (l : Lane) : State :=
  let o := l.other
  let was := (s.laneHg l).held
  let h : HgMode := match s.hg.silent with
    | some .hg0 => .single1
    | _ => .single0
  let s1 := s.leaveHold h
  match s1.mode with
  | .paired => match was with
    | .active | .standby | .syncing =>
      let oth := s1.laneHg o
      let s2 := s1.chosenActive l was
      let s3 := if oth.state = .held then s2.setLstate o (match oth.held with
        | .active => .standby
        | x => x) else s2
      let s4 := s3.setLane o { s3.lane o with copy := none }
      { s4 with hg := { s4.hg with copyStale := true } }
    | _ => (s1.heldResume l).heldResume o
  | _ => (s1.heldResume l).heldResume o

/-- A choice in SINGLE with no lane left (R433, R435). -/
def State.takeLone (s : State) (l : Lane) : State :=
  let was := (s.laneHg l).held
  let s1 := s.leaveHold s.hg.hg
  match s1.mode with
  | .paired => match was with
    | .active | .standby | .syncing => s1.chosenActive l was
    | x => s1.setLstate l x
  | .wide => (s1.heldResume l).wideTake l 1
  | _ => s1.heldResume l

/-- A choice taken in HOLD has its effect at the next tick (R21, R433). -/
def State.tickChoice (s : State) : State :=
  match s.hg.choice with
  | none => s
  | some l =>
    let s1 : State := { s with hg := { s.hg with choice := none } }
    if s.mode ≠ .hold then s1
    else if s.hg.holdCause = 1 then s1.takeDisagree l
    else if s.hg.holdCause = 2 then s1.takeSilent l
    else s1.takeLone l

/-- A choice on LSEL_A_N or LSEL_B_N (R433, R435, R437): event 7 with 1 taken, 2 ignored, 3 recorded without effect. -/
def execLaneChoice (lane : Lane) (s : State) : Host.Outcome State Fault Refusal :=
  if s.pwr.refclkLost then .next s else
  let s1 := s.fset 0 (match lane with
    | .a => HG_LSEL_A_SEEN
    | .b => HG_LSEL_B_SEEN) 1
  let start := (s.pwr.compared && !s.pwr.agreed) || (s.lstate .a == .reset && s.lstate .b == .reset)
  let waits := decide (s.hg.holdCause = 1 ∨ s.hg.holdCause = 2 ∨ (s.hg.holdCause = 3 ∧ s.single))
  .next (if s.mode ≠ .hold ∨ !waits ∨ s.hg.choice.isSome then s1.choiceEvent lane 3
    else if start then
      let s2 := s1.choiceEvent lane 1
      let s3 := s2.portpwrUp
      let s4 : State := { s3 with pwr := { s3.pwr with agreed := true }, hg := { s3.hg with startChoice := some lane, choiceAt := if s3.hg.holdCause = 1 then some s3.now else none } }
      let s5 := s4.leaveHold (if s.hg.holdCause = 1 then .dual else (match s.hg.silent with
        | some .hg0 => .single1
        | _ => .single0))
      if s5.pwr.step = 5 then (s5.laneRelease .a).laneRelease .b else s5
    else if s.lstate lane ≠ .held then (s1.finc 0 HG_LSEL_IGNORED).choiceEvent lane 2
    else
      let s2 := s1.choiceEvent lane 1
      { s2 with hg := { s2.hg with choice := some lane, choiceAt := if s.hg.holdCause = 1 then some s.now else s2.hg.choiceAt } })

/-- The speaking copy falls silent in SINGLE (R434): SAFE. -/
def execSingleCopySilent (s : State) : Host.Outcome State Fault Refusal :=
  if s.pwr.refclkLost then .next s else
  .next (if s.single then s.enterSafe 5 else s)

/-- 60 s without a lane (R435): SAFE. -/
def execNoLaneTimeout (s : State) : Host.Outcome State Fault Refusal :=
  if s.pwr.refclkLost then .next s else
  .next (if s.mode = .hold ∧ s.hg.holdCause = 3 ∧ !s.single then s.enterSafe 6 else s)

/-! ### MODE_SET (R429, R527) -/

/-- MODE_SET with a MODE other than 0: 4 enters SERVICE at the next tick. A MODE of 0 is no command of this row and changes nothing. -/
def execModeSetEnterService (r : Req) (mode : BitVec 8) (s : State) : Host.Outcome State Fault Refusal :=
  .next (if mode = 0 then s
    else s.serve r 0x40 4 (fun s _ _ =>
      let ok := decide (s.mode = .paired ∨ s.mode = .wide ∨ s.mode = .service)
      if !ok || decide (s.upd.siphon ≠ sipIdle) then s.ans .state
      else if mode ≠ 4 then s.ans .range
      else if s.mode = .service then s.ans .ok
      else ({ s with hg := { s.hg with enterService := true } } : State).ans .ok))

/-- MODE_SET 0 leaves SERVICE once the passes under way have ended. -/
def execModeSetLeaveService (r : Req) (s : State) : Host.Outcome State Fault Refusal :=
  .next (s.serve r 0x40 4 (fun s _ _ =>
    let ok := decide (s.mode = .paired ∨ s.mode = .wide ∨ s.mode = .service)
    if !ok || decide (s.upd.siphon ≠ sipIdle) then s.ans .state
    else if s.mode = .service then ({ s with hg := { s.hg with leaveService := true } } : State).ans .ok
    else s.ans .ok))

end Sys2Proof.Machine
end

