-- ==== Sys2Proof/Machine/Operands.lean ====
section
/-! DEFINITION. The operands of requests: handles and their fields, the encodings a VALUE must fit, and the LENGTH of each opcode's
body (R97, R100, R125, R271). -/

namespace Sys2Proof.Machine
open Sys2Proof

/-! ### Handles (R100, R125) -/

/-- A handle's fields: generation [31:24], gallery [23:18], type [17:13], index [12:0]. -/
structure Handle where
  gen : Nat
  gallery : Nat
  ptype : Nat
  index : Nat
deriving DecidableEq, Repr

/-- The fields of a handle word. -/
def handleOf (h : Nat) : Handle := ⟨h / 0x1000000 % 256, h / 0x40000 % 64, h / 0x2000 % 32, h % 0x2000⟩

/-- Is the type one whose index names a point-table entry? -/
def tableType (t : Nat) : Bool := 1 ≤ t && t ≤ 10

/-! ### Encodings (R271, R324, R370, R392, R174, R211) -/

/-- Does `v` hold an unsigned number of `n` bits? -/
def fitsU (n v : Nat) : Bool := decide (v < 2 ^ n)

/-- Does `v` hold a two's complement number of `n` bits, sign-extended to 64? -/
def fitsS (n v : Nat) : Bool := decide (v < 2 ^ (n - 1)) || decide (2 ^ 64 - 2 ^ (n - 1) ≤ v)

/-- Does a u64 fit the encoding of a data type code (R271)? -/
def fitsType (code v : Nat) : Bool :=
  match code with
  | 0x0 => fitsU 1 v
  | 0x1 => fitsS 8 v
  | 0x2 => fitsS 16 v
  | 0x3 => fitsS 32 v
  | 0x5 | 0x9 => fitsU 8 v
  | 0x6 | 0xA => fitsU 16 v
  | 0x7 | 0xB | 0xD => fitsU 32 v
  | _ => true

/-- A finite binary32 in [31:0] with [63:32] zero. -/
def fitsFinite (v : Nat) : Bool := fitsU 32 v && (f32? v).isSome

/-- The write layout of LOOP_OUT (R324). -/
def fitsLoopOut (v : Nat) : Bool := fitsU 34 v && decide (v / 0x100000000 ≠ 3) && (f32? (v % 0x100000000)).isSome

/-! ### Bodies (R97) -/

/-- LENGTH of REG_READ, REG_MODIFY and of a REG_WRITE of `n` words. -/
def lenRegRead : Nat := 8
def lenRegModify : Nat := 12
def lenRegWrite (n : Nat) : Nat := 8 + 4 * n

/-- LENGTH of an opcode whose body is one handle, and of one with a handle and a VALUE. -/
def lenHandle : Nat := 4
def lenHandleValue : Nat := 12

/-- LENGTH of a GATHER of `n` handles and of a SCATTER of `n` elements. -/
def lenGather (n : Nat) : Nat := 4 + 4 * n
def lenScatter (n : Nat) : Nat := 4 + 12 * n

/-- LENGTH of SNAPSHOT_ARM and of RECORDER_FREEZE. -/
def lenSnapArm : Nat := 12
def lenFreeze : Nat := 4

/-- Words as the bytes of a REG_READ reply, little-endian (R97). -/
def wordsLE (ws : List Nat) : List Byte := (ws.map (leBytes 4)).flatten

end Sys2Proof.Machine
end

