-- ==== Sys2Proof/Machine/Flags.lean ====
section
/-! DEFINITION. Computed flags: POINT_INFO.FLAGS (R299), the FLAGS and MISSING words of a snapshot record (R542), and a register write's
effect on W1C and W1S bits is in RegWrite. -/

namespace Sys2Proof.Machine
open Sys2Proof

/-- The data type code POINT_INFO reports for a point of a type and index (R174, R225, R271, R299, R324, R360, R370, R392). -/
def State.infoCode (s : State) (ptype index : Nat) : Nat :=
  if ptype ≤ 3 then (s.point index).dtype
  else if ptype = 16 ∨ ptype = 17 then 8
  else match (s.point index).bind with
    | .meterIn _ k => if k < 8 then 13 else 8
    | .meterPort _ k => if k = 0 then 13 else 8
    | .port _ => 8
    | _ => s.pointCode index

/-- POINT_INFO.FLAGS (R299): [7] FORCED, [6] RETAIN, [5] SHARED, [4] WRITABLE, [3:0] the data type code. -/
def State.infoFlags (s : State) (ptype index : Nat) : Nat :=
  let p := s.point index
  let prog := decide (ptype ≤ 3)
  (if s.isForced ptype index then 0x80 else 0) + (if prog && p.retain then 0x40 else 0) + (if prog && p.shared then 0x20 else 0) +
    (if prog && p.writable then 0x10 else 0) + s.infoCode ptype index % 16

/-- POINT_INFO.TASK (R299). -/
def State.infoTask (s : State) (ptype index : Nat) : Nat := if ptype ≤ 3 then (s.point index).task else 0xFF

/-- Is the time-aware system LOCKED or GRANDMASTER (R542)? -/
def State.timeLocked (s : State) : Bool := s.ptpState == ptpLocked || s.ptpState == ptpGrandmaster

/-- FLAGS of a snapshot record (R542). -/
def State.snapFlags (s : State) (late : Bool) : Nat :=
  0x4000000 * s.mode.code + (if late then 4 else 0) + (if s.timeLocked then 0 else 2) + 1

/-- The MISSING bytes of a snapshot record: bit n for entry n (R542). -/
def missingBytes (ms : List Bool) : List Nat :=
  (List.range 16).map (fun i => (List.range 8).foldl (fun a k => if ms.getD (8 * i + k) false then a + 2 ^ k else a) 0)

end Sys2Proof.Machine
end

