-- ==== Sys2Proof/Machine/Points.lean ====
section
/-! DEFINITION. Judging handles, and the operations on points: POINT_READ, POINT_WRITE, GATHER, SCATTER, FORCE, UNFORCE and POINT_INFO
(R100–R102, R126, R127, R287, R290, R296–R299). -/

namespace Sys2Proof.Machine
open Sys2Proof

/-! ### What a handle names (R100, R101, R126) -/

/-- The gallery, the generation and the binding of the object of a type and index, if it exists. -/
def State.roleNow (s : State) (t i : Nat) : Option (Nat × Nat × Binding) :=
  if tableType t then (if (s.point i).ptype = t then some (s.pointOwner i, (s.point i).gen, (s.point i).bind) else none)
  else if t = 16 ∧ i < 256 then some (s.portOwner (i / 4), s.genOf 16 i, .node (Fin.ofNat 256 i))
  else if t = 17 ∧ i < 256 then some (s.grpOwner i, s.genOf 17 i, .group (Fin.ofNat 256 i))
  else none

/-- Does a role of before still hold in the image of cycle `m` of lane `l` (R101)? -/
def State.roleHolds (s : State) (l : Lane) (m : Nat) (r : OldRole) : Bool :=
  let k := cyclesAfter r.tick m
  (s.runsCycles l || decide (s.mode = .hold)) && decide (0 < k) && decide (k < 0x80000000)

/-- An old role is about the same object as a type and index: an entry of the point table, of whatever type, or a node or group. -/
def OldRole.names (r : OldRole) (t i : Nat) : Bool :=
  (tableType r.ptype || r.ptype == 0) == tableType t && (tableType t || r.ptype == t) && r.index == i

/-- The gallery, the generation and the binding of an object in the image of cycle `m` of lane `l` (R101). -/
def State.roleAt (s : State) (l : Lane) (m t i : Nat) : Option (Nat × Nat × Binding) :=
  match s.oldRoles.find? (fun r => r.names t i && s.roleHolds l m r) with
  | some r => if r.ptype = t then some (r.gallery, r.gen, r.bind) else none
  | none => s.roleNow t i

/-- Is the port of an object in SHED (R100, R188)? -/
def State.bindShed (s : State) : Binding → Bool
  | .port p => s.portShed p.val
  | .meterPort p _ => s.portShed p.val
  | .node n => s.portShed (n.val / 4)
  | _ => false

/-- Is the block of an object in reset (R100, R447)? -/
def State.bindBlocked (s : State) (b : Binding) : Bool :=
  match bindDom b with
  | some d => s.isolated d
  | none => false

/-- The first five checks of R100, for a session of gallery `g` and the role `role` of the handle's object. -/
def State.judgeHandle (s : State) (g : Nat) (h : Handle) (role : Option (Nat × Nat × Binding)) : Res :=
  if g ≠ 0 ∧ h.gallery ≠ g then .noSuchObject
  else match role with
    | none => .noSuchObject
    | some (gal, gen, b) =>
      if gal ≠ h.gallery then .noSuchObject
      else if gen ≠ h.gen then .staleHandle
      else if s.bindBlocked b then .blockInReset
      else if s.galShed gal || s.bindShed b then .shed
      else .ok

/-! ### Reads (R101, R102, R287) -/

/-- The lane whose image holds the objects of gallery `g`, for a session that lane `l` answers. -/
def State.imageLane (s : State) (l : Lane) (g : Nat) : Lane := (s.grant g).getD l

/-- The number of the newest cycle that lane `l` has released. -/
def State.imageCycle (s : State) (l : Lane) : Nat := s.fget (cycB l) CYC_DONE

/-- The image of cycle `m`, the newest where the lane holds none of that cycle. -/
def CycSt.imageOf (c : CycSt) (m : Nat) : Released := (c.hist.find? (fun h => h.n == m)).getD c.rel

/-- The value of an object in the image of cycle `m` of lane `l`. -/
def State.objRead (s : State) (l : Lane) (m t i : Nat) : Nat :=
  let h := (s.cyc l).imageOf m
  if t = 16 then s.nodeRead l i else if t = 17 then s.groupRead l i
  else if t = 2 then nat0 h.outs i
  else if t = 3 then nat0 h.vars i
  else nat0 h.ins i

/-- Judge a handle for reading, on the images of cycle `m`, and give its value, zero when it fails. -/
def State.handleRead (s : State) (g : Nat) (l : Lane) (m : Nat) (h : Handle) : Res × Nat :=
  let k := s.imageLane l h.gallery
  let r := s.judgeHandle g h (s.roleAt k m h.ptype h.index)
  (r, if r = .ok then s.objRead k m h.ptype h.index else 0)

/-- The newest cycle that every lane of `ls` has released (R102). -/
def State.commonCycle (s : State) : List Lane → Nat → Nat
  | [], m => m
  | l :: ls, m =>
    let n := s.imageCycle l
    s.commonCycle ls (if decide (cyclesAfter m n < 0x80000000) then n else m)

/-- POINT_READ (R100, R101). -/
def execPointRead (r : Req) (handle : BitVec 32) (s : State) : Host.Outcome State Fault Refusal :=
  .next (s.serve r 0x20 lenHandle (fun s x l =>
    let h := handleOf handle.toNat
    let m := s.imageCycle (s.imageLane l h.gallery)
    let v := s.handleRead x.gallery l m h
    s.ansOk v.1 (beBytes 4 m ++ beBytes 8 v.2)))

/-- The bytes of an ESTATUS array (R102). -/
def estatus (rs : List Res) : List Byte :=
  ((List.range 16).map (fun i => match rs[i]? with
    | some r => beBytes 2 r.code
    | none => beBytes 2 0)).flatten

/-- RESULT of elements judged each for itself (R102). -/
def elementResult (rs : List Res) : Res := if rs.all (fun r => decide (r = .ok)) then .ok else .partial_

/-- GATHER (R102): every element is judged and served from one cycle's images, the newest that every lane concerned has released. -/
def execGather (r : Req) (count : BitVec 8) (handles : List (BitVec 32)) (s : State) : Host.Outcome State Fault Refusal :=
  .next (s.serve r 0x22 (lenGather handles.length) (fun s x l =>
    let n := count.toNat
    if n = 0 ∨ 16 < n then s.ans .range
    else if n ≠ handles.length then s.ans .badLength
    else
      let hs := handles.map (fun h => handleOf h.toNat)
      let ls := hs.map (fun h => s.imageLane l h.gallery)
      let m := s.commonCycle ls (s.imageCycle (ls.headD l))
      let vs := hs.map (fun h => s.handleRead x.gallery l m h)
      let rs := vs.map (fun v => v.1)
      s.ansB (elementResult rs) (beBytes 4 m ++ beBytes 1 n ++ beBytes 3 0 ++ estatus rs ++
        (vs.map (fun v => beBytes 8 v.2)).flatten)))

/-! ### Writes (R100, R101, R290, R324, R370, R392, R393) -/

/-- Is a signal bound to a loop destination (R393)? -/
def State.loopWrites (s : State) (n o g : Nat) : Bool :=
  [Lane.a, Lane.b].any (fun l => (s.loopSlots l).any (fun q => s.loopOn l q && s.fget (loopD l q) LOOP_DST_KIND == 2 &&
    (let i := s.fget (loopD l q) LOOP_DST_INDEX
     fieldGet i 16 2 == n && fieldGet i 8 7 == o && i % 256 == g)))

/-- Does a type accept a supervisor's write of `v` to what an entry is bound to: STATE when it does not, RANGE for its value. -/
def State.bindAccepts (s : State) (p : PointEnt) (v : Nat) : Res :=
  match p.bind with
  | .prog => .state
  | .loop q item =>
    let l := (s.loopLane q.val).getD s.hg.active
    if item = 0 then (if s.loopInner l q.val then .state else if fitsFinite v then .ok else .range)
    else if item = 1 then (if s.fget (loopD l q.val) LOOP_SRC_KIND ≠ 0 then .state else if fitsU 32 v then .ok else .range)
    else if fitsLoopOut v then .ok else .range
  | .aio c => if aioOut (s.aioMode c.val) then (if fitsFinite v then .ok else .range) else .state
  | .can n o g =>
    if !s.fbit (canObjB n.val o.val) CAN_OBJ_ID_DIR || p.writer.isSome || s.loopWrites n.val o.val g.val then .state
    else match s.sigOf n.val o.val g.val with
      | some d => if fitsType ([8, 4, 13, 14].getD (s.fget (canSigB n.val d) CAN_SIG_LAYOUT_KIND) 8) v then .ok else .range
      | none => .ok
  | .port _ => if v ≤ 1 then .ok else .range
  | _ => .state

/-- The last row of R100 for POINT_WRITE and SCATTER. -/
def State.writeAccepts (s : State) (t i v : Nat) : Res :=
  if s.isForced t i then .state
  else if t = 16 ∨ t = 17 then (if levelOk v then .ok else .range)
  else
    let p := s.point i
    if t = 1 then (if fitsType p.dtype v then .ok else .range)
    else if t = 2 then .state
    else if t = 3 then (if !p.writable then .state else if fitsType p.dtype v then .ok else .range)
    else s.bindAccepts p v

/-- Judge a write, and let it wait for its tick when it is accepted (R101). -/
def State.handleWrite (s : State) (g : Nat) (h : Handle) (v : Nat) : State × Res :=
  let role := s.roleNow h.ptype h.index
  match s.judgeHandle g h role with
  | .ok => match s.writeAccepts h.ptype h.index v with
    | .ok => ({ s with acts := s.acts ++ [⟨actWrite, h.ptype, h.index, h.gen, h.gallery, v, s.dueTick⟩] }, .ok)
    | e => (s, e)
  | e => (s, e)

/-- POINT_WRITE (R100, R101). -/
def execPointWrite (r : Req) (handle : BitVec 32) (value : BitVec 64) (s : State) : Host.Outcome State Fault Refusal :=
  .next (s.serve r 0x21 lenHandleValue (fun s x _ =>
    let w := s.handleWrite x.gallery (handleOf handle.toNat) value.toNat
    w.1.ansOk w.2 (beBytes 4 s.dueTick)))

/-- SCATTER (R102): every element is judged, and those accepted take effect at one tick. -/
def execScatter (r : Req) (count : BitVec 8) (elems : List (BitVec 32 × BitVec 64)) (s : State) : Host.Outcome State Fault Refusal :=
  .next (s.serve r 0x23 (lenScatter elems.length) (fun s x _ =>
    let n := count.toNat
    if n = 0 ∨ 16 < n then s.ans .range
    else if n ≠ elems.length then s.ans .badLength
    else
      let w := elems.foldl (fun (acc : State × List Res) e =>
        let q := acc.1.handleWrite x.gallery (handleOf e.1.toNat) e.2.toNat
        (q.1, acc.2 ++ [q.2])) (s, [])
      w.1.ansB (elementResult w.2) (beBytes 4 s.dueTick ++ beBytes 1 n ++ beBytes 3 0 ++ estatus w.2)))

/-! ### Forces (R296, R297) -/

/-- The forced objects once everything accepted has taken effect, as kind (a node or not) and index. -/
def State.forceSet (s : State) : List (Bool × Nat) :=
  s.acts.foldl (fun f a =>
    let k := (a.ptype == 16, a.index)
    if a.kind = actForce then (if f.contains k then f else f ++ [k])
    else if a.kind = actUnforce then f.filter (fun x => x != k)
    else if a.kind = actUnforceAll then []
    else f) (s.forces.map (fun f => (f.ptype == 16, f.index)))

/-- The last row of R100 for FORCE (R296, R297): STATE for a type that cannot be forced, RANGE for a VALUE outside its encoding. -/
def State.forceAccepts (s : State) (t i v : Nat) : Res :=
  let ok := fun (b : Bool) => if b then Res.ok else Res.range
  if t = 17 ∨ t = 9 then .state
  else if t = 16 then ok (levelOk v)
  else
    let p := s.point i
    if t ≤ 3 then ok (fitsType p.dtype v)
    else match p.bind with
      | .loop _ item => ok (if item = 0 then fitsFinite v else if item = 1 then fitsU 33 v else fitsLoopOut v)
      | .aio c => ok (if aioOut (s.aioMode c.val) then fitsFinite v else fitsU 44 v)
      | .can _ _ _ => ok (fitsType (s.pointCode i) v)
      | .port _ => ok (decide (v ≤ 1))
      | _ => .state

/-- FORCE (R297). -/
def execForce (r : Req) (handle : BitVec 32) (value : BitVec 64) (s : State) : Host.Outcome State Fault Refusal :=
  .next (s.serve r 0x24 lenHandleValue (fun s x _ =>
    let h := handleOf handle.toNat
    match s.judgeHandle x.gallery h (s.roleNow h.ptype h.index) with
    | .ok => match s.forceAccepts h.ptype h.index value.toNat with
      | .ok =>
        let set := s.forceSet
        if set.contains (h.ptype == 16, h.index) = false ∧ 512 ≤ set.length then s.ans .busy
        else ({ s with acts := s.acts ++ [⟨actForce, h.ptype, h.index, h.gen, h.gallery, value.toNat, s.dueTick⟩] } : State).ans .ok
      | e => s.ans e
    | e => s.ans e))

/-- UNFORCE (R297): one force, or every force. -/
def execUnforce (r : Req) (handle : BitVec 32) (s : State) : Host.Outcome State Fault Refusal :=
  .next (s.serve r 0x25 lenHandle (fun s x _ =>
    let out := fun (n : Nat) => beBytes 2 n ++ beBytes 2 0
    if handle = 0xFFFFFFFF then
      ({ s with acts := s.acts ++ [⟨actUnforceAll, 0, 0, 0, 0, 0, s.dueTick⟩] } : State).ansB .ok (out s.forceSet.length)
    else
      let h := handleOf handle.toNat
      match s.judgeHandle x.gallery h (s.roleNow h.ptype h.index) with
      | .ok =>
        let n := if s.forceSet.contains (h.ptype == 16, h.index) then 1 else 0
        ({ s with acts := s.acts ++ [⟨actUnforce, h.ptype, h.index, h.gen, h.gallery, 0, s.dueTick⟩] } : State).ansB .ok (out n)
      | e => s.ans e))

/-- POINT_INFO (R299). -/
def execPointInfo (r : Req) (handle : BitVec 32) (s : State) : Host.Outcome State Fault Refusal :=
  .next (s.serve r 0x26 lenHandle (fun s x _ =>
    let h := handleOf handle.toNat
    match s.judgeHandle x.gallery h (s.roleNow h.ptype h.index) with
    | .ok => s.ansB .ok (beBytes 1 h.ptype ++ beBytes 1 (s.infoFlags h.ptype h.index) ++ beBytes 1 (s.infoTask h.ptype h.index) ++ beBytes 1 0)
    | e => s.ans e))

/-! ### Handles as sources (R114, R484, R541) -/

/-- The value of the handle word `w` in the image of lane `l`; none when it is stale or missing or its block is in reset. -/
def State.imageValue (s : State) (l : Lane) (w : Nat) : Option Nat :=
  let h := handleOf w
  let k := s.imageLane l h.gallery
  let m := s.imageCycle k
  match s.judgeHandle 0 h (s.roleAt k m h.ptype h.index) with
  | .ok | .shed => some (s.objRead k m h.ptype h.index)
  | _ => none

/-- The value in force of the handle word `w`, in the read layout of its type: live inputs, committed outputs and variables, forced values
(R541). -/
def State.valueNow (s : State) (w : Nat) : Option Nat :=
  let h := handleOf w
  match s.judgeHandle 0 h (s.roleNow h.ptype h.index) with
  | .ok | .shed => some (if h.ptype = 16 ∨ h.ptype = 17 then s.objRead (s.imageLane s.hg.active h.gallery) 0 h.ptype h.index
      else match s.forcedVal h.index with
        | some v => v
        | none => s.liveIn h.index)
  | _ => none

end Sys2Proof.Machine
end

