-- ==== Sys2Proof/Machine/ProgOps.lean ====
section
/-! DEFINITION. The execution of control programs: a cell's accesses to its memories and to the process image, one step of a partition, and the
tasks due in a cycle (R267–R276, R288, R290, R292–R296). -/

namespace Sys2Proof.Machine
open Sys2Proof

/-! ### What a partition runs with -/

/-- What is fixed for one execution of a partition (R275, R276): its lane, task and place, the cycle's number and tick, CYC_FIRST, CYC_LATE and
CYC_START. -/
structure ProgCtx where
  lane : Lane
  dt : TaskDesc
  dp : PartDesc
  at_ : PartAt
  n : Nat
  time : Nat
  first : Bool
  late : Bool
  kind : Nat

/-- Why a partition runs no further for now: a barrier, its end, or a trap (R269, R305). -/
inductive Halt | going | barrier | done | trap
deriving DecidableEq, Repr

/-- An execution under way: the next step, the stack, and the loops entered with their bound and count (R273). -/
structure Run where
  pc : Nat
  stack : List Val
  loops : List (Nat × Nat)
  halt : Halt

/-- A partition about to run. -/
def Run.start : Run := ⟨0, [], [], .going⟩

/-- The run goes on at the next step with stack `st`: a stack of more than 3 KiB overflows (R267, R305). -/
def Run.next (r : Run) (st : List Val) : Run :=
  if (st.map Val.room).sum ≤ 3072 then { r with pc := r.pc + 1, stack := st } else { r with halt := .trap }

/-- The run goes on at step `dest`. -/
def Run.jump (r : Run) (dest : Nat) (st : List Val) : Run := { r with pc := dest, stack := st }

/-- The cell stops with a trap. -/
def Run.trapped (r : Run) : Run := { r with halt := .trap }

/-! ### Accesses (R267–R269) -/

/-- The part of a cluster's shared memory at `o` that a partition may read, or write (R268): the input image ring, its own staging entries, its own
mailboxes and the write banks of those it sends to, and its task's shared data. -/
def State.sharedOk (s : State) (x : ProgCtx) (write : Bool) (o n : Nat) : Bool :=
  let ring := !write && decide (o + n ≤ 0x40000)
  let entry := (o - 0x40000) / 8
  let own := write && decide (0x40000 ≤ o ∧ o + n ≤ 0x50000 ∧ o + n ≤ 0x40000 + 8 * entry + 8) && (s.point entry).task == x.dt.task.val &&
    (s.point entry).writer == some x.at_.home
  let box := 0x50000 + x.at_.cell % 16 * 0x1000
  let mine := !write && decide (box ≤ o ∧ o + n ≤ box + 0x1000)
  let sends := write && (match s.image with
    | none => false
    | some i => i.boxes.any (fun d => d.sender == x.dt.task && (match s.boxCell x.lane d with
        | some c =>
          let k := bankKey c d.box.val (s.writeBank c d.box.val) - sharedKey (c / 16)
          c / 16 == x.at_.host / 16 && decide (k ≤ o ∧ o + n ≤ k + 0x80)
        | none => false)))
  let data := decide (0x61000 + x.dt.sharedBase ≤ o ∧ o + n ≤ 0x61000 + x.dt.sharedBase + x.dt.sharedSize ∧ o + n ≤ 0x100000)
  ring || own || mine || sends || data

/-- Where `n` bytes at a place lie, `k` bytes on: nothing where the access is a protection trap (R269). -/
def State.placeKey (s : State) (x : ProgCtx) (p : Place) (k n : Nat) (write : Bool) : Option Nat :=
  let local_ (a : Nat) : Option Nat :=
    if s.codeEnd x.at_.host ≤ a ∧ a + n ≤ 0x1F000 then some (localKey (s.runsOn x.at_.host) + a) else none
  let shared (o : Nat) : Option Nat := if s.sharedOk x write o n then some (sharedKey (x.at_.host / 16) + o) else none
  match p with
  | .data o => local_ (x.at_.base + o.toNat + k)
  | .task o => shared (0x61000 + x.dt.sharedBase + o.toNat + k)
  | .shared o => shared (o.toNat + k)
  | .point _ => none

/-- What memory holds for a type. -/
def State.memVal (s : State) (k : Nat) : ElemTy → Val
  | .num t => .num (tyFromMem t.toNat (s.mnat k (elemBytes (.num t))))
  | .str m => .str (s.mbytes (k + 1) (min (s.mget k).toNat m.toNat))

/-- The bytes of a value of a type; a string is cut at its declared length. -/
def valBytes : ElemTy → Val → Option (List Byte)
  | .num t, .num v => some (leBytes (elemBytes (.num t)) v)
  | .str m, .str cs => some (BitVec.ofNat 8 (min cs.length m.toNat) :: cs.take m.toNat)
  | _, _ => none

/-- A read of a point (R288, R290): the task's own PROG_VAR as it stands, and every other entry from the input image of the cycle. -/
def State.pointVal (s : State) (x : ProgCtx) (t : ElemTy) (e : Nat) : Option Val :=
  let p := s.point e
  match t with
  | .num c => some (.num (tyFromMem c.toNat (if p.ptype = 3 ∧ p.task = x.dt.task.val then nat0 (s.cyc x.lane).vars e else s.inVal x.n e)))
  | .str _ => none

/-- A read of a variable. -/
def State.progLoad (s : State) (x : ProgCtx) (t : ElemTy) (p : Place) (k : Nat) : Option Val :=
  match p with
  | .point e => s.pointVal x t e.val
  | _ => (s.placeKey x p k (elemBytes t) false).map (fun a => s.memVal a t)

/-- A runtime error of the partition's task (R272). -/
def State.progErr (s : State) (x : ProgCtx) (code : Nat) : State :=
  let t := x.dt.task.val
  ((s.finc (taskB x.lane t) CYC_TASK_FAULT_COUNT).fset (taskB x.lane t) CYC_TASK_FAULT_LAST_CODE code).eventCounted 515 t (s.taskOwner t) false
    (t * 0x1000000 + code * 0x10000) 1000000000 1

/-- A value is staged in an entry the partition owns (R268, R280); a PROG_VAR changes at once for its own task. -/
def State.stageEntry (s : State) (x : ProgCtx) (e v : Nat) : State :=
  let c := s.cyc x.lane
  let vars := if (s.point e).ptype = 3 then put0 c.vars e v else c.vars
  (s.setCyc x.lane { c with staged := tabPut c.staged e v, vars := vars }).mwrite (sharedKey (x.at_.host / 16) + 0x40000 + 8 * e) (leBytes 8 v)

/-- A write of a variable: nothing where it is a protection trap or the value is of another kind. -/
def State.progStore (s : State) (x : ProgCtx) (t : ElemTy) (p : Place) (k : Nat) (v : Val) : Option State :=
  match p with
  | .point e =>
    let q := s.point e.val
    (match v with
    | .num n => if q.ptype ≠ 0 ∧ q.ptype ≠ 1 ∧ q.task = x.dt.task.val ∧ q.writer = some x.at_.home then some (s.stageEntry x e.val n) else none
    | .str _ => none)
  | _ => match s.placeKey x p k (elemBytes t) true, valBytes t v with
    | some a, some bs =>
      let s1 := s.mwrite a bs
      (match t, v with
      | .str m, .str cs => some (if m.toNat < cs.length then s1.progErr x 6 else s1)
      | _, _ => some s1)
    | _, _ => none

/-- 64-bit words at a place: an instance of a standard block, the marks of a chart. -/
def State.progWords (s : State) (x : ProgCtx) (p : Place) (n : Nat) : Option (List Nat) :=
  match s.placeKey x p 0 (8 * n) false, s.placeKey x p 0 (8 * n) true with
  | some a, some _ => some ((List.range n).map (fun i => s.mnat (a + 8 * i) 8))
  | _, _ => none

def State.putWords (s : State) (x : ProgCtx) (p : Place) (ws : List Nat) : State :=
  match s.placeKey x p 0 (8 * ws.length) true with
  | some a => s.mwrite a (ws.map (leBytes 8)).flatten
  | none => s

/-! ### One step -/

/-- A system variable (R276). -/
def sysVal (x : ProgCtx) : SysVar → Nat
  | .cycNumber => x.n
  | .cycTime => x.time % 2 ^ 64
  | .cycPeriod => x.dt.interval % 2 ^ 64
  | .cycFirst => bit x.first
  | .cycStart => x.kind
  | .cycLate => bit x.late
  | .cycLane => x.lane.num

/-- The indices of an array access from the stack, the last dimension on top, and the rest of the stack. -/
def takeIndices : Nat → List Val → List Int → Option (List Int × List Val)
  | 0, st, is => some (is, st)
  | n + 1, .num v :: st, is => takeIndices n st (toSigned 64 v :: is)
  | _, _, _ => none

/-- The flags popped for a chart's transitions, the last on top. -/
def takeBools : Nat → List Val → List Bool → Option (List Bool × List Val)
  | 0, st, bs => some (bs, st)
  | n + 1, .num v :: st, bs => takeBools n st ((v != 0) :: bs)
  | _, _, _ => none

/-- A binary operator on the stack's two topmost values. -/
def State.binStep (s : State) (x : ProgCtx) (r : Run) (op : BinOp) (t : Nat) (a b : Val) (st : List Val) : State × Run :=
  match a, b with
  | .num u, .num v => match binVal op t u v with
    | some (w, err) => (if err then s.progErr x 1 else s, r.next (.num w :: st))
    | none => (s, r.trapped)
  | .str u, .str v => match compareBy op (strLt u v) (strLt v u) (u == v) with
    | some w => (s, r.next (.num w :: st))
    | none => (s, r.trapped)
  | _, _ => (s, r.trapped)

/-- A conversion (R270, R272). -/
def State.convStep (s : State) (x : ProgCtx) (r : Run) (t u : ElemTy) (a : Val) (st : List Val) : State × Run :=
  match t, u, a with
  | .num t, .num u, .num v =>
    let w := convNum t.toNat u.toNat v
    (if w.2 then s.progErr x 4 else s, r.next (.num w.1 :: st))
  | .num t, .str _, .num v => (s, r.next (.str ((Config.numberText t (BitVec.ofNat 64 v)).take 254) :: st))
  | .str _, .num u, .str cs => (s, r.next (.num (tyFromMem u.toNat (Config.textNumber u cs).toNat) :: st))
  | .str _, .str _, .str cs => (s, r.next (.str cs :: st))
  | _, _, _ => (s, r.trapped)

/-- One evolution of an SFC chart, and which of its actions run (R270). -/
def State.chartStep (s : State) (x : ProgCtx) (r : Run) (c : Chart) : State × Run :=
  let n := c.steps + c.assoc.length
  match takeBools c.trans.length r.stack [], s.progWords x c.place (2 * n) with
  | some (conds, st), some ws =>
    let ms := (List.range n).map (fun i => (⟨ws.getD (2 * i) 0, ws.getD (2 * i + 1) 0⟩ : Mark))
    let e := chartEvolve c (x.time % 2 ^ 64) conds ms
    (s.putWords x c.place (e.1.flatMap (fun m => [m.flag, m.since])), r.next ((e.2.map (fun b => Val.num (bit b))) ++ st))
  | _, _ => (s, r.trapped)

/-- MB_SEND (R292, R294): only to a mailbox of which the image names this task as the sender. -/
def State.sendStep (s : State) (x : ProgCtx) (r : Run) (cell box : Nat) (p : Place) (len : Nat) : State × Run :=
  match s.image.bind (fun i => i.boxes.find? (fun d => d.cell.val == cell && d.box.val == box && d.sender == x.dt.task)), s.placeKey x p 0 len false with
  | some d, some a => if len ≤ 120 then (s.mbSend x.lane d x.n x.at_.host (s.mbytes a len), r.next r.stack) else (s, r.trapped)
  | _, _ => (s, r.trapped)

/-- MB_RECV (R293, R294): the readable message goes to a place, its LENGTH and whether it is new to the stack. -/
def State.receiveStep (s : State) (x : ProgCtx) (r : Run) (box : Nat) (p : Place) (room : Nat) : State × Run :=
  match s.image.bind (fun i => i.boxes.find? (fun d => d.cell.val == x.at_.home && d.box.val == box && d.receiver == x.dt.task)),
    s.placeKey x p 0 room true with
  | some _, some a =>
    let k := bankKey x.at_.cell box (1 - s.writeBank x.at_.cell box)
    let n := min (s.mnat (k + 4) 2) 120
    (s.mwrite a (s.mbytes (k + 8) (min n room)),
      r.next (.num (bit ((s.cyc x.lane).fresh.contains (x.at_.home, box))) :: .num n :: r.stack))
  | _, _ => (s, r.trapped)

/-- A store, or the trap it ends in. -/
def State.storeStep (s : State) (x : ProgCtx) (r : Run) (t : ElemTy) (p : Place) (k : Nat) (v : Val) (st : List Val) : State × Run :=
  match s.progStore x t p k v with
  | some s1 => (s1, r.next st)
  | none => (s, r.trapped)

/-- A store to a subrange saturates (R272). -/
def State.rangeStep (s : State) (x : ProgCtx) (r : Run) (t : BitVec 4) (p : Place) (lo hi : Int) (v : Nat) (st : List Val) : State × Run :=
  let n := tyInt t.toNat v
  if lo ≤ n ∧ n ≤ hi then s.storeStep x r (.num t) p 0 (.num v) st
  else (s.progErr x 5).storeStep x r (.num t) p 0 (.num (tyWrap t.toNat (clampI lo hi n))) st

/-- One step of a partition; what a step finds no operands for is an illegal instruction (R305). -/
def State.progStep (s : State) (x : ProgCtx) (r : Run) (i : Step) : State × Run :=
  match i, r.stack with
  | .push v, st => (s, r.next (.num v.toNat :: st))
  | .pushStr cs, st => (s, r.next (.str (cs.take 254) :: st))
  | .load t p, st => match s.progLoad x t p 0 with
    | some v => (s, r.next (v :: st))
    | none => (s, r.trapped)
  | .store t p, v :: st => s.storeStep x r t p 0 v st
  | .storeIn t p lo hi, .num v :: st => s.rangeStep x r t p lo hi v st
  | .loadAt t p dims, st => match takeIndices dims.length st [] with
    | some (is, st) => match arrayAt dims is with
      | some k => match s.progLoad x t p (k * elemBytes t) with
        | some v => (s, r.next (v :: st))
        | none => (s, r.trapped)
      | none => (s.progErr x 2, r.next (elemZero t :: st))
    | none => (s, r.trapped)
  | .storeAt t p dims, v :: st => match takeIndices dims.length st [] with
    | some (is, st) => match arrayAt dims is with
      | some k => s.storeStep x r t p (k * elemBytes t) v st
      | none => (s.progErr x 2, r.next st)
    | none => (s, r.trapped)
  | .un op t, .num v :: st => match unVal op t.toNat v with
    | some w => (s, r.next (.num w :: st))
    | none => (s, r.trapped)
  | .bin op t, b :: a :: st => s.binStep x r op t.toNat a b st
  | .select, b :: a :: .num g :: st => (s, r.next ((if g = 0 then a else b) :: st))
  | .mux n, st => match st.drop n with
    | .num k :: rest => (s, r.next ((if k < n then st.getD (n - 1 - k) (.num 0) else .num (freeResult 11 12 k n)) :: rest))
    | _ => (s, r.trapped)
  | .limit t, .num hi :: .num v :: .num lo :: st => match binVal .max t.toNat v lo with
    | some (w, _) => match binVal .min t.toNat w hi with
      | some (y, _) => (s, r.next (.num y :: st))
      | none => (s, r.trapped)
    | none => (s, r.trapped)
  | .string op, st => match strVal op st with
    | some (v, st) => (s, r.next (v :: st))
    | none => (s, r.trapped)
  | .convert t u, a :: st => s.convStep x r t u a st
  | .system v, st => (s, r.next (.num (sysVal x v) :: st))
  | .block k p, st => match s.progWords x p 3 with
    | some ws => match blockVal k (x.time % 2 ^ 64) ⟨ws.getD 0 0, ws.getD 1 0, ws.getD 2 0⟩ st with
      | some (y, rest, outs) => (s.putWords x p [y.a, y.b, y.c], r.next (outs.reverse ++ rest))
      | none => (s, r.trapped)
    | none => (s, r.trapped)
  | .chart c, _ => s.chartStep x r c
  | .jump dest, st => (s, r.jump dest st)
  | .unless dest, .num v :: st => (s, if v = 0 then r.jump dest st else r.next st)
  | .loopEnter n, st => (s, { r.next st with loops := (n, 0) :: r.loops })
  | .loopNext exit, st => match r.loops with
    | (n, k) :: ls =>
      if 16 * n ≤ k then (s.progErr x 3, { r.jump exit st with loops := ls })
      else (s, { r.next st with loops := (n, k + 1) :: ls })
    | [] => (s, r.trapped)
  | .loopLeave, st => match r.loops with
    | _ :: ls => (s, { r.next st with loops := ls })
    | [] => (s, r.trapped)
  | .barrier, st => (s, { r.next st with halt := .barrier })
  | .send cell box p len, _ => s.sendStep x r cell.val box.val p len.toNat
  | .receive box p room, _ => s.receiveStep x r box.val p room.toNat
  | _, _ => (s, r.trapped)

/-! ### Partitions, tasks and cycles (R275) -/

/-- The steps a cell could take in a thousand years: more than any execution that ends. -/
def progFuel : Nat := 2 ^ 64

/-- A partition runs to its next barrier, its end or a trap. -/
def State.progRun (x : ProgCtx) : Nat → State → Run → State × Run
  | 0, s, r => (s, r)
  | n + 1, s, r =>
    if r.halt ≠ .going then (s, r)
    else match x.dp.steps[r.pc]? with
      | none => (s, { r with halt := .done })
      | some i =>
        let y := s.progStep x r i
        State.progRun x n y.1 y.2

/-- Each partition of a task runs to its next barrier. -/
def State.progLeg (s : State) (rs : List (ProgCtx × Run)) : State × List (ProgCtx × Run) :=
  rs.foldl (fun acc x =>
    let y := State.progRun x.1 progFuel acc.1 x.2
    (y.1, acc.2 ++ [(x.1, y.2)])) (s, [])

/-- The cells of a task run from barrier to barrier, until none waits at one. -/
def State.progTask : Nat → State → List (ProgCtx × Run) → State × List (ProgCtx × Run)
  | 0, s, rs => (s, rs)
  | n + 1, s, rs =>
    let y := s.progLeg rs
    if y.2.any (fun x => decide (x.2.halt = .barrier)) then
      State.progTask n y.1 (y.2.map (fun x => if x.2.halt = .barrier then (x.1, { x.2 with halt := .going }) else x))
    else y

/-- Task `d` executes in cycle `n` of lane `l` (R275, R276, R280, R293): its partitions run, except in a cell that has faulted in this cycle; its
PROG_VARs are staged as they then stand, and the cells that trapped are added to those faulted. -/
def State.taskRun (s : State) (l : Lane) (i : ProgImage) (n : Nat) (d : TaskDesc) : State :=
  let c := s.cyc l
  let t := d.task.val
  let ps := (s.taskParts l t).filter (fun a => !c.empty.contains a.host)
  let kind := s.fget (cycB l) CYC_STATUS_START_KIND
  let rs := ps.filterMap (fun a => (partOf i t a.home).map (fun p =>
    ((⟨l, d, p, a, n, (s.tickRec n).time, c.first.contains (t, a.home), c.late, kind⟩ : ProgCtx), Run.start)))
  let y := State.progTask progFuel s rs
  let bad := (y.2.filter (fun x => decide (x.2.halt = .trap))).map (fun x => x.1.at_.host)
  let c1 := y.1.cyc l
  let read := (i.boxes.filter (fun b => b.receiver == d.task)).map (fun b => (b.cell.val, b.box.val))
  let mine := y.1.points.filter (fun q => q.2.ptype == 3 && q.2.task == t)
  y.1.setCyc l { c1 with staged := mine.foldl (fun st q => tabPut st q.1 (nat0 c1.vars q.1)) c1.staged, first := c1.first.filter (fun x => x.1 != t), fresh := c1.fresh.filter (fun x => !read.contains x), empty := c1.empty ++ bad }

/-- Does task `a` run before task `b` in a cell: by PRIORITY, then by number (R275)? -/
def taskBefore (a b : TaskDesc) : Bool :=
  decide (a.prio.toNat < b.prio.toNat) || (a.prio.toNat == b.prio.toNat && decide (a.task.val ≤ b.task.val))

/-- A task put into its place. -/
def taskInsert (d : TaskDesc) : List TaskDesc → List TaskDesc
  | [] => [d]
  | e :: r => if taskBefore e d then e :: taskInsert d r else d :: e :: r

/-- Tasks by PRIORITY, then by number (R275). -/
def taskOrder (ds : List TaskDesc) : List TaskDesc := ds.foldl (fun r d => taskInsert d r) []

/-- The tasks that lane `l` runs in cycle `n`. -/
def State.dueTasks (s : State) (l : Lane) (i : ProgImage) (n : Nat) : List TaskDesc :=
  taskOrder (i.tasks.filter (fun d => dueIn i d n && s.taskRuns l d.task.val))

/-- Everything due in cycle `n` of lane `l` is computed (R275). -/
def State.cycleRun (s : State) (l : Lane) (n : Nat) : State :=
  match s.image with
  | none => s
  | some i => (s.dueTasks l i n).foldl (fun s d => s.taskRun l i n d) s

end Sys2Proof.Machine
end

