-- ==== Sys2Proof/Machine/Pliak.lean ====
section
/-! DEFINITION. The Pliak operations on sessions, tags and the event queue, and what becomes of packets the module does not
accept (chapter "Pliak command packets"). -/

namespace Sys2Proof.Machine
open Sys2Proof

/-- The datagram that a transport brings: on the doorbell the one in the request buffer, while it is BUSY (R118). -/
def State.arrived (s : State) (t : Transport) (d : List Byte) : Option (List Byte) :=
  if t = .doorbell then (if s.fget 0 CAB_STATUS_DB_STATE = 1 then some s.dbPacket else none) else some d

/-- A malformed datagram is dropped and counted (R79); the doorbell goes back to IDLE (R118). A datagram that R79 does not drop is no command of
this row and changes nothing. -/
def execPliakDatagramDropped (transport : Transport) (datagram : List Byte) (s : State) : Host.Outcome State Fault Refusal :=
  if s.pwr.refclkLost then .next s else
  .next (if !s.reached transport then s
    else match s.arrived transport datagram with
    | some d => if packetMalformed d then s.dropPacket transport else s
    | none => s)

/-- A secure packet that names no open session or fails its ICV (R86). Any other datagram is no command of this row and changes nothing. -/
def execPliakAuthFail (transport : Transport) (datagram : List Byte) (s : State) : Host.Outcome State Fault Refusal :=
  if s.pwr.refclkLost then .next s else
  .next (if !s.reached transport then s
    else match s.arrived transport datagram with
    | some d => if !packetMalformed d && packetSecure d && !s.authentic d then s.authFail transport else s
    | none => s)

def keySlotB (n : Nat) : Nat := 0x35000 + 0x10 * n

/-- The attributes of key slot `n`, STATE included (R498, R507). -/
def State.keyAttr (s : State) (n : Nat) : Nat := s.fget (keySlotB n) KEY_SLOT_ATTR

/-- The STATE field of ATTR (R498): 0 EMPTY, 1 LOADED, 2 ORPHANED, 3 FIXED. -/
def State.keyState (s : State) (n : Nat) : Nat := s.keyAttr n / 0x40000000

/-- The owning gallery in ATTR (R498). -/
def attrOwner (a : Nat) : Nat := a / 0x1000000 % 64

/-- The keys K_S2M and K_M2S of a session (R81), with the ASCII labels "pliak s2m" and "pliak m2s". -/
def sessionKeys (key nonceS nonceM : List Byte) (id g : Nat) : List Byte × List Byte :=
  let prk := hkdfExtract (nonceS ++ nonceM) key
  let tail := beBytes 4 id ++ beBytes 1 g
  (hkdfExpand prk (beBytes 9 0x706C69616B2073326D ++ tail), hkdfExpand prk (beBytes 9 0x706C69616B206D3273 ++ tail))

/-- The first identity from `c` on that is not in `used`, within 0x0000_0001–0xFFFF_FFFE (R82). -/
def pickId (used : List Nat) : Nat → Nat → Nat
  | 0, c => c
  | n + 1, c => if used.contains c then pickId used n (if c ≥ 0xFFFFFFFE then 1 else c + 1) else c

/-- A datagram came over an uplink. -/
def onUplink : Transport → Bool
  | .uplinkA _ | .uplinkB _ => true
  | _ => false

/-- Why a SESSION_OPEN for gallery `g` is refused, if it is (R82, R83, R133). -/
def State.openRefused (s : State) (g : Nat) (t : Transport) (vid : Option (BitVec 12)) : Option Res :=
  let a := s.keyAttr (64 + g)
  if g > 63 then some .noSuchObject
  else if s.keyState (64 + g) = 0 then some .keyEmpty
  else if s.keyState (64 + g) = 2 then some .keyOrphaned
  else if !a.testBit 2 || attrOwner a != g then some .keyAttr
  else if !s.galEn g then some .noSuchObject
  else if s.sessions.length ≥ 64 then some .busy
  else if (s.sessions.filter (fun x => x.gallery == g)).length ≥ s.fget (galB g) HG_GAL_LIVE_MAX_SESSIONS then some .busy
  else if g ≠ 0 ∧ s.fbit (galB g) HG_GAL_LIVE_VLAN_LOCK ∧
      ¬(onUplink t ∧ vid.map BitVec.toNat = some (s.fget (galB g) HG_GAL_LIVE_VID)) then some .denied
  else none

/-- Four free words as sixteen bytes of a packet. -/
def State.free16 (s : State) : List Byte × State :=
  let r0 := s.free
  let r1 := r0.2.free
  let r2 := r1.2.free
  let r3 := r2.2.free
  (beBytes 4 r0.1.toNat ++ beBytes 4 r1.1.toNat ++ beBytes 4 r2.1.toNat ++ beBytes 4 r3.1.toNat, r3.2)

/-- The body of the SESSION_OPEN reply after STATUS (R80, R83, R133): a refusal under R83 or R133 has zero SESSION_ID, NONCE_M and PROOF, and one at
64 sessions (R82), like one for its LENGTH, STATUS alone. -/
def State.openRefusal (s : State) (l : Lane) (r : Res) (zeros : Bool) (t : Transport) (tag : Nat) : State :=
  let b := beBytes 4 (s.statusClear l r) ++ (if zeros then List.replicate 36 0 else [])
  s.sendReply t false 0 0 tag 1 b (packetHeader 0x80 0 0 tag 1 b.length ++ b)

/-- The session that a SESSION_OPEN creates, and its answer (R81–R84): SESSION_ID and NONCE_M are free values, the keys and PROOF follow from them,
the supervisor's nonce and the gallery key. -/
def State.openSession (s : State) (l : Lane) (g : Nat) (nonceS : List Byte) (tag : Nat) (t : Transport) : State :=
  let w := s.free
  let id := pickId s.usedIds (s.usedIds.length + 1) (1 + w.1.toNat % 0xFFFFFFFE)
  let nm := w.2.free16
  let ks := sessionKeys (s.slotKey (64 + g)) nonceS nm.1 id g
  let s1 : State := { nm.2 with sessions := nm.2.sessions ++ [⟨id, g, false, 60, s.now, 0, 0, 0, t, false, ks.1, ks.2⟩], usedIds := id :: nm.2.usedIds }
  let st := beBytes 4 (s1.statusClear l .ok)
  let h := packetHeader 0x80 id 0 tag 1 40
  let b := st ++ beBytes 4 id ++ nm.1 ++ gcmTag ks.2 (packetNonce id 0) (h ++ st ++ beBytes 4 id ++ nm.1) []
  s1.sendReply t false id 0 tag 1 b (h ++ b)

/-- The doorbell holds a SESSION_OPEN of this TAG, LENGTH, GALLERY and NONCE_S, taken and not answered yet (R118). -/
def State.dbOpen (s : State) (g : BitVec 8) (nonceS : BitVec 128) (tag length : BitVec 16) : Bool :=
  let d := s.dbPacket
  decide (s.fget 0 CAB_STATUS_DB_STATE = 1) && s.dbReply.isNone && decide (d.take 24 = packetHeader 0 0 0 tag.toNat 1 length.toNat) &&
  (length != 20 || (decide (packetNum d 24 1 = g.toNat) && decide (packetNum d 28 16 = nonceS.toNat)))

/-- SESSION_OPEN (R81–R84, R133): the clear request is checked and a session in OPENING is created. -/
def execSessionOpen (gallery : BitVec 8) (nonceS : BitVec 128) (tag length : BitVec 16) (transport : Transport) (vid : Option (BitVec 12)) (s : State) :
    Host.Outcome State Fault Refusal :=
  let g := gallery.toNat
  .next (if !s.reached transport ∨ transport = .doorbell ∧ !s.dbOpen gallery nonceS tag length then s
    else match s.answering (if g > 63 then 0 else g) with
    | none => s
    | some l =>
      if length ≠ 20 then s.openRefusal l .badLength false transport tag.toNat
      else match s.openRefused g transport vid with
        | some r =>
          let full := decide (r = .busy ∧ s.sessions.length ≥ 64)
          let s0 := if r = .keyEmpty ∨ r = .keyOrphaned ∨ r = .keyAttr then s.finc 0 KEY_REFUSE_CNT else s
          let s1 := if full then s0.event 505 0 false 0 else s0
          s1.openRefusal l r (!full) transport tag.toNat
        | none => s.openSession l g (beBytes 16 nonceS.toNat) tag.toNat transport)

/-- SESSION_CONFIRM (R84, R85): sets the idle time and moves an OPENING session to ESTABLISHED. DESIGN CHOICE (log entry 96): the spec gives no
result for one in a session already ESTABLISHED, which is answered STATE. -/
def execSessionConfirm (r : Req) (idle : BitVec 16) (s : State) : Host.Outcome State Fault Refusal :=
  .next (s.serve r 2 4 (fun s x _ =>
    let n := idle.toNat
    if x.established then s.ans .state
    else if n ≠ 0 ∧ (n < 10 ∨ n > 3600) then s.ans .range
    else (s.setSession { x with established := true, idle := if n = 0 then 60 else n }).ans .ok))

/-- SESSION_CLOSE (R84, R85): it is in flight until the session's other operations have been answered; its own reply is last, and the session
closes. -/
def execSessionClose (r : Req) (s : State) : Host.Outcome State Fault Refusal :=
  let id := r.session.toNat
  let s1 := s.serve r 3 0 (fun s x _ =>
    let s1 := s.setSession { x with closing := true }
    ⟨{ s1 with flights := s1.flights ++ [⟨x.id, r.tag.toNat, 3, r.transport, true⟩] }, none⟩)
  .next (match (s1.holder id).bind (fun x => s1.answering x.gallery) with
    | some l => s1.settle id l
    | none => s1)

/-- 5 s in OPENING without SESSION_CONFIRM: the session closes (R84). -/
def execSessionOpenTimeout (session : BitVec 32) (s : State) : Host.Outcome State Fault Refusal :=
  if s.pwr.refclkLost then .next s else
  .next (match s.session? session.toNat with
    | some x => if x.established then s else s.closeSession x.id
    | none => s)

/-- No authenticated packet for the idle time: the session closes (R84). -/
def execSessionIdleTimeout (session : BitVec 32) (s : State) : Host.Outcome State Fault Refusal :=
  if s.pwr.refclkLost then .next s else
  .next (match s.session? session.toNat with
    | some x => if x.established then s.closeSession x.id else s
    | none => s)

/-- NOP returns the number of the current cycle (R97); a packet with an opcode that R97 does not list is answered
BAD_OPCODE. A listed opcode other than NOP's is no command of this row and changes nothing. -/
def execNop (r : Req) (opcode : BitVec 16) (s : State) : Host.Outcome State Fault Refusal :=
  .next (if opcode ≠ 4 ∧ opcodes.contains opcode.toNat then s
    else s.serve r opcode.toNat 0 (fun s _ _ => s.ansB .ok (beBytes 4 s.tickNo)))

/-- ABORT (R94): an operation of the session accepted and not started is answered CANCELLED. -/
def execAbort (r : Req) (target : BitVec 16) (s : State) : Host.Outcome State Fault Refusal :=
  .next (s.serve r 5 4 (fun s x l =>
    match s.flights.find? (fun f => f.session == x.id && f.tag == target.toNat) with
    | none => s.ans .noSuchObject
    | some f =>
      if f.started then s.ans .state
      else
        let s1 : State := { s with flights := s.flights.erase f, keyQ := s.keyQ.filter (fun k => !(k.session == x.id && k.tag == f.tag)) }
        (s1.replyTo x f.transport f.tag f.opcode l .cancelled []).ans .ok))

/-- IDENTIFY returns the identity words and the system address (R97, R538). -/
def execIdentify (r : Req) (s : State) : Host.Outcome State Fault Refusal :=
  .next (s.serve r 0x10 0 (fun s _ _ =>
    let w (a : Nat) := beBytes 4 (s.rd a).toNat
    s.ansB .ok (w 0x000 ++ w 0x004 ++ w 0x008 ++ w 0x00C ++ w 0x020 ++ beBytes 4 ((s.rd 0x024).toNat % 0x10000))))

/-- Is SEQ `a` at or after `b`, modulo 2^32 within the span the queue holds (R106)? -/
def seqAtOrAfter (a b : Nat) : Bool := (a + 0x100000000 - b) % 0x100000000 < 0x80000000

/-- An entry as EVENT_READ carries it (R103). -/
def EvEntry.bytes (e : EvEntry) : List Byte :=
  beBytes 4 e.seq ++ beBytes 2 (e.gallery * 1024 + e.source) ++
  [BitVec.ofNat 8 ((if e.urgent then 0x80 else 0) + (if e.ackOwner then 0x40 else 0) + (if e.ackOp then 0x20 else 0)),
   BitVec.ofNat 8 e.rep] ++ beBytes 4 e.data ++ beBytes 4 e.time

/-- EVENT_READ returns the visible entries from FROM on, in SEQ order, up to MAX of them (R104, R106). -/
def execEventRead (r : Req) (start : BitVec 32) (max opt : BitVec 8) (s : State) : Host.Outcome State Fault Refusal :=
  .next (s.serve r 0x30 8 (fun s x _ =>
    let n := max.toNat
    let frm := start.toNat
    if n = 0 ∨ n > 64 then s.ans .range
    else
      let vis := s.events.filter (fun e => e.visible x.gallery && seqAtOrAfter e.seq frm &&
        (!opt.getLsbD 0 || e.unmarked x.gallery))
      let got := vis.take n
      let nxt := match got.getLast? with
        | some e => seqAfter e.seq
        | none => frm
      let gap := match s.events.head? with
        | some e => e.seq != frm && seqAtOrAfter e.seq frm
        | none => false
      s.ansB .ok (beBytes 4 nxt ++ beBytes 1 got.length ++ beBytes 1 (if gap then 1 else 0) ++ beBytes 2 0 ++
        (got.map EvEntry.bytes).flatten)))

/-- Set the mark of gallery `g` on an entry (R104): for an entry of gallery 0, both marks. -/
def EvEntry.ack (e : EvEntry) (g : Nat) : EvEntry :=
  if g = 0 then { e with ackOp := true, ackOwner := e.ackOwner || e.gallery == 0 } else { e with ackOwner := true }

/-- EVENT_ACK sets the session's mark on each listed entry (R107). -/
def execEventAck (r : Req) (count : BitVec 8) (seqs : List (BitVec 32)) (s : State) : Host.Outcome State Fault Refusal :=
  let n := count.toNat
  let bad := n = 0 ∨ n > 64
  .next (s.serve r 0x31 (if bad then r.length.toNat else 4 + 4 * n) (fun s x _ =>
    if bad then s.ans .range
    else
      let seen (q : BitVec 32) : Bool := s.events.any (fun e => e.seq == q.toNat && e.visible x.gallery)
      let s1 : State := { s with events := s.events.map (fun e =>
        if seqs.any (fun q => q.toNat == e.seq) && e.visible x.gallery then e.ack x.gallery else e) }
      s1.ansB (if seqs.all seen then .ok else .partial_)
        (beBytes 1 n ++ beBytes 3 0 ++ (seqs.map (fun q => beBytes 2 (if seen q then 0 else 0x10))).flatten ++
          (if n % 2 = 1 then beBytes 2 0 else []))))

/-- An operation that has not completed by its bound is answered TIMEOUT at the bound (R112); it may complete later, without
a further answer. -/
def execOperationTimeout (session : BitVec 32) (tag : BitVec 16) (s : State) : Host.Outcome State Fault Refusal :=
  .next (match s.flights.find? (fun f => f.session == session.toNat && f.tag == tag.toNat) with
    | some f => s.answerFlight f .timeout []
    | none => s)

/-- A rate-limit window ends; a source that counts is then raised once with its count (R549). -/
def execRateLimitWindowEnd (source : Fin 640) (obj : Nat) (s : State) : Host.Outcome State Fault Refusal :=
  if s.pwr.refclkLost then .next s else
  .next (match s.rates.find? (fun w => w.is source.val obj) with
    | none => s
    | some w =>
      let s1 : State := { s with rates := s.rates.filter (fun v => !RateWin.is v source.val obj) }
      if w.counts then s1.event w.source w.gallery w.urgent w.word else s1)

end Sys2Proof.Machine
end

