-- ==== Sys2Proof/Machine/KeyOps.lean ====
section
/-! DEFINITION. The key store: the key tree, loading and invalidating, and what a power-on finds (R494–R507). -/

namespace Sys2Proof.Machine
open Sys2Proof

/-- A slot's generation (R500). -/
def State.keyGen (s : State) (n : Nat) : Nat := s.fget (keySlotB n) KEY_SLOT_GEN

/-- A slot's parent; 0xFF for none. -/
def State.keyParent (s : State) (n : Nat) : Nat := s.fget (keySlotB n) KEY_SLOT_LINK_PARENT

/-- The generation after `g` (R500). -/
def genAfter (g : Nat) : Nat := if g = 0xFFFFFFFF then 1 else g + 1

/-- Slots without a parent, which are never orphaned (R501). -/
def keyTop (n : Nat) : Bool := n == 0 || n == 2 || n == 3

/-- Is a slot ORPHANED (R501)? An orphaned slot stays so until it is loaded again. `fuel` bounds the walk. -/
def State.keyOrphan (s : State) : Nat → Nat → Bool
  | 0, _ => false
  | fuel + 1, n =>
    if keyTop n || s.keyState n == 0 then false
    else
      let p := s.keyParent n
      s.keyState n == 2 || decide (p > 127) || s.keyState p == 0 || s.keyGen p != s.fget (keySlotB n) KEY_SLOT_PGEN || s.keyOrphan fuel p

/-- Does the chain of parents of `n` reach slot `t` (R499)? -/
def State.keyReaches (s : State) (t : Nat) : Nat → Nat → Bool
  | 0, _ => false
  | fuel + 1, n => n == t || (decide (n ≤ 127) && s.keyReaches t fuel (s.keyParent n))

/-- `KEY_STATUS` counts the slots ORPHANED and those LOADED or FIXED (R507). -/
def State.keyCount (s : State) : State :=
  let c (f : Nat → Bool) : Nat := ((List.range 128).filter f).length
  (s.fset 0 KEY_STATUS_ORPHANED (c (fun n => s.keyState n == 2))).fset 0 KEY_STATUS_LOADED
    (c (fun n => s.keyState n == 1 || s.keyState n == 3))

/-- Slots that the state of the tree orphans now: their STATE reads ORPHANED (R498, R501). The answer names them. -/
def State.keyJudge (s : State) : State × List Nat :=
  let new := (List.range 128).filter (fun n => s.keyState n != 2 && s.keyOrphan 9 n)
  ((new.foldl (fun s n => s.fset (keySlotB n) KEY_SLOT_ATTR (s.keyAttr n % 0x40000000 + 0x80000000)) s).keyCount, new)

/-- A slot is written (R498, R507). -/
def State.keyWrite (s : State) (n attr gen parent depth pgen : Nat) : State :=
  let b := keySlotB n
  ((((s.fset b KEY_SLOT_ATTR attr).fset b KEY_SLOT_GEN gen).fset b KEY_SLOT_LINK_PARENT parent).fset b KEY_SLOT_LINK_DEPTH depth).fset b
    KEY_SLOT_PGEN pgen

/-- The key that a KEY_LOAD gives (R499): unwrapped under the parent's key, or derived from it with WRAPPED as INFO. -/
def State.keyLoaded (s : State) (k : KeyOp) : List Byte :=
  if k.attr / 0x10000 % 4 = 0 then (keyUnwrap (s.slotKey k.parent) k.wrapped).getD [] else hkdfExpand (s.slotKey k.parent) k.wrapped

/-- The key `v` goes into slot `n`; an empty list is none. -/
def State.keyPut (s : State) (n : Nat) (v : List Byte) : State := { s with keys := tabSet (fun _ => []) s.keys n v }

/-- A slot is emptied. -/
def State.keyEmptied (s : State) (n gen : Nat) : State := (s.keyWrite n 0 gen 0xFF 0 0).keyPut n []

/-- Slot and generation in the data words of events 624 and 625. -/
def State.keyData (s : State) (n : Nat) : Nat := n * 0x1000000 + s.keyGen n % 0x1000000

/-- Why an operation on the key store is refused at its start, if it is (R499), in the order of R499. -/
def State.keyRefused (s : State) (k : KeyOp) : Option Res :=
  let served := match s.mode with
    | .paired | .wide | .service => true
    | _ => false
  if !served then some .state
  else if k.slot < 4 ∨ 127 < k.slot then some .range
  else if !k.load then none
  else
    let a := k.attr
    let pa := s.keyAttr k.parent
    let owner := attrOwner a
    if a / 0x40000000 ≠ 0 ∨ a / 0x40000 % 64 ≠ 0 ∨ a / 32 % 2048 ≠ 0 ∨ a / 0x10000 % 4 ≥ 2 ∨ a % 32 = 0 ∨ a.testBit 3 then some .range
    else if k.parent = 0 ∨ 127 < k.parent ∨ s.keyReaches k.slot 128 k.parent ∨
        s.fget (keySlotB k.parent) KEY_SLOT_LINK_DEPTH + 1 > 8 then some .range
    else if s.keyState k.parent = 0 then some .keyEmpty
    else if s.keyOrphan 9 k.parent then some .keyOrphaned
    else if !(if a / 0x10000 % 4 = 0 then pa.testBit 4 else pa.testBit 2) then some .keyAttr
    else if (owner ≠ attrOwner pa ∧ attrOwner pa ≠ 0) ∨ (64 ≤ k.slot ∧ (owner ≠ k.slot - 64 ∨ !a.testBit 2)) then some .keyAttr
    else if a / 0x10000 % 4 = 0 ∧ (keyUnwrap (s.slotKey k.parent) k.wrapped).isNone then some .verifyFailed
    else if s.fbit 0 ALLOC_ENTRY_STATUS_PFW then some .hwFault
    else none

/-- The flight of a key operation, if it still is in flight. -/
def State.keyFlight (s : State) (k : KeyOp) : Option Flight := s.flights.find? (fun f => f.session == k.session && f.tag == k.tag)

/-- A key operation is answered. -/
def State.keyReply (s : State) (k : KeyOp) (r : Res) (body : List Byte) : State :=
  match s.keyFlight k with
  | some f => s.answerFlight f r body
  | none => s

/-- A refusal is counted (R507), and a failed unwrap raises event 627. -/
def State.keyRefuse (s : State) (k : KeyOp) (r : Res) : State :=
  let s1 := match r with
    | .keyEmpty | .keyOrphaned | .keyAttr => s.finc 0 KEY_REFUSE_CNT
    | .verifyFailed => (s.finc 0 KEY_UNWRAP_FAIL).event 627 0 true (k.slot * 0x1000000 + k.parent * 0x10000)
    | _ => s
  s1.keyReply k r []

/-- The oldest operation starts: it is refused, or answered at once (the invalidation of an empty slot), and the next one
starts; otherwise its write to the key area is under way (R503). `n` bounds the operations served. -/
def State.keyNext (s : State) : Nat → State
  | 0 => s
  | n + 1 => match s.keyQ with
    | [] => s
    | k :: rest =>
      let s0 : State := { s with keyQ := rest }
      match s.keyRefused k with
      | some r => (s0.keyRefuse k r).keyNext n
      | none =>
        if !k.load && s.keyState k.slot == 0 then (s0.keyReply k .ok (beBytes 4 (s.keyGen k.slot))).keyNext n
        else if s.fbit 0 ALLOC_ENTRY_STATUS_PFW then (s0.keyRefuse k .hwFault).keyNext n
        else { s with flights := s.flights.map (fun f => if f.session == k.session && f.tag == k.tag then { f with started := true } else f) }

/-- A key operation is accepted; operations run one at a time in the order of acceptance (R93, R503). -/
def State.keyAccept (s : State) (f : Flight) (k : KeyOp) : State :=
  let s1 : State := { s with flights := s.flights ++ [f], keyQ := s.keyQ ++ [k] }
  if s.keyQ.isEmpty then s1.keyNext 1 else s1

/-- Sessions of a gallery close by a key change; event 506 carries their number (R84). Those with operations in flight still answer these (R85). -/
def State.keyClose (s : State) (g : Nat) : State :=
  let mine := s.sessions.filter (fun x => x.gallery == g)
  if mine.isEmpty then s else (s.closeSessions (fun x => x.gallery == g)).event 506 g false mine.length

/-- New contents come into force (R503, t3 to t5). -/
def State.keyApply (s : State) (k : KeyOp) : State :=
  let gen := genAfter (s.keyGen k.slot)
  let s1 := if k.load then (s.keyWrite k.slot (k.attr + 0x40000000) gen k.parent (s.fget (keySlotB k.parent) KEY_SLOT_LINK_DEPTH + 1)
      (s.keyGen k.parent)).keyPut k.slot (s.keyLoaded k)
    else s.keyEmptied k.slot gen
  let r := s1.keyJudge
  let s2 := (r.1.finc 0 KEY_OP_CNT).event (if k.load then 624 else 625) 0 false (r.1.keyData k.slot)
  let s3 := if r.2.isEmpty then s2 else s2.event 626 0 true (k.slot * 0x1000000 + r.2.length)
  let s4 := s3.keyReply k .ok (beBytes 4 gen)
  ((k.slot :: r.2).filter (fun n => 64 ≤ n)).foldl (fun s n => s.keyClose (n - 64)) s4

/-- The key area at t8 of a power-on (R496, R497, R504). -/
def State.keyPowerOn (s : State) (r : PowerReads) : State :=
  let s0 := (List.range 128).foldl (fun s n => if s.keyState n == 2 then
    s.fset (keySlotB n) KEY_SLOT_ATTR (s.keyAttr n % 0x40000000 + (if n = 1 then 0xC0000000 else 0x40000000)) else s) s
  let s1 := if r.fuseOk then (s0.fset 0 KEY_STATUS_ROOT_OK 1).fset (keySlotB 0) KEY_SLOT_ATTR (keyReset 0 0)
    else ((s0.fset 0 KEY_STATUS_ROOT_OK 0).fset (keySlotB 0) KEY_SLOT_ATTR 0).event 628 0 true 0x1000000
  let s2 := r.keysBad.foldl (fun s e =>
    (s.keyEmptied e.1.val (match e.2 with
      | some g => genAfter g.toNat
      | none => 1)).event 628 0 true (0x2000000 + e.1.val)) s1
  let s3 := (s2.fsetB 0 KEY_STATUS_STORE_OK r.keysBad.isEmpty).keyJudge.1
  if (s3.keyState 64 == 0 || s3.keyState 64 == 2) && s3.keyState 1 == 3 then
    let s4 := (s3.keyWrite 64 0x40020004 (genAfter (s3.keyGen 64)) 1 2 (s3.keyGen 1)).keyPut 64 []
    (s4.keyJudge.1).event 624 0 false (s4.keyData 64)
  else s3

end Sys2Proof.Machine
end

