-- ==== Sys2Proof/Machine/RtcOps.lean ====
section
/-! DEFINITION. The calendar clock and the cistern: the calendar as dates, the oscillator-stopped flag, the switch-over to the coin cell
and the loss of the backup domain (R471–R481). -/

namespace Sys2Proof.Machine
open Sys2Proof

/-! ### The calendar (R471) -/

/-- Seconds of the calendar's range, 2000-01-01 00:00:00 to 2199-12-31 23:59:59. -/
def calRange : Nat := 73049 * 86400

/-- Is 2000 + y a leap year, within the range? -/
def leapYear (y : Nat) : Bool := y % 4 == 0 && y != 100

/-- Days from 2000-01-01 to 1 January of 2000 + y. -/
def daysBefore (y : Nat) : Nat := 365 * y + (y + 3) / 4 - (if y > 100 then 1 else 0)

/-- The lengths of the months. -/
def monthDays (leap : Bool) : List Nat := [31, if leap then 29 else 28, 31, 30, 31, 30, 31, 31, 30, 31, 30, 31]

/-- The month (from 1) and the day (from 1) of a day of the year. -/
def monthOf : List Nat → Nat → Nat → Nat × Nat
  | [], m, d => (m, d + 1)
  | n :: ns, m, d => if d < n then (m, d + 1) else monthOf ns (m + 1) (d - n)

/-- A date: years since 2000, month and day. -/
def dateOf (day : Nat) : Nat × Nat × Nat :=
  let y0 := day / 366
  let y := if daysBefore (y0 + 1) ≤ day then y0 + 1 else y0
  (y, monthOf (monthDays (leapYear y)) 1 (day - daysBefore y))

/-- Days from 2000-01-01 to a date. -/
def dayOf (y m d : Nat) : Nat := daysBefore y + ((monthDays (leapYear y)).take (m - 1)).foldl (fun a n => a + n) 0 + (d - 1)

/-- The word of `RTC_SNAP_SEC` for a calendar value and its sub-second. -/
def calSec (secs sub : Nat) : Nat := secs % 60 * 0x10000 + sub

/-- The words of `RTC_SNAP_MIN` to `RTC_SNAP_YEAR` (without EXPIRED) for a calendar value, by index 1–5. -/
def calWord (secs i : Nat) : Nat :=
  let day := secs / 86400
  let d := dateOf day
  match i with
  | 1 => secs / 60 % 60
  | 2 => secs / 3600 % 24
  | 3 => ((day + 5) % 7 + 1) * 0x100 + d.2.2
  | 4 => d.2.1
  | _ => 2000 + d.1

/-- The seconds that `RTC_SET_LO` and `RTC_SET_HI` name, if they hold a valid date and time (R473). -/
def State.calSet (s : State) : Option Nat :=
  let sec := s.fget 0 RTC_SET_LO_SEC
  let min := s.fget 0 RTC_SET_LO_MIN
  let hour := s.fget 0 RTC_SET_LO_HOUR
  let d := s.fget 0 RTC_SET_LO_DAY
  let m := s.fget 0 RTC_SET_HI_MONTH
  let y := s.fget 0 RTC_SET_HI_YEAR
  if 2000 ≤ y ∧ y ≤ 2199 ∧ 1 ≤ m ∧ m ≤ 12 ∧ 1 ≤ d ∧ d ≤ (monthDays (leapYear (y - 2000))).getD (m - 1) 0 ∧ hour < 24 ∧ min < 60 ∧ sec < 60 then
    some (86400 * dayOf (y - 2000) m d + 3600 * hour + 60 * min + sec)
  else none

/-- The calendar takes a value with a sub-second of zero. -/
def State.calLoad (s : State) (secs : Nat) : State := { s with rtc := { s.rtc with secs := secs, sub := 0, acc := 0 } }

/-- A change of the calendar as event 609 carries it: signed, saturating at 24 bits. -/
def changeData (code : Nat) (new old : Nat) : Nat :=
  code * 0x1000000 + ofSigned 24 (clampI (-0x800000) 0x7FFFFF ((new : Int) - (old : Int)))

/-! ### The oscillator-stopped flag (R476) -/

/-- A cause of the oscillator-stopped flag. Event 608 is raised at once while main power is valid, otherwise at the next power-on. -/
def State.osfSet (s : State) (cause : Nat) : State :=
  let s1 := (s.fset 0 RTC_STATUS_OSF 1).fset 0 RTC_STATUS_OSF_CAUSE cause
  if s1.pwr.mainPower then s1.event 608 0 true (cause * 0x1000000)
  else { s1 with rtc := { s1.rtc with owed := some cause } }

/-- The flag is cleared, and the first switch-over stamp with it. -/
def State.osfClear (s : State) : State :=
  ((s.fset 0 RTC_STATUS_OSF 0).fset 0 RTC_FIRST_BKP 0).fset 0 RTC_STATUS_FIRST_UNTRUSTED 0

/-- The calendar passes the end of its range (R471). -/
def State.calWrap (s : State) : State := ({ s with rtc := { s.rtc with secs := 0 } } : State).osfSet 4

/-- One more second of the calendar; on the cell it counts in `RTC_BKP_TIME` (R477). -/
def State.calSecond (s : State) : State :=
  let s0 := if s.rtc.onCell then s.finc 0 RTC_BKP_TIME else s
  if s0.rtc.secs + 1 < calRange then { s0 with rtc := { s0.rtc with secs := s0.rtc.secs + 1 } } else s0.calWrap

/-- The rate of the calendar in units of 0.1 ppm of nominal: `RTC_TRIM` adds or removes counts of the sub-second divider (R474, R482). PRESUMED:
a positive trim speeds the calendar; DEDUCED: a written trim outside −2,000 to 2,000 acts as the nearer bound. -/
def State.calRate (s : State) : Nat := (10000000 + clampI (-2000) 2000 (toSigned 16 (s.fget 0 RTC_TRIM))).toNat

/-- `t` ns of the oscillator, less than a second: one count per 1/32,768 s, trimmed. It does not advance while it is stopped, nor once the domain
is lost. -/
def State.calAdvance (s : State) (t : Nat) : State :=
  if s.rtc.stopped || s.rtc.lost then s
  else
    let acc := s.rtc.acc + 32768 * t * s.calRate
    let sub := s.rtc.sub + acc / 10000000000000000
    let s1 : State := { s with rtc := { s.rtc with acc := acc % 10000000000000000, sub := sub % 32768 } }
    if sub < 32768 then s1 else s1.calSecond

/-- 40 ns pass with no command: the time that REFCLK clocks goes on, the AON domain's with it while it is out of reset, and the switch does what is
due; while REFCLK is lost both stand still and the length of the loss grows (R17, R30, R31). The calendar counts on its own oscillator (R471). -/
def State.elapse (s : State) : State :=
  (if s.pwr.refclkLost then { s with pwr := { s.pwr with lostFor := s.pwr.lostFor + 40 } }
    else ({ s with now := s.now + 40, aon := if s.pwr.aonOut then s.aon + 40 else s.aon } : State).ethClock s.now : State).calAdvance 40

/-- `RTC_STATUS.DISC`: 00 while gPTP is not available or does not discipline the clock (R474). -/
def State.rtcDisc (s : State) : Nat :=
  if s.ptpOk && s.fbit 0 RTC_CTRL_DISC_EN then s.fget 0 RTC_STATUS_DISC else 0

/-- UTC in µs since 2000-01-01 by gPTP, with the announced offset or `RTC_CTRL.UTC_OFFSET` (R474). -/
def State.utcMicros (s : State) (announced : Option (BitVec 16)) : Int :=
  let off : Int := match announced with
    | some o => o.toInt
    | none => s.fget 0 RTC_CTRL_UTC_OFFSET
  (s.ptpTime / 1000 : Nat) - 1000000 * (off + 946684800)

/-- The RTC's time in µs. -/
def State.rtcMicros (s : State) : Nat := 1000000 * s.rtc.secs + s.rtc.sub * 1000000 / 32768

/-- The calendar steps to UTC (R474, R493). -/
def State.rtcStep (s : State) (utc : Nat) : State :=
  let old := s.rtc.secs
  let s1 := (s.calLoad (utc % calRange)).fset 0 RTC_STATUS_DISC 1
  let s2 := s1.event 609 0 (decide (utc % calRange ≥ old + 60 ∨ old ≥ utc % calRange + 60)) (changeData 1 (utc % calRange) old)
  if s2.fbit 0 RTC_STATUS_OSF then s2.osfClear else s2

/-- The phase correction of a slew, 0.1 ppm: at most ±100 ppm and against `e`, so it removes `e` in no less than |e| / 100 ppm (R474). -/
def phaseTrim (e p : Int) : Int := if 0 < e then clampI (-1000) 0 p else if e < 0 then clampI 0 1000 p else 0

/-- One comparison with UTC at a whole second of gPTP time (R474). `rate` is the learnt correction of the crystal's rate and `phase` the phase
correction, whose values R474 leaves open within its bounds. -/
def State.rtcDiscipline (s : State) (announced : Option (BitVec 16)) (rate phase : BitVec 16) : State :=
  if s.ptpOk && s.fbit 0 RTC_CTRL_DISC_EN then
    let utc := s.utcMicros announced
    let e : Int := (s.rtcMicros : Int) - utc
    let s1 := s.fset 0 RTC_OFFSET (ofSigned 32 (clampI (-0x80000000) 0x7FFFFFFF e))
    if s1.fbit 0 RTC_STATUS_OSF || decide (e.natAbs > 100000) then s1.rtcStep ((utc + 500000) / 1000000).toNat
    else
      (s1.fset 0 RTC_TRIM (ofSigned 16 (clampI (-2000) 2000 (rate.toInt + phaseTrim e phase.toInt)))).fset 0 RTC_STATUS_DISC (if e.natAbs ≤ 1000 then 2 else 1)
  else s

/-! ### Switch-over, return and loss (R477, R479) -/

/-- Main-power-valid deasserts: the domain moves to the coin cell (R477). -/
def State.toCell (s : State) : State :=
  if s.rtc.onCell then s
  else
    let t := s.rtc.secs
    let s1 : State := { s with rtc := { s.rtc with onCell := true, outage := some (s.fget 0 RTC_BKP_TIME) } }
    let s2 := (s1.fset 0 RTC_LAST_BKP t).finc 0 RTC_BKP_CNT
    if s2.fget 0 RTC_FIRST_BKP = 0 then (s2.fset 0 RTC_FIRST_BKP t).fsetB 0 RTC_STATUS_FIRST_UNTRUSTED (s2.fbit 0 RTC_STATUS_OSF) else s2

/-- The registers of the backup domain (R33, R38). -/
def isBackup (a : Nat) : Bool := 0x20000 ≤ a && a ≤ 0x209FF

/-- The domain's own power-on reset after its loss (R479): the reset values hold OSF = 1 with cause 0x01. -/
def State.backupReset (s : State) : State :=
  let s1 := s.regClear isBackup
  { s1 with rtc := { s1.rtc with secs := 0, sub := 0, acc := 0, lost := false, stopped := false, frozen := false, expired := false, wasLost := true, owed := some 1, outage := some 0 } }

/-- Main-power-valid asserts: a lost domain is reset, and the return is stamped (R477, R479). -/
def State.fromCell (s : State) : State :=
  let s1 := if s.rtc.lost then s.backupReset else s
  let s2 : State := { s1 with rtc := { s1.rtc with onCell := false } }
  s2.fset 0 RTC_LAST_RETURN s2.rtc.secs

/-- The coin cell is measured (R478). -/
def State.coinCell (s : State) (mv : Nat) : State :=
  let s1 := s.fset 0 RTC_CELL_VOLTAGE mv
  if mv < 2600 then (s1.fset 0 RTC_STATUS_CELL_LOW 1).event 610 0 true mv
  else if mv ≥ 2700 then s1.fset 0 RTC_STATUS_CELL_LOW 0 else s1

/-! ### The cistern (R480, R481) -/

def cisB : Nat := 0x20800

/-- Bytes 0x000–0x1FB of the cistern. -/
def State.cisBytes (s : State) : List Byte := ((List.range 127).map (fun w => leBytes 4 (s.rd (cisB + 4 * w)).toNat)).flatten

/-- The cistern is judged (R481). -/
def State.cisJudge (s : State) : State :=
  let c := s.fget 0 CISTERN_CHECK
  s.fsetB 0 RTC_STATUS_CISTERN_VALID (c != 0 && c == crc32c s.cisBytes)

/-- WCOUNT and CHECK after DATA has been written (R480). -/
def State.cisUpdate (s : State) : State :=
  let bump (s : State) : State := s.fset 0 CISTERN_WCOUNT (s.fget 0 CISTERN_WCOUNT + 1)
  let s1 := bump s
  let c := crc32c s1.cisBytes
  let s2 := if c = 0 then bump s1 else s1
  (s2.fset 0 CISTERN_CHECK (crc32c s2.cisBytes)).cisJudge

/-- At t8 of a power-on (R476, R477, R481). -/
def State.backupPowerOn (s : State) : State :=
  let lost := s.rtc.wasLost
  let s1 := if lost then (s.regClear (fun k => decide (cisB ≤ k ∧ k < 0x209FC))) else s
  let s2 := s1.cisJudge
  let s3 := match s2.rtc.owed with
    | some c => ({ s2 with rtc := { s2.rtc with owed := none } } : State).event 608 0 true (c * 0x1000000)
    | none => s2
  let s4 := if s3.fbit 0 RTC_STATUS_CISTERN_VALID then s3 else s3.event 611 0 true (if lost then 0x2000000 else 0x1000000)
  let s5 := match s4.rtc.outage with
    | some t => s4.event 612 0 false (s4.fget 0 RTC_BKP_TIME - t)
    | none => s4
  { s5 with rtc := { s5.rtc with wasLost := false, outage := none } }

end Sys2Proof.Machine
end

