-- ==== Sys2Proof/Machine/PowerOps.lean ====
section
/-! DEFINITION. Power-on, loss of power, and the clock monitors: the release sequence and what survives without power
(R28–R37, R197–R202, R304, R442, R466, R533). -/

namespace Sys2Proof.Machine
open Sys2Proof

/-! ### Loss of power (R33, R35, R201) -/

/-- The registers that survive without power: the backup domain, the key store, the recorder's stamps and full flags, and what
the SYSTEM area of the retention store and the factory hold (R33, R483, R491, R504, R530). -/
def keptReg (a : Nat) : Bool :=
  isBackup a || (0x35000 ≤ a && a < 0x35800) || a == 0x24008 || a == 0x2400C || a == 0xA0024

/-- What the kept capacitance gives at reset: V_RESERVE, and WORN below 3.50 F (R194, R205). -/
def State.sluKept (s : State) : State :=
  let c := s.fget 0 SLU_CAP_C
  (s.fset 0 SLU_LEVELS_V_RESERVE (vReserve c)).fsetB 0 SLU_STATUS_WORN (decide (c < 3500))

/-- Every domain except the backup domain loses power. What MRAM, flash and the backup domain hold stays; `torn` are the flash
pages then under program (R534). -/
def State.powerDown (s : State) (torn : List FlashPage) : State :=
  let z := State.reset
  let upd : UpdSt := { UpdSt.reset with banks := s.upd.banks, boot := s.upd.boot, siphon := s.upd.siphon, first := s.upd.first, version := s.upd.version, progSlot := s.upd.progSlot, setSlot := s.upd.setSlot, progId := s.upd.progId, retSeq := s.upd.retSeq, torn := s.upd.torn ++ torn, flashProg := s.upd.flashProg, flashSett := s.upd.flashSett }
  let s1 : State := { z with pending := s.pending, regs := s.regs.filter (fun e => keptReg e.1), mem := s.mem.filter (fun e => decide (retKey ≤ e.1)), now := s.now, freeCount := s.freeCount, sent := s.sent, rtc := { s.rtc with frozen := false, expired := false }, flow := { s.flow with work := [], stopped := [] }, energySave := s.energySave, retSet := s.retSet, retSetAt := s.retSetAt, mapOuts := s.mapOuts, upd := upd, hg := { z.hg with failLog := s.hg.failLog, exercises := s.hg.exercises } }
  let s2 := (s1.fset 0 HG_SAFE_PREV_CAUSE (s.fget 0 HG_SAFE_CAUSE)).fset 0 SLU_CAP_C (s.fget 0 SLU_CAP_C)
  let s3 := (s2.sluKept.fset 0 MTR_SEAL (s.fget 0 MTR_SEAL)).fset 0 MTR_STATUS_SEAL (s.fget 0 MTR_STATUS_SEAL)
  (s3.fset 0 FLOW_STATUS_H_FULL (s.fget 0 FLOW_STATUS_H_FULL)).fset 0 FLOW_STATUS_X_FULL (s.fget 0 FLOW_STATUS_X_FULL)

/-- Main-power-valid deasserts with the hold-up rail: the backup domain moves to the cell, the rest loses power. -/
def State.powerLost (s : State) (torn : List FlashPage) : State :=
  (({ s with pwr := { s.pwr with mainPower := false } } : State).toCell).powerDown torn

/-! ### What a power-on finds in the stores (R301, R358, R533) -/

/-- The cell map of a power-on (R304), from the fuses and the recorded map-outs: logical cells of a mapped-out position take the cluster's spare, the first that needs it; a cell left without
a position is vacant. -/
def State.cellMap (s : State) : State :=
  (List.range 16).foldl (fun s c =>
    let outs := (List.range 17).filter (fun j => s.mapOuts.contains (17 * c + j) || fusedOut c == some j)
    if outs.isEmpty then s
    else
      let lost := outs.filter (fun j => j < 16)
      let s1 := (s.fset (cluB c) CYC_CLUSTER_MAPPED_OUT (outs.foldl (fun a j => a + 2 ^ j) 0)).fset (cluB c) CYC_CLUSTER_SPARE_FREE 0
      let spare := !outs.contains 16
      lost.foldl (fun s j =>
        let n := 16 * c + j
        if spare && lost.head? == some j then (s.fset (cellB n) CYC_CELL_PHYS (17 * c + 16)).fset (cellB n) CYC_CELL_MIGRATED 1
        else (s.fset (cellB n) CYC_CELL_VACANT 1).fset (cluB c) CYC_CLUSTER_REPACKED 1) s1) s

/-- A SYSTEM item without a good copy takes its default (R533). -/
def State.sysDefault (s : State) : SysItem → State
  | .cells => { s with mapOuts := [] }
  | .failures => { s with hg := { s.hg with failLog := [], exercises := [] } }
  | .seal => ((s.fset 0 MTR_SEAL 0).fset 0 MTR_STATUS_SEAL 0).wr 0xA0024 0
  | .prevCause => s.fset 0 HG_SAFE_PREV_CAUSE 0
  | .cap => (s.wr SLU_CAP_C.off (regReset SLU_CAP_C.off)).sluKept
  | .banks => { s with upd := { s.upd with banks := [], siphon := sipIdle } }

/-- The retention store is judged (R301, R358, R533): event 591 when a copy is not good. -/
def State.retPowerOn (s : State) (r : PowerReads) : State :=
  let s1 := r.systemBad.foldl (fun s i => s.sysDefault i) s
  let n := r.copiesBad.toNat
  let s2 : State := { s1 with retSet := s1.retSet.map (fun x => { x with bad := x.bad || r.retainBad }), energySave := s1.energySave.map (fun x => { x with bad := x.bad || r.energyBad }) }
  let cyc := match s2.energySave with
    | some x => if x.bad then 0 else s2.mnat (retPage (s2.newerCopy 4 1) + 12) 4
    | none => 0
  let s3 : State := { s2 with upd := { s2.upd with retBad := n, retCycle := cyc } }
  if n = 0 ∧ r.systemBad = [] then s3
  else s3.event 591 0 (decide (r.systemBad ≠ [])) (min n 0xFFFF * 0x10000 + (if r.systemBad = [] then 1 else 2))

/-- A siphon that a power-on finds before its confirmation falls back (R526). -/
def State.sipPowerOn (s : State) : State :=
  if s.upd.siphon = sipFirst ∨ s.upd.siphon = sipPending then (s.fallbackEvent 4).fallbackBanks
  else if s.upd.siphon = Sys2Proof.Machine.sipFallback then s.fallbackBanks else s

/-- t8 of a power-on (R34, R42): event 0, and what the stores hold is taken up. -/
def State.powerOnDone (s : State) (r : PowerReads) : State :=
  let s1 := (s.event 0 0 false (min ((s.now - s.pwr.t0) / 1000) 0xFFFFFFFF)).retPowerOn r
  let s2 := s1.cellMap.energyRestore
  ((s2.backupPowerOn.flowPowerOn r.recordsBad).keyPowerOn r).sipPowerOn

/-! ### The release sequence (R34, R36, R444) -/

/-- The domains in the order of t4–t7. -/
def releaseOrder : Nat → Option Dom
  | 0 => some .switch
  | 1 => some .meter
  | 2 => some .aio
  | 3 => some .can
  | _ => none

/-- A lane is released at t8, if it is in RESET; in SAFE only the responder's processor is. -/
def State.lanesUp (s : State) : State :=
  if s.mode = .safe then
    (match s.responder with
    | some l =>
      let s1 := (s.setInReset l.dom.bit false).setDom l.dom .idle
      (match (s1.bank l (s1.bootBank l)).image with
      | some f => (s1.loadSwitch f).loadMeter f
      | none => s1)
    | none => s)
  else if s.mode = .hold ∧ s.hg.holdCause ≠ 3 then s
  else [Lane.a, Lane.b].foldl (fun s l => if s.lstate l = .reset then s.laneRelease l else s) s

/-- The next instant of t4–t8. At t8 the event of what the release ends is raised, and event 2 when REFCLK was lost (R28, R31, R42). -/
def State.releaseStep (s : State) (r : PowerReads) : State :=
  let n := s.pwr.step
  let s1 : State := { s with pwr := { s.pwr with step := n + 1 } }
  match releaseOrder n with
  | some d => let s2 := (s1.setInReset d.bit false).setDom d .idle
    if d = .meter then s2.meterUp else s2
  | none =>
    let s2 := match s.pwr.cause with
      | .powerOn => s1.powerOnDone r
      | .relock => s1.event 1 0 true (s1.fget 0 CLK_UNLOCK_CNT_COUNT)
      | .refclk => s1
    let s3 := if s2.pwr.refclkDue then ({ s2 with pwr := { s2.pwr with refclkDue := false } } : State).event 2 0 true (s2.fget 0 CLK_REFLOST_TIME) else s2
    s3.lanesUp

/-! ### Power-fail warning (R197–R200, R505) -/

/-- Key operations whose write has not begun end with HW_FAULT (R505). -/
def State.keyPfw (s : State) : State :=
  match s.keyQ with
  | [] => s
  | k :: rest =>
    let s1 : State := { s with keyQ := [k] }
    rest.foldl (fun s j => s.keyReply j .hwFault []) s1

/-- Slices under way end as skipped (R460). -/
def State.bistPfw (s : State) : State :=
  (List.range 16).foldl (fun s c => if (s.bist c).running then s.setBist c { s.bist c with running := false } else s) s

/-- PFW asserts (R197, R460, R505). -/
def State.powerFail (s : State) (cause : Nat) : State := (((s.pfwPorts cause).phyDown).keyPfw).bistPfw

/-- The save of R200 completes. -/
def State.powerSaved (s : State) (us : Nat) (ok : Bool) : State :=
  let s0 : State := { s with alloc := { s.alloc with saving := false } }
  let s1 := (s0.fset 0 PFW_LAST_SAVE_DURATION us).fsetB 0 PFW_LAST_SAVE_SAVE_OK ok
  let s2 := if us > 2000 then s1.event 42 0 true us else s1
  if ok then
    let s3 := (if s2.flowFrozen then s2 else s2.flowFlush).energyCommit true
    match s3.answering 0 with
    | some l => if s3.retainDue l || (s3.retainDue l.other && s3.mode == .wide) then s3.retainCommit l else s3
    | none => s3
  else s2

end Sys2Proof.Machine
end

