-- ==== Sys2Proof/Machine/RegRead.lean ====
section
/-! DEFINITION. Reading a register: where it lies and whether it can be reached (R12, R15–R18, R38–R40), what it shows, and
what reading it does (R17, R472). -/

namespace Sys2Proof.Machine
open Sys2Proof

/-! ### Where a register lies -/

/-- Where the register that address `a` names for lane `l` is held: lane B's own registers stand higher; the cell map is
the headgate's (R309). -/
def regKey (l : Lane) (a : Nat) : Nat := if isLaneReg a && !(0x1A0700 ≤ a && a < 0x1A0C00) then laneKey l a else a

/-- The bit in `SYS_DOMAINS.IN_RESET` of the domain of the register at `a`; none for AON, backup and lane registers (R38). -/
def regDomain (a : Nat) : Option Nat :=
  if 0x1000 ≤ a && a < 0x2000 then some 2
  else if 0x80000 ≤ a && a < 0xA0000 then some 1
  else if 0xA0000 ≤ a && a < 0xB0000 then some 3
  else if 0xB0000 ≤ a && a < 0xC0000 then some 4
  else if 0xC0000 ≤ a && a < 0xD0000 then some 5
  else if 0x100000 ≤ a && a < 0x145000 then some 2
  else none

/-- The lane blocks that SAFE holds in reset: LOOP, CYC, LUM and RED (R464). -/
def safeHeld (a : Nat) : Bool := 0x180000 ≤ a && a < 0x1C8000

/-- Is the block of the register at `a` in reset, or isolated (R15, R447)? -/
def State.regBlocked (s : State) (a : Nat) : Bool :=
  (match regDomain a with
  | some 2 => s.isolated .switch
  | some 3 => s.isolated .meter
  | some 4 => s.isolated .aio
  | some 5 => s.isolated .can
  | some d => s.inReset d
  | none => false) || (decide (s.mode = .safe) && safeHeld a)

/-- The partner-lane alias, the flowstone store window, the raw view of the retention store, and the cell memory window (R38). -/
def isAlias (a : Nat) : Bool := 0x380000 ≤ a && a < 0x3E0000
def isFlowWin (a : Nat) : Bool := 0x400000 ≤ a && a < 0x440000
def isRetWin (a : Nat) : Bool := 0x800000 ≤ a && a < 0x1000000
def isCellWin (a : Nat) : Bool := 0x1000000 ≤ a && a < 0x3000000

/-- Can the word at `a` be reached by lane `l` (R15, R38, R39, R465)? -/
def State.regJudge (s : State) (l : Lane) (a : Nat) : Res :=
  if isAlias a then
    (if (regRow? (a - 0x200000)).isNone then .noSuchObject
    else if s.inReset l.other.dom.bit then .blockInReset else .ok)
  else if isFlowWin a || isRetWin a then .ok
  else if isCellWin a then (if s.mode = .safe then .blockInReset else .ok)
  else if (regRow? a).isNone then .noSuchObject
  else if s.regBlocked a then .blockInReset
  else .ok

/-- The bytes of a cluster's region that read as zero (R40). -/
def cellHole (a : Nat) : Bool := 0x220000 ≤ a % 0x400000 && a % 0x400000 < 0x300000

/-! ### What registers show -/

/-- A bit at place `i`. -/
def bitAt (i : Nat) (b : Bool) : Nat := if b then 2 ^ i else 0

/-- The SYS and EVT blocks (R41, R110, R548); `v` is the register as held. -/
def State.sysShow (s : State) (l : Lane) (a v : Nat) : Nat :=
  match a with
  | 0x10 => s.statusCommon l
  | 0x18 => s.uptime % 0x100000000
  | 0x1C | 0x10C => nat0 s.rl a
  | 0x40000 => v + s.events.length * 0x10000 + (s.events.filter (fun e => !e.full)).length
  | 0x40004 => (s.events.getLast?.map (fun e => e.seq)).getD 0
  | 0x40008 => (s.events.head?.map (fun e => e.seq)).getD 0
  | 0x40018 => s.flights.length * 0x10000 + s.sessions.length
  | _ => v

/-- Does lane `l` fill the path bits of `HG_HB` with OK (R438)? -/
def State.hbOk (s : State) (l : Lane) (wire : Bool) : Bool :=
  decide (s.lstate l ≠ .reset) && !(if wire then (s.laneHg l).wireImp else (s.laneHg l).culvImp)

/-- `HG_LANE_x` (R438). -/
def State.laneShow (s : State) (l : Lane) (v : Nat) : Nat :=
  let hour := ((s.laneHg l).failures.filter (fun t => s.now < t + 3600000000000)).length
  fieldPut (fieldPut v 28 4 (s.lstate l).code) 16 8 (min hour 255)

/-- The domain bits of `HG_RST_CMD` (R12, R448): 1 from the write until the commanded reset has ended. -/
def State.rstRunning (s : State) : Nat :=
  ([Dom.switch, .meter, .aio, .can, .laneA, .laneB].map (fun d =>
    bitAt d.bit ((s.dom d).due || (decide ((s.dom d).phase ≠ .idle) && decide ((s.dom d).source = 5))))).foldl (fun n b => n ||| b) 0

/-- The HG block (R128, R438, R468). -/
def State.hgShow (s : State) (a v : Nat) : Nat :=
  match a with
  | 0x10000 => s.hg.hg.code * 0x20000000 + s.mode.code * 0x4000000 + s.hg.active.num * 0x2000000 + s.hg.holdCause % 8 * 0x400000 + s.degBits
  | 0x10004 => s.laneShow .a v
  | 0x10008 => s.laneShow .b v
  | 0x1000C => v / 16 % 4 * 16 + bitAt 3 (s.hbOk .b false) + bitAt 2 (s.hbOk .b true) + bitAt 1 (s.hbOk .a false) + bitAt 0 (s.hbOk .a true)
  | 0x10018 => bitAt 1 s.hg.rebalance
  | 0x11000 => v ||| s.rstRunning
  | 0x13000 => if s.applyAt.isSome then 1 else 0
  | _ =>
    if 0x12000 ≤ a && a < 0x12400 && a % 16 == 4 then
      let g := (a - 0x12000) / 16
      (s.sessions.filter (fun x => x.gallery == g)).length * 0x10000 +
        (s.points.filter (fun e => e.2.ptype != 0 && s.pointOwner e.1 == g)).length
    else v

/-- The CLK block (R32). -/
def State.clkShow (s : State) (a v : Nat) : Nat :=
  match a with
  | 0x18000 => v + bitAt 2 (!s.rtc.stopped && !s.rtc.lost) + bitAt 1 (s.pwr.aonOut && !s.pwr.refclkLost)
  | 0x18008 => if s.ptpOk then v else 0
  | _ => v

/-- The calendar's seconds and counts that the snapshot registers show: frozen, or live (R472). -/
def State.calShown (s : State) : Nat := if s.rtc.frozen then s.rtc.fsecs else s.rtc.secs

/-- The CAN block: `CANn_CMD.RECOVER` reads 1 while the controller recovers (R12, R386). -/
def State.canShow (s : State) (a v : Nat) : Nat :=
  let n := (a - 0xC0000) / 0x4000
  if a % 0x4000 = 0x18 then v ||| bitAt 1 (decide (s.canState n = cRecovering)) else v

/-- The RTC (R482). -/
def State.rtcShow (s : State) (a v : Nat) : Nat :=
  match a with
  | 0x20000 => calSec s.rtc.secs s.rtc.sub
  | 0x20004 => calWord s.calShown 1
  | 0x20008 => calWord s.calShown 2
  | 0x2000C => calWord s.calShown 3
  | 0x20010 => calWord s.calShown 4
  | 0x20014 => calWord s.calShown 5 + bitAt 31 (s.rtc.expired && !s.rtc.frozen)
  | 0x20024 => fieldPut v 26 2 s.rtcDisc
  | _ => v

/-- The recorder's status (R491). -/
def State.flowShow (s : State) (a v : Nat) : Nat :=
  if a = 0x24004 then v + s.flowUsed false * 0x10000 + s.flowUsed true else v

/-- The PORT and ALLOC blocks (R177, R205). -/
def State.portShow (s : State) (a v : Nat) : Nat :=
  if a < 0x90000 then
    let p := (a - 0x80000) / 0x400
    match a % 0x400 with
    | 0x30 => fieldPut v 16 8 (min (s.recentFaults p) 255)
    | 0x40 => fieldPut v 0 24 (s.measAge p)
    | _ => v
  else match a with
    | 0x90118 => fieldPut (fieldPut (fieldPut v 16 8 (portCount s.portShed)) 8 8 (portCount s.portPending)) 4 1 (if s.grantHold then 1 else 0)
    | 0x90120 => portMask s.portShed % 0x100000000
    | 0x90124 => portMask s.portShed / 0x100000000
    | _ => v

/-- The residue registers of the pulse outputs and the high words of the results (R362). -/
def mtrHigh (a : Nat) : Bool :=
  (0xA0100 ≤ a && a < 0xA3100 && 0x10 ≤ a % 0x100 && a % 0x100 < 0x38 && a / 4 % 2 == 1) ||
  (0xA4000 ≤ a && a < 0xA5000 && a % 0x40 < 0x10 && a / 4 % 2 == 1) ||
  (0xA5000 ≤ a && a < 0xA6000 && a % 0x40 < 0x20 && a / 4 % 2 == 1)

/-- The MTR block (R362): latched high words, and the residues of the pulse outputs. -/
def State.mtrShow (s : State) (a v : Nat) : Nat :=
  if 0xA6000 ≤ a && a < 0xA6100 then
    (match a % 0x20 with
    | 0x10 => nat0 s.energy.res ((a - 0xA6000) / 0x20) % 0x100000000
    | 0x14 => nat0 s.rl a
    | _ => v)
  else if mtrHigh a then nat0 s.rl a
  else v

/-- The AIO block (R377, R379): while a MODE change idles the terminals, nothing is driven and the loop supply is off. -/
def State.aioRegShow (s : State) (a v : Nat) : Nat :=
  if 0xB0100 ≤ a && a < 0xB1100 && decide (s.now < (s.aioX ((a - 0xB0100) / 0x100)).idleUntil) then
    (match a % 0x100 with
    | 0x10 => 0
    | 0x1C => fieldPut v 21 1 0
    | _ => v)
  else v

/-- KiB in use of `n` bytes. -/
def kib (n : Nat) : Nat := (n + 1023) / 1024

/-- The ETH blocks (R264, R265); during a rate change the link is down at the jack (R251). -/
def State.ethShow (s : State) (a v : Nat) : Nat :=
  match a with
  | 0x100008 => kib s.reservedUse * 0x10000 + kib s.sharedUse
  | 0x10004C => s.ptpTime % 1000000000
  | 0x100050 | 0x100054 => nat0 s.rl a
  | _ =>
    if 0x101000 ≤ a && a % 0x1000 == 0x8 && (s.ethX ((a - 0x100000) / 0x1000)).changing.isSome then fieldPut v 0 4 0
    else if 0x143000 ≤ a && a % 0x1000 == 0x8 then fieldPut v 0 4 (if s.ethLink ((a - 0x100000) / 0x1000) then 9 else 0)
    else if 0x101000 ≤ a && a % 0x1000 == 0x18 then
      kib (s.egressUse ((a - 0x100000) / 0x1000)) * 0x10000 + kib (s.ingressUse ((a - 0x100000) / 0x1000))
    else v

/-- Nodes accepted on ports in device state `d` of lane `l`. -/
def State.lumNodes (s : State) (l : Lane) (d : Nat) : Nat :=
  (List.range 64).foldl (fun n p => if s.dstate l p == d then n + s.accept l p else n) 0

/-- The LUM block of a lane (R238). -/
def State.lumShow (s : State) (l : Lane) (a v : Nat) : Nat :=
  match a with
  | 0x1B0004 => s.lumNodes l dsLinked * 0x10000 + s.lumNodes l dsLost
  | 0x1B0020 => portMask (fun p => s.dstate l p == dsLost) % 0x100000000
  | 0x1B0024 => portMask (fun p => s.dstate l p == dsLost) / 0x100000000
  | 0x1B003C => 0
  | _ =>
    if 0x1B0800 ≤ a && a < 0x1B1800 then
      let n := (a - 0x1B0800) / 16
      (match a % 16 with
      | 0 => nat0 (s.lum l).cmd n % 0x100000000
      | 12 => fieldPut v 16 5 (s.groupsOf n).length
      | _ => v)
    else if 0x1B2000 ≤ a && a < 0x1B2800 && a % 8 == 0 then
      let g := (a - 0x1B2000) / 8
      (s.members g).length * 0x10000 + s.groupLinked l g
    else v

/-- Does lane `l` run task `t` (R309)? -/
def State.taskHere (s : State) (l : Lane) (t : Nat) : Bool :=
  s.runsCycles l && s.taskRuns l t &&
    (match s.image with
    | some i => i.tasks.any (fun x => x.task.val == t)
    | none => false)

/-- The CYC block of a lane (R309). -/
def State.cycShow (s : State) (l : Lane) (a v : Nat) : Nat :=
  match a with
  | 0x1A0000 => s.base
  | 0x1A0008 => s.tickNo
  | 0x1A002C => s.forces.length
  | _ =>
    if 0x1A0100 ≤ a && a < 0x1A0500 && a % 16 == 0 then
      let t := (a - 0x1A0100) / 16
      fieldPut (fieldPut v 30 1 (if s.taskHere l t then 1 else 0)) 24 6 (s.taskOwner t)
    else if 0x1A0700 ≤ a && a < 0x1A0740 then fieldPut v 24 5 ((fusedOut ((a - 0x1A0700) / 4)).getD 0x1F)
    else v

/-- gPTP frames of 125 µs (R311). -/
def State.loopFrame (s : State) : Nat := s.ptpTime / 125000

/-- The LOOP block of a lane (R333): the counts are of the slots that the lane runs. -/
def State.loopShow (s : State) (l : Lane) (a v : Nat) : Nat :=
  match a with
  | 0x180004 =>
    ((List.range 1024).filter (fun q => s.loopHome q l == l && s.loopState l q == lsAuto)).length * 0x10000 +
      ((List.range 1024).filter (fun q => s.loopHome q l == l && s.loopOn l q)).length
  | 0x180014 => s.loopFrame % 0x100000000
  | 0x180018 => nat0 s.rl (laneKey l a)
  | _ => v

/-- `RED_EXER.STAGE` on lane `l` (R430, R439). -/
def State.exerStage (s : State) (l : Lane) : Nat :=
  match s.hg.exercise with
  | none => 0
  | some (3, _) => 3
  | some (_, t) => if t = l then 1 else 2

/-- `BIST_STATUS.PHASE` (R469). -/
def State.bistPhase (s : State) (l : Lane) : Nat :=
  match s.lstate l with
  | .reset | .starting => 1
  | .active | .wideRun => if s.fbit (laneKey l 0) BIST_CTRL_RUN_EN then 2 else 0
  | .serviceTest => 3
  | _ => 0

/-- The RED and BIST blocks of a lane (R439, R469). -/
def State.redShow (s : State) (l : Lane) (a v : Nat) : Nat :=
  match a with
  | 0x1C0000 => (s.lstate l).code * 0x10000000 + bitAt 27 s.current + bitAt 26 (s.hg.linkA && s.hg.linkB)
  | 0x1C0020 => s.exerStage l * 0x40000000
  | 0x1C8004 => fieldPut v 30 2 (s.bistPhase l)
  | _ => v

/-- A bank's register (R520, R536). -/
def Bank.word (b : Bank) : Nat := b.state * 0x10000000 + (match b.image with
  | some f => if b.state = 0 then 0 else f.version.toNat % 0x1000000
  | none => 0)

/-- The UPD block of a lane (R536). -/
def State.updShow (s : State) (l : Lane) (a v : Nat) : Nat :=
  match a with
  | 0x1D0000 => s.upd.siphon * 0x10000000 + bitAt 27 s.updatePending + s.upd.first.num * 0x4000000 +
      (match s.upd.xfer with
      | some x => x.kind * 0x1000000
      | none => 0) + s.bootBank l
  | 0x1D0004 => (s.bank l 0).word
  | 0x1D0008 => (s.bank l 1).word
  | 0x1D000C => fieldPut v 0 16 (match s.upd.windowEnd with
      | some t => (t - s.now + 999999999) / 1000000000
      | none => 0)
  | 0x1D0010 => match s.upd.xfer with
      | some x => x.size
      | none => 0
  | 0x1D0014 => match s.upd.xfer with
      | some x => 4 * x.words.length
      | none => 0
  | 0x1D0018 => s.upd.progId
  | 0x1D0020 => s.upd.retSeq % 0x100000000
  | 0x1D0024 => nat0 s.rl (laneKey l a)
  | 0x1D0028 => s.upd.retBad
  | 0x1D0034 => s.upd.retCycle
  | _ => v

/-- The check-value units of a lane (R515). -/
def State.ckvShow (s : State) (l : Lane) (a v : Nat) : Nat :=
  let b := laneKey l (a - a % 0x400)
  match a % 0x400 with
  | 0x04 => bitAt 1 (s.fbit b CKV_STATUS_BUSY)
  | 0x1C => 0
  | 0x24 | 0x34 => nat0 s.rl (laneKey l a)
  | 0x30 => s.ckvResult b % 0x100000000
  | _ => v

/-- A word of the cell memory window (R40, R268): the input image ring shows the entries latched in its four buffers. -/
def State.cellShow (s : State) (l : Lane) (a : Nat) : Nat :=
  let o := a % 0x400000
  if cellHole a then 0
  else if 0x300000 ≤ o && o < 0x340000 then
    let v := nat0 s.inBuf ((o - 0x300000) / 0x10000 * 8192 + o % 0x10000 / 8)
    if o % 8 < 4 then v % 0x100000000 else v / 0x100000000 % 0x100000000
  else s.mnat (laneKey l a) 4

/-- The word at address `a` as lane `l` shows it, for an address that can be reached. -/
def State.regShow (s : State) (l : Lane) (a : Nat) : Nat :=
  let v := (s.rd (regKey l a)).toNat
  if isFlowWin a then s.flowWord a
  else if isRetWin a then s.mnat (retKey + (a - 0x800000)) 4
  else if isCellWin a then s.cellShow l a
  else if a < 0x1000 || (0x40000 ≤ a && a < 0x50000) then s.sysShow l a v
  else if 0x10000 ≤ a && a < 0x18000 then s.hgShow a v
  else if 0x18000 ≤ a && a < 0x19000 then s.clkShow a v
  else if 0x20000 ≤ a && a < 0x20800 then s.rtcShow a v
  else if 0x24000 ≤ a && a < 0x25000 then s.flowShow a v
  else if 0x30000 ≤ a && a < 0x31000 then s.ckvShow l a v
  else if 0x80000 ≤ a && a < 0xA0000 then s.portShow a v
  else if 0xA0000 ≤ a && a < 0xB0000 then s.mtrShow a v
  else if 0xB0000 ≤ a && a < 0xC0000 then s.aioRegShow a v
  else if 0xC0000 ≤ a && a < 0xD0000 then s.canShow a v
  else if 0x100000 ≤ a && a < 0x145000 then s.ethShow a v
  else if 0x180000 ≤ a && a < 0x1A0000 then s.loopShow l a v
  else if 0x1A0000 ≤ a && a < 0x1B0000 then s.cycShow l a v
  else if 0x1B0000 ≤ a && a < 0x1C0000 then s.lumShow l a v
  else if 0x1C0000 ≤ a && a < 0x1D0000 then s.redShow l a v
  else if 0x1D0000 ≤ a && a < 0x1E0000 then s.updShow l a v
  else v

/-! ### What reading does -/

/-- Values that the spec leaves open: the running register and position of a busy unit (R515), a BAD record (R487), and which page of the SYSTEM and
ENERGY areas holds what (R530). -/
def State.regOpen (s : State) (l : Lane) (a : Nat) : Bool :=
  if isFlowWin a then s.flowBad a
  else if isRetWin a then
    let n := (a - 0x800000) / 256
    decide (n < 128) || (decide (n < 512) && s.energySave.isSome)
  else if 0x30000 ≤ a && a < 0x31000 then
    s.fbit (laneKey l (a - a % 0x400)) CKV_STATUS_BUSY && [0x20, 0x24, 0x30, 0x34, 0x38].contains (a % 0x400)
  else false

/-- The high words that a read of the low word at `a` latches, by address (R17). -/
def State.rlPairs (s : State) (l : Lane) (a : Nat) : List (Nat × Nat) :=
  match a with
  | 0x18 => [(0x1C, s.uptime / 0x100000000 % 0x100000000)]
  | 0x108 => [(0x10C, (s.rd 0x10C).toNat)]
  | 0x10004C => [(0x100050, s.ptpTime / 1000000000 % 0x100000000), (0x100054, s.ptpTime / 1000000000 / 0x100000000 % 0x10000)]
  | 0x180014 => [(0x180018, s.loopFrame / 0x100000000 % 0x100000000)]
  | 0x1D0020 => [(0x1D0024, s.upd.retSeq / 0x100000000 % 0x100000000)]
  | _ =>
    if 0x30000 ≤ a && a < 0x31000 then
      (if a % 0x400 = 0x20 then [(a + 4, s.fget (laneKey l (a - a % 0x400)) CKV_VALUE_HI)]
      else if a % 0x400 = 0x30 then [(a + 4, s.ckvResult (laneKey l (a - a % 0x400)) / 0x100000000)]
      else [])
    else if 0xA6000 ≤ a && a < 0xA6100 && a % 0x20 == 0x10 then [(a + 4, nat0 s.energy.res ((a - 0xA6000) / 0x20) / 0x100000000 % 0x100000000)]
    else if mtrHigh (a + 4) then [(a + 4, (s.rd (a + 4)).toNat)]
    else []

/-- A read of the register at `a` by lane `l` leaves the latch of R17, or the freeze of R472, behind. -/
def State.regRead (s : State) (l : Lane) (a : Nat) : State :=
  let s1 : State := { s with rl := (s.rlPairs l a).foldl (fun t e => put0 t (regKey l e.1) e.2) s.rl }
  if a = 0x20000 then { s1 with rtc := { s1.rtc with frozen := true, expired := false, fsecs := s.rtc.secs, fsub := s.rtc.sub } }
  else if a = 0x20014 then { s1 with rtc := { s1.rtc with frozen := false, expired := false } }
  else s1

/-- The lane and the address that an address names: the partner's through the alias (R39). -/
def regPlace (l : Lane) (a : Nat) : Lane × Nat := if isAlias a then (l.other, a - 0x200000) else (l, a)

/-- Lane `l` reads the word at `a` (R15–R17, R39): the state after the read, its result, and the word, zero when it fails. -/
def State.readWord (s : State) (l : Lane) (a : Nat) : State × Res × Nat :=
  match s.regJudge l a with
  | .ok =>
    let p := regPlace l a
    if s.regOpen p.1 p.2 then (s.free.2.regRead p.1 p.2, .ok, s.free.1.toNat)
    else (s.regRead p.1 p.2, .ok, s.regShow p.1 p.2)
  | r => (s, r, 0)

/-- The word at `a` as a source that reads it without a request sees it (R114, R484, R541): none when it is unimplemented or in reset. -/
def State.peekWord (s : State) (l : Lane) (a : Nat) : Option Nat :=
  if s.regJudge l a = .ok ∧ a % 4 = 0 then some (s.regShow (regPlace l a).1 (regPlace l a).2) else none

/-- `n` words from `a` upward (R98): the state, the first result that is not OK, and the words. -/
def State.readWords (s : State) (l : Lane) (a : Nat) : Nat → State × Res × List Nat
  | 0 => (s, .ok, [])
  | n + 1 =>
    let r := s.readWord l a
    let q := r.1.readWords l ((a + 4) % 0x100000000) n
    (q.1, if r.2.1 = .ok then q.2.1 else r.2.1, r.2.2 :: q.2.2)

end Sys2Proof.Machine
end

