-- ==== Sys2Proof/Machine/Cyc.lean ====
section
/-! DEFINITION. The instants of a cycle (R279–R284, R303). -/

namespace Sys2Proof.Machine
open Sys2Proof

/-- The tick may be steered toward gPTP alignment by at most 1 µs per cycle while gPTP is available (R259): when the next tick
should fall. -/
def State.slewTick (s : State) : Nat :=
  let t := s.periodNs
  if s.ptpOk && t != 0 then
    let ph := s.ptpTime % t
    if ph = 0 then s.now + t
    else if 2 * ph < t then s.now + t - min ph 1000 else s.now + t + min (t - ph) 1000
  else s.now + t

/-- A lane goes to SERVICE_TEST as the module enters SERVICE: it stops after its last release, and its cells' memories are the self-test's
(R412, R429). -/
def State.serviceLane (s : State) (l : Lane) : State :=
  match s.lstate l with
  | .standby | .active | .wideRun | .syncing =>
    let s1 := (s.laneStop l).memClear (fun k => decide (laneKey l 0x1000000 ≤ k ∧ k < laneKey l 0x3000000))
    let s2 := s1.setLaneHg l { s1.laneHg l with state := .serviceTest, testPassed := false }
    s2.setLane l { s2.lane l with copy := none }
  | _ => s

/-- An accepted MODE_SET 0x04 enters SERVICE (R429). -/
def State.serviceEnter (s : State) : State :=
  let s1 := ((s.exerciseEnd 3 none).serviceLane .a).serviceLane .b
  ({ s1 with hg := { s1.hg with heldMode := s.mode, enterService := false, handover := none } } : State).enterMode .service

/-- A REBALANCE moves the galleries that a lane took over back to their home (R427). -/
def State.rebalanced (s : State) : State :=
  let back := fun (s : State) (l : Lane) => s.galReturn l ((s.homeGals l).filter (fun g => s.fbit (grantB g) HG_GRANT_TAKEN_OVER)) false
  let s0 : State := { s with hg := { s.hg with rebalance := false } }
  if s0.mode = .wide ∧ s0.lstate .a = .wideRun ∧ s0.lstate .b = .wideRun then back (back s0 .a) .b else s0

/-- Mode and grant changes that lane choices, lane starts, register writes and MODE_SET have left for the tick (R21, R291, R427, R429, R433). -/
def State.tickModes (s : State) : State :=
  let s0 := s.tickChoice.tickStarts
  let s1 := if s0.hg.rebalance then s0.rebalanced else s0
  if s1.hg.enterService && decide (s1.mode = .paired ∨ s1.mode = .wide) then s1.serviceEnter
  else { s1 with hg := { s1.hg with enterService := false } }

/-- Entries of the CAB map are appended while they fit the map area; the answer's second part tells that one did not (R114). -/
def mapFill (f : Nat → Option (List Byte)) : List Nat → List Byte → List Byte × Bool
  | [], acc => (acc, false)
  | n :: ns, acc =>
    match f n with
    | none => mapFill f ns acc
    | some b => if acc.length + b.length ≤ 4028 then mapFill f ns (acc ++ b) else (acc, true)

/-- What entry `n` of the CAB map copies on lane `l` (R114, R119). DESIGN CHOICE: a COUNT outside the range of R119 is kept as it was written; 0 copies
nothing, and one above 1,007 never fits (log entry 106). -/
def State.mapEntry (s : State) (l : Lane) (n : Nat) : Option (List Byte) :=
  let b := 0x1100 + 8 * n
  let src := s.fget b CAB_MAP_SRC
  if !s.fbit b CAB_MAP_CTL_EN then none
  else if s.fbit b CAB_MAP_CTL_KIND then some (leBytes 8 ((s.imageValue l src).getD 0))
  else some (wordsLE ((List.range (s.fget b CAB_MAP_CTL_COUNT)).map (fun i => (s.peekWord l (src + 4 * i)).getD 0)))

/-- Lane `l` fills the mirror's back buffer in the idle time of cycle `n` (R113, R114, R116). -/
def State.mirrorFill (s : State) (l : Lane) (n : Nat) : State :=
  if s.answering 0 ≠ some l ∨ s.fbit 0 CAB_CTRL_MIRROR_EN = false ∨ s.inReset 2 ∨ s.mode = .hold ∨ s.mode = .safe then s
  else
    let m := mapFill (s.mapEntry l) (List.range 64) []
    let powered := portMask (fun p => s.powered p)
    let head := leBytes 4 n ++ leBytes 4 0 ++ leBytes 4 s.uptime ++ leBytes 4 ((s.events.getLast?.map (fun e => e.seq)).getD 0) ++
      leBytes 8 powered ++ leBytes 4 (s.rd 0x90010).toNat ++ leBytes 4 (s.rd 0x90000).toNat ++ List.replicate 32 0
    let pad := List.replicate (4028 - m.1.length) 0
    let s1 := (s.mwrite mirrorBack (head ++ m.1 ++ pad ++ leBytes 4 n)).fsetB 0 CAB_STATUS_MAP_OVERFLOW m.2
    { s1.fset 0 CAB_MAP_USED_BYTES m.1.length with backDone := true }

/-- The background work of the lane that answers gallery 0 has filled the mirror, when the lane was idle before this tick (R113, R282). -/
def State.mirrorIdle (s : State) : State :=
  match s.answering 0 with
  | some l => if s.runsCycles l && (s.cyc l).phase == .waiting && (s.cyc l).n == s.tickNo then s.mirrorFill l s.tickNo else s
  | none => s

/-- What takes effect at tick `n` is kept for its cycle (R276, R291). -/
def State.tickNote (s : State) (n : Nat) : State := { s with tickLog := (⟨n, s.now, s.ptpTime, s.forces, s.grantTab⟩ :: s.tickLog).take 8 }

/-- The cycle tick (R115, R217, R278, R279, R291, R299): it is numbered; forces and writes due take effect, the luminaire
replies and the input image are latched, the mirror swaps, and the reserve of the cycle before is measured. The headgate ticks
in every mode once PORTPWR is released. Ownership and grant changes of the same tick are their own commands and come first. -/
def execCycleTick (s : State) : Host.Outcome State Fault Refusal :=
  if s.pwr.refclkLost then .next s else
  .next (if s.inReset 1 || s.pwr.refclkLost then s
    else
      let n := s.nextTick
      let m := s.mirrorIdle.tickModes
      let s0 : State := { m with tickNo := n, tickAt := s.now, tickDue := s.slewTick }
      let s1 := ((s0.tickActs n).tickNote n).canReconfigEnd
      let s2 := ((((s1.lumNote .a n).lumNote .b n).lumLatch .a).lumLatch .b).latchIn n
      ((s2.mirrorSwap.idleReserve .a).idleReserve .b).staleCheck)

/-- Compute start S(n) (R279, R284, R290, R294, R296, R305): the next cycle whose tick has fallen starts once the one before has
ended; cells that faulted have moved, mailboxes are judged, and the PROG_VARs that are forced in cycle n or written for it take their values. -/
def execComputeStart (lane : Lane) (s : State) : Host.Outcome State Fault Refusal :=
  .next (if !s.runsCycles lane || (s.cyc lane).phase != .waiting then s
    else match s.nextCycle lane with
    | none => s
    | some (n, t) =>
      let s0 := s.faultsSettle lane
      let c := s0.cyc lane
      let late := decide (s.now > t + 2000)
      let now (w : Nat × Nat × Nat) : Bool := decide (cyclesAfter n w.1 < 0x80000000)
      let vars1 := (c.varW.filter now).foldl (fun v w => put0 v w.2.1 w.2.2) c.vars
      let vars2 := (s.tickRec n).forces.foldl (fun v f => if (s.point f.index).ptype == 3 && f.ptype != 16 then put0 v f.index f.value else v) vars1
      let c1 : CycSt := { c with phase := .computing, n := n, late := late, tickAt := t, startAt := s.now, staged := [], empty := [], vars := vars2, varW := c.varW.filter (fun w => !now w) }
      ((s0.setCyc lane c1).fsetB (cycB lane) CYC_STATUS_LAGGING late).mbDeliver lane)

/-- The last cell with partitions due signals done, D(n) (R268, R269, R275, R279, R309): what was due has been computed; a cell that trapped has
faulted. -/
def execCellsDone (lane : Lane) (exec : List (Fin 64 × BitVec 32)) (s : State) : Host.Outcome State Fault Refusal :=
  let c := s.cyc lane
  .next (if !s.runsCycles lane || c.phase != .computing then s
    else
      let s0 := s.cycleRun lane c.n
      let c0 := s0.cyc lane
      let s1 := (s0.setCyc lane { c0 with phase := .done, doneAt := s.now }).fmax (cycB lane) CYC_COMPUTE_MAX ((s.now - c.startAt) / 1000)
      let ran := match s.image with
        | some i => (s.dueTasks lane i c.n).map (fun (d : TaskDesc) => d.task)
        | none => []
      let s2 := (exec.filter (fun e => ran.contains e.1)).foldl (fun s e => s.fmax (taskB lane e.1.val) CYC_TASK_EXEC_MAX e.2.toNat) s1
      ((c0.empty.filter (fun n => !c.empty.contains n)).map (fun n => s.runsOn n)).foldl (fun s p => s.cellFault p true) s2)

/-- The entries a lane has staged, in the order of their cells' slots. -/
def State.slotOrder (s : State) (t : Tab Nat) : Tab Nat :=
  t.filter (fun e => (s.point e.1).writer.isNone) ++
    (List.range 256).flatMap (fun c => t.filter (fun e => (s.point e.1).writer == some c))

/-- Commit start C(n) (R280, R296): the ring commits each cell's staged values; PROG_VAR forces hold at the slot too. -/
def execCommitStart (lane : Lane) (s : State) : Host.Outcome State Fault Refusal :=
  let c := s.cyc lane
  .next (if !s.runsCycles lane || c.phase != .done then s
    else (s.slotOrder c.staged).foldl (fun s e => s.commitOne lane e) (s.setCyc lane { c with phase := .committing }))

/-- Old roles that none of the images a lane still holds shows are forgotten (R101, R102). -/
def State.dropRoles (s : State) : State :=
  { s with oldRoles := s.oldRoles.filter (fun r => [Lane.a, Lane.b].any (fun l => s.roleHolds l (s.fget (cycB l) CYC_DONE) r ||
      (s.cyc l).hist.any (fun h => s.roleHolds l h.n r))) }

/-- Output release Rel(n) (R281, R284, R287): the committed values of the cycle take effect, and its image becomes the newest. -/
def execOutputRelease (lane : Lane) (s : State) : Host.Outcome State Fault Refusal :=
  let c := s.cyc lane
  .next (if !s.runsCycles lane || c.phase != .committing then s
    else
      let free (e : Nat) : Bool := (s.point e).ptype != 0 && !s.slotEmpty lane (s.point e) && s.taskOwner (s.point e).task == s.pointOwner e
      let mine := (c.staged.map (fun e => e.1)).filter free
      let lost := (mine.filter (fun e => !s.granted lane (s.pointOwner e) && (match (s.point e).bind with
        | .port _ => true
        | _ => false)))
      let s0 := lost.foldl (fun s e => s.grantReject lane (s.pointOwner e)) s
      let s1 := (((mine.filter (fun e => s.granted lane (s.pointOwner e))).foldl (fun s e => s.releaseOne lane e) s0).releaseActs lane c.n).canRelease lane c.n
      let lag := (s.now - (c.tickAt + 1000 * s.fget (cycB lane) CYC_TIMING_COMMIT + 2000)) / 1000
      let img := s1.inBuf.filter (fun e => e.1 / 8192 == c.n % 4)
      let c2 := s1.cyc lane
      let r : Released := ⟨c.n, s1.committed, c2.vars, img.map (fun e => (e.1 % 8192, e.2))⟩
      let c1 : CycSt := { c2 with phase := .released, relAt := s.now, lag := lag, hist := (r :: c2.hist).take 6, snap := s1.retainNow lane, overrun := false }
      let s2 := (((s1.setCyc lane c1).fset (cycB lane) CYC_DONE c.n).fmax (cycB lane) CYC_LAG_MAX lag).dropRoles
      if c.overrun then s2.eventLimited 512 0 0 true lag 1000000000 else s2)

/-- E(n) (R282, R284, R302): the staging set holds the RETAIN variables as of the release, and background work begins. A low reserve
of a cycle that did not overrun is reported (R283). -/
def execEndOfCycle (lane : Lane) (s : State) : Host.Outcome State Fault Refusal :=
  let c := s.cyc lane
  .next (if !s.runsCycles lane || c.phase != .released then s
    else
      let s1 := (s.setCyc lane { c with phase := .waiting, idleLow := none, stage := c.snap }).fset (cycB lane) CYC_STATUS_LAGGING 0
      match c.idleLow with
      | some us => if s.now ≤ s.tickAt + 2000 then s1.eventLimited 514 0 0 false us 1000000000 else s1
      | none => s1)

/-- E(n) has not come by the next tick plus 2 µs (R284): the cycle overran; event 512 carries its release lag, which is known
at its release. -/
def execCycleOverrun (lane : Lane) (s : State) : Host.Outcome State Fault Refusal :=
  let c := s.cyc lane
  .next (if !s.runsCycles lane || c.phase == .waiting || c.phase == .stopped || cyclesAfter s.tickNo c.n == 0 || c.overrun then s
    else
      let s1 := (s.fset (cycB lane) CYC_STATUS_OVERRUN 1).finc (cycB lane) CYC_OVR_CNT
      if c.phase == .released then
        (s1.setCyc lane { c with idleLow := none }).eventLimited 512 0 0 true c.lag 1000000000
      else s1.setCyc lane { c with overrun := true, idleLow := none })

/-- The newest committed RETAIN set has become older than 8 cycles and 50 ms (R303). -/
def execRetainLagDetected (lane : Lane) (s : State) : Host.Outcome State Fault Refusal :=
  let done := s.fget (cycB lane) CYC_DONE
  .next (if s.runsCycles lane && !s.fbit (cycB lane) CYC_STATUS_RETAIN_LAG then
      (s.fset (cycB lane) CYC_STATUS_RETAIN_LAG 1).event 520 0 true (cyclesAfter done (s.fget (cycB lane) CYC_RETAIN_CYCLE))
    else s)

end Sys2Proof.Machine
end

