-- ==== Sys2Proof/Machine/Eth.lean ====
section
/-! DEFINITION. The switch: frames, pauses, links, rates, cages and time (R239–R266). -/

namespace Sys2Proof.Machine
open Sys2Proof

/-- The number k of a switch port. -/
def ethK (k : EthPort) : Nat := k.val + 1

/-- What a port's PHY has seen is noted (R254, R260). -/
def State.phySeen (s : State) (k : Nat) (p : PhySeen) : State :=
  let s1 := s.cnt k 47 p.errors.toNat
  if s1.lpiUsed k then (s1.cnt k 22 p.lpi.toNat).fsetB (ethB k) ETH_PORT_STATUS_LPI_RX p.inLpi else s1

/-- A frame of a kind that the switch does not forward from port `k` (R244, R256); the others go on to `next`. -/
def State.frameFilter (s : State) (k : Nat) (d : List Byte) (next : State → State) : State :=
  let u := untag d
  match frameKind u with
  | .ptpEvent | .ptpGeneral => if isUplink k then s.ptpArrive k u else if isJack k then s.cnt k 20 1 else s
  | .pliak => if isJack k then s.cnt k 20 1 else next s
  | _ => next s

/-- A frame arrives on a switch port (R241–R250, R254, R256, R260). -/
def execFrameReceived (k : EthPort) (f : Frame) (phy : PhySeen) (s : State) : Host.Outcome State Fault Refusal :=
  let k := ethK k
  let n := f.bytes.length + 4
  let m := s.mtu k
  .next (if !s.ethReady || !s.ethLink k || !s.fbit (ethB k) ETH_PORT_CTRL_EN then s
    else
      let s0 := ((s.phySeen k phy).cnt k 23 n).octets k n 0
      let s1 := if f.symErr then s0.cnt k 14 1 else s0
      if n > m then
        let s2 := s1.cnt k 17 1
        let d := f.bytes.take (m - 4)
        if s2.fbit (ethB k) ETH_PORT_CTRL_TRUNC_DROP then s2 else s2.frameFilter k d (fun s => s.switchFrame k m d true)
      else if f.fcsBad then s1.cnt k (if n < 64 then 16 else 13) 1
      else if n < 64 then s1.cnt k 15 1
      else (s1.cntFrame k 0 n (packetNum f.bytes 0 6)).frameFilter k f.bytes (fun s => s.switchFrame k n f.bytes false))

/-- Half of the pause time has elapsed with use above LOW: the PAUSE is sent again (R248). -/
def execPauseRefresh (k : EthPort) (s : State) : Host.Outcome State Fault Refusal :=
  let k := ethK k
  .next (if s.ethUp && s.fbit (ethB k) ETH_PORT_CTRL_TX_PAUSE_EN && s.fbit (ethB k) ETH_PORT_STATUS_PAUSING &&
      decide (s.ingressUse k > 1024 * s.fget (ethB k) ETH_PORT_FLOW_LOW) then
      s.sendPause k (s.fget (ethB k) ETH_PORT_PAUSE_QUANTA)
    else s)

/-- Ingress use has fallen to LOW: a PAUSE with pause_time 0 is sent, with TX_PAUSE_EN (R248). -/
def execPauseSendLow (k : EthPort) (s : State) : Host.Outcome State Fault Refusal :=
  let k := ethK k
  .next (if s.ethUp && s.fbit (ethB k) ETH_PORT_STATUS_PAUSING &&
      decide (s.ingressUse k ≤ 1024 * s.fget (ethB k) ETH_PORT_FLOW_LOW) then
      let s1 := s.fset (ethB k) ETH_PORT_STATUS_PAUSING 0
      if s1.fbit (ethB k) ETH_PORT_CTRL_TX_PAUSE_EN then s1.sendPause k 0 else s1
    else s)

/-- A PAUSE frame is received (R248): counted, never forwarded, and honoured with RX_PAUSE_EN on an external port. -/
def execPauseReceived (k : EthPort) (quanta : BitVec 16) (s : State) : Host.Outcome State Fault Refusal :=
  let k := ethK k
  .next (if !s.ethUp || !s.ethLink k || !isExternal k then s
    else
      let s1 := s.cnt k 5 1
      if !s1.fbit (ethB k) ETH_PORT_CTRL_RX_PAUSE_EN then s1
      else
        let s2 := s1.pauseEnd k
        if quanta = 0 then s2.drain k
        else (s2.setEthX k { s2.ethX k with pausedAt := s2.now, quanta := quanta.toNat }).fset (ethB k) ETH_PORT_STATUS_PAUSED 1)

/-- The pause time of a received PAUSE runs out: transmit resumes (R248). -/
def execPauseQuantaExpired (k : EthPort) (s : State) : Host.Outcome State Fault Refusal :=
  .next (if s.ethUp then (s.pauseEnd (ethK k)).drain (ethK k) else s)

/-- A frame that has waited 500 ms in an egress queue is dropped and counted (R247): the oldest of that queue. -/
def execEgressQueueAgeDrop (k : EthPort) (queue : Fin 4) (s : State) : Host.Outcome State Fault Refusal :=
  let k := ethK k
  .next (match s.eth.queue.find? (fun q => q.egr == k && q.queue == queue.val) with
  | some q =>
    let s1 : State := { s with eth := { s.eth with queue := s.eth.queue.erase q } }
    s1.cnt k 38 1
  | none => s)

/-- A learned address ages out (R264). -/
def execAddressAgedOut (vid : BitVec 12) (mac : BitVec 48) (s : State) : Host.Outcome State Fault Refusal :=
  .next { s with eth := { s.eth with macs := s.eth.macs.filter (fun e => !(e.vid == vid.toNat && e.mac == mac.toNat)) } }

/-- An uplink's cage has an accepted module with its transmitter on (R255). -/
def State.cageReady (s : State) (k : Nat) : Bool :=
  if k = 65 then s.fbit 0 ETH_CAGE_A_POWERED && !s.eth.cageA.txDisable else s.fbit 0 ETH_CAGE_B_POWERED && !s.eth.cageB.txDisable

/-- May the link of port `k` come up: enabled and down, no half-duplex refusal waiting, on a jack in a mode of R239 and with its PHY powered, on an
uplink with an accepted module? -/
def State.linkMay (s : State) (k speed : Nat) : Bool :=
  s.fbit (ethB k) ETH_PORT_CTRL_EN && !s.fbit (ethB k) ETH_PORT_STATUS_LINK_UP && !(s.ethX k).refused &&
  (if isJack k then decide (1 ≤ speed) && decide (speed ≤ 3) && !s.alloc.phyOff.contains (k - 1) else s.cageReady k)

/-- A link goes up or down (R213, R239, R240, R243, R254, R263, R266). A copper link that resolves to half duplex is refused; an uplink has the speed
that ETH_PORT_CTRL sets. -/
def execPortLinkChange (k : EthPort) (up : Bool) (speed : BitVec 3) (half mdix eee : Bool) (s : State) :
    Host.Outcome State Fault Refusal :=
  let k := ethK k
  let b := ethB k
  let x := s.ethX k
  .next (if !isExternal k || s.inReset 2 || s.pwr.refclkLost then s
    else if !up then
      (if s.fbit b ETH_PORT_STATUS_LINK_UP && (x.changing.isNone || !s.portOn (k - 1)) then s.linkDown k else s)
    else if !s.linkMay k speed.toNat then s
    else if isJack k && half then ((s.setEthX k { x with refused := true }).fset b ETH_PORT_STATUS_DUPLEX_REFUSED 1).cnt k 47 1
    else
      let v := if isJack k then speed.toNat else s.upSpeed k
      let s1 := (((s.fset b ETH_PORT_STATUS_LINK_UP 1).fset b ETH_PORT_STATUS_SPEED v).fsetB b ETH_PORT_STATUS_MDIX
        (mdix && isJack k)).setEthX k { x with barred := false, changing := none, eee := eee && isJack k }
      if isUplink k then s1.event (448 + (k - 65)) 0 false (0x1000000 + v)
      else (s1.lpiEnter k).lumArrive (k - 1))

/-- 2 s after a half-duplex refusal the link is tried again (R240). -/
def execDuplexRetry (k : EthPort) (s : State) : Host.Outcome State Fault Refusal :=
  .next (s.setEthX (ethK k) { s.ethX (ethK k) with refused := false })

/-- A quiet port meets the lowering conditions (R251, R263): its 1 s means have stayed below LOWER for 60 s in a row; re-checked against the last
100 ms means, its rate change begins. -/
def execRateLowerDecision (k : PortNo) (s : State) : Host.Outcome State Fault Refusal :=
  let k := k.val + 1
  let b := ethB k
  let x := s.ethX k
  .next (if s.ethUp && s.rateEnabled k && s.fbit b ETH_PORT_STATUS_LINK_UP && s.fget b ETH_PORT_STATUS_SPEED == 3 && x.changing.isNone &&
      !x.barred && s.rateWindow && decide (60 ≤ x.quiet) && !s.rateBusy k && x.raisedAt.all (fun t => s.now ≥ t + 600000000000) then
      s.rateBegin k 2
    else s)

/-- Traffic above its threshold, or more than 32 KiB queued, raises a lowered port (R251). -/
def execRateRaiseDecision (k : PortNo) (s : State) : Host.Outcome State Fault Refusal :=
  let k := k.val + 1
  .next (if s.rateBusy k || decide (s.egressUse k > 32768) then s.rateRaise k else s)

/-- The link is up at the new rate: the held frames are sent (R251, R252). A port lowered after its lowering was disabled is raised again. -/
def execRateChangeLinkUp (k : PortNo) (s : State) : Host.Outcome State Fault Refusal :=
  let k := k.val + 1
  let b := ethB k
  let x := s.ethX k
  .next (match x.changing with
  | none => s
  | some v =>
    let s1 := s.setEthX k { x with changing := none, raisedAt := if v = 3 then some s.now else x.raisedAt }
    let s2 := (((s1.fset b ETH_PORT_STATUS_LINK_UP 1).fset b ETH_PORT_STATUS_SPEED v).fsetB b ETH_PORT_STATUS_LOWERED (v == 2)).cnt k
      (if v = 2 then 43 else 44) 1
    let s3 := (s2.drain k).lpiEnter k
    if v = 2 ∧ !s3.rateEnabled k then s3.rateRaise k else s3)

/-- No link 900 ms after the restart (R251, R252, R263): the change is abandoned, the port is treated as link down, and event 461
is raised unless the port was removed. -/
def execRateChangeFailed (k : PortNo) (s : State) : Host.Outcome State Fault Refusal :=
  let k := k.val + 1
  .next (match (s.ethX k).changing with
  | none => s
  | some v =>
    let on := s.portOn (k - 1)
    let s1 := s.linkDown k
    let s2 := s1.setEthX k { s1.ethX k with barred := true }
    if on then s2.event 461 0 true (k * 0x1000000 + (if v = 2 then 1 else 2)) else s2)

/-- Does the management interface hold an IPv4 or an IPv6 address on VID `v` (R244)? -/
def State.mgmtHas4 (s : State) (v : Nat) (a : BitVec 32) : Bool :=
  match s.upd.settings with
  | none => false
  | some x => (v == s.mgmtVid && x.mgmt4.any (fun m => m.addr == a)) ||
      (match s.vidGal v with
      | some g => x.gal4.any (fun e => e.1.val == g && e.2 == a)
      | none => false)

def State.mgmtHas6 (s : State) (v : Nat) (a : BitVec 128) : Bool :=
  a.toNat == linkLocal s.mgmtMacAddr ||
  (match s.upd.settings with
  | none => false
  | some x => (v == s.mgmtVid && (x.mgmt6.take 2).contains a) ||
      (match s.vidGal v with
      | some g => x.gal6.any (fun e => e.1.val == g && e.2 == a)
      | none => false))

/-- Is what is asked about an address of the interface? -/
def State.mgmtHolds (s : State) (v : Nat) : MgmtAsk → Bool
  | .arp a | .echo4 a => s.mgmtHas4 v a
  | .solicit a | .echo6 a => s.mgmtHas6 v a

/-- The management interface answers ARP, neighbour solicitation and echo for its addresses on a VLAN the uplink carries (R244). -/
def execMgmtInterfaceRequest (uplink : Bus) (vid : Option (BitVec 12)) (ask : MgmtAsk) (s : State) : Host.Outcome State Fault Refusal :=
  let k := uplinkK uplink
  let v := match vid with
    | some v => if v = 0 then s.mgmtVid else v.toNat
    | none => s.mgmtVid
  let untagged := vid.all (fun v => v == 0)
  .next (if !s.ethReady || !s.ethLink k then s
    else if (untagged && !s.mgmtUntagged) || !s.upVid k v then s.cnt k 18 1
    else if s.mgmtHolds v ask then s.send (.mgmt k v ask) else s)

/-- The fields of a cage. -/
def cageF (cage : Bus) (f : Fld) : Fld := ⟨f.off + 4 * busNum cage, f.lo, f.width⟩

/-- A cage outcome (R255, R266). -/
def State.cageEvent (s : State) (cage : Bus) (code : Nat) : State :=
  (s.fset 0 (cageF cage ETH_CAGE_A_CODE) code).event (450 + busNum cage) 0 (code != 1 && code != 2) code

def State.cage (s : State) : Bus → Cage
  | .a => s.eth.cageA
  | .b => s.eth.cageB

def State.setCage (s : State) (cage : Bus) (x : Cage) : State :=
  { s with eth := match cage with
    | .a => { s.eth with cageA := x }
    | .b => { s.eth with cageB := x } }

/-- An SFP28 module is inserted, identified, and accepted or refused (R255): the cage's power goes off for a higher power level, TX_DISABLE is held
for another type. A module that is already there has been judged. -/
def execSfpInserted (cage : Bus) (level : BitVec 8) (kind : SfpKind) (s : State) : Host.Outcome State Fault Refusal :=
  let s1 := s.fset 0 (cageF cage ETH_CAGE_A_PRESENT) 1
  .next (if !s.ethUp || s.fbit 0 (cageF cage ETH_CAGE_A_PRESENT) then s
    else if 2 < level.toNat then (s1.setCage cage ⟨false, true, 0⟩).cageEvent cage 3
    else if !sfpServed kind then (s1.setCage cage ⟨true, true, 0⟩).cageEvent cage 4
    else ((s1.setCage cage ⟨true, false, 0⟩).fset 0 (cageF cage ETH_CAGE_A_POWERED) 1).cageEvent cage 1)

/-- An SFP28 module is removed (R255): its link is lost. -/
def execSfpRemoved (cage : Bus) (s : State) : Host.Outcome State Fault Refusal :=
  let z (s : State) (f : Fld) : State := s.fset 0 (cageF cage f) 0
  let k := uplinkK cage
  .next (if s.ethUp then
      let s0 := if s.fbit (ethB k) ETH_PORT_STATUS_LINK_UP then s.linkDown k else s
      let s1 := z (z (z (z (z (s0.setCage cage .empty) ETH_CAGE_A_PRESENT) ETH_CAGE_A_POWERED) ETH_CAGE_A_TX_FAULT) ETH_CAGE_A_LOS) ETH_CAGE_A_DDM_ALARM
      s1.cageEvent cage 2
    else s)

/-- The 1 s poll of a cage's alarm flags (R255): each newly set one raises the cage event. -/
def execSfpAlarmPoll (cage : Bus) (txFault los : Bool) (ddm : BitVec 16) (s : State) : Host.Outcome State Fault Refusal :=
  let one (s : State) (f : Fld) (v : Bool) (code : Nat) : State :=
    let s1 := s.fsetB 0 (cageF cage f) v
    if v && !s.fbit 0 (cageF cage f) then s1.cageEvent cage code else s1
  let x := s.cage cage
  let fresh := (List.range 16).any (fun i => ddm.getLsbD i && !x.flags.testBit i)
  .next (if s.ethUp && s.fbit 0 (cageF cage ETH_CAGE_A_PRESENT) then
      let s1 := ((one (one s ETH_CAGE_A_TX_FAULT txFault 5) ETH_CAGE_A_LOS los 6).fsetB 0 (cageF cage ETH_CAGE_A_DDM_ALARM) (ddm != 0)).setCage cage
        { x with flags := ddm.toNat }
      if fresh then s1.cageEvent cage 7 else s1
    else s)

/-- A sync corrects the rate and the phase of the time counter (R258); the clock is never changed. -/
def execPtpSyncReceived (offset : BitVec 64) (rate : BitVec 32) (steps : BitVec 8) (delayA delayB : BitVec 32) (s : State) :
    Host.Outcome State Fault Refusal :=
  .next (if s.ethUp && (s.ptpState == ptpSyncing || s.ptpState == ptpLocked) then
      let o := toSigned 64 offset.toNat
      let h := if o > 2147483647 then 2147483647 else if o < -2147483648 then -2147483648 else o
      let s1 := s.ptpSet rate.toInt (-o)
      ((((s1.fset 0 ETH_PTP_OFFSET (ofSigned 32 h)).fset 0 CLK_REF_OFFSET rate.toNat).fset 0 ETH_PTP_STATUS_STEPS steps.toNat).fset 0
        ETH_PTP_PDELAY_A delayA.toNat).fset 0 ETH_PTP_PDELAY_B delayB.toNat
    else s)

/-- Best-master selection (R256, R257): the best announced grandmaster, unless the module is better, gives the time; the identity of the grandmaster
may change in every state that has one. -/
def execPtpGmSelected (best : Option (Bus × Announce)) (s : State) : Host.Outcome State Fault Refusal :=
  let st := s.ptpState
  let follow (u : Bus) (a : Announce) : State :=
    let s1 := s.ptpGm u a.gm.toNat a.steps.toNat
    if st = ptpListening ∨ st = ptpGrandmaster then s1.ptpTo ptpSyncing else s1
  let lead := if st = ptpListening ∧ s.fget 0 ETH_PTP_CTRL_PRIORITY1 ≠ 255 then (s.ptpGm .a s.ptpOwnId 0).ptpTo ptpGrandmaster else s
  .next (if !s.ethUp || st == ptpDisabled then s
    else match best with
      | some (u, a) => if s.ptpBetter a then follow u a else lead
      | none => lead)

/-- The offset has been within 250 ns for 10 s (R257). -/
def execPtpLockAchieved (s : State) : Host.Outcome State Fault Refusal :=
  .next (if s.ethUp && s.ptpState == ptpSyncing then s.ptpTo ptpLocked else s)

/-- The offset has been above 1 µs for 1 s (R257, R266). -/
def execPtpOffsetExceeded (offset : BitVec 32) (s : State) : Host.Outcome State Fault Refusal :=
  .next (if s.ethUp && s.ptpState == ptpLocked then (s.ptpTo ptpSyncing).eventLimited 459 0 0 true offset.toNat 1000000000 else s)

/-- Sync or announce times out (R257). -/
def execPtpSyncLost (s : State) : Host.Outcome State Fault Refusal :=
  .next (if s.ethUp && (s.ptpState == ptpSyncing || s.ptpState == ptpLocked) then s.ptpTo ptpHoldover else s)

/-- Sync resumes in HOLDOVER (R257). -/
def execPtpSyncResumed (s : State) : Host.Outcome State Fault Refusal :=
  .next (if s.ethUp && s.ptpState == ptpHoldover then s.ptpTo ptpSyncing else s)

/-- 60 s in HOLDOVER have elapsed (R257): the counter goes on at its own rate (DESIGN CHOICE, log entry 103). -/
def execPtpHoldoverExpired (s : State) : Host.Outcome State Fault Refusal :=
  .next (if s.ethUp && s.ptpState == ptpHoldover then (s.ptpSet 0 0).ptpTo ptpListening else s)

/-- A better grandmaster is announced while the module is grandmaster (R257). -/
def execPtpBetterGm (uplink : Bus) (announce : Announce) (s : State) : Host.Outcome State Fault Refusal :=
  .next (if s.ethUp && s.ptpState == ptpGrandmaster && s.ptpBetter announce then
      (s.ptpGm uplink announce.gm.toNat announce.steps.toNat).ptpTo ptpSyncing
    else s)

end Sys2Proof.Machine
end

