-- ==== Sys2Proof/Machine/Flow.lean ====
section
/-! DEFINITION. The flowstone recorder's instants and its freeze (R483–R489). -/

namespace Sys2Proof.Machine
open Sys2Proof

/-- Is `a` in a block that the recorder does not read: the lane-local blocks and the cell memory window (R484)? -/
def flowBarred (a : Nat) : Bool := isLaneReg a || isAlias a || isCellWin a

/-- The word a descriptor's source gives now (R484). -/
def State.flowSource (s : State) (kind src : Nat) : Option Nat :=
  if kind = 0 then (if flowBarred src then none else s.peekWord .a src)
  else match s.answering 0 with
    | some l => if s.runsCycles l && (s.point (src % 8192)).ptype != 0 then some (s.relVal l (src % 8192)) else none
    | none => none

/-- A descriptor samples its source (R484–R486, R488). -/
def execRecorderSample (extreme : Bool) (desc : Fin 64) (s : State) : Host.Outcome State Fault Refusal :=
  if s.pwr.refclkLost then .next s else
  let b := flowB extreme desc.val
  let k := flowKey extreme desc.val
  .next (if !s.fbit 0 FLOW_CTRL_EN || !s.fbit b FLOW_H_CFG_EN || s.flow.stopped.contains k then s
    else if s.flowFrozen then s.finc 0 FLOW_FREEZE_SKIP
    else s.flowSample k (s.flowSource (s.fget b FLOW_H_CFG_KIND) (s.fget b FLOW_H_SRC)))

/-- A descriptor's record has spent its epoch, EPOCH × 24 operating hours (R486): before that it stays open. -/
def execRecorderEpochEnd (extreme : Bool) (desc : Fin 64) (s : State) : Host.Outcome State Fault Refusal :=
  if s.pwr.refclkLost then .next s else
  let k := flowKey extreme desc.val
  let epoch := s.fget (flowB extreme desc.val) FLOW_H_CFG_EPOCH
  .next (match s.flowOpen k with
    | some (_, r) => if epoch = 0 ∨ s.fget 0 FLOW_HOURS < r.start + 240 * epoch then s else s.flowEnd k
    | none => s)

/-- Once per second pending increments go to the store (R487). -/
def execRecorderFlush (s : State) : Host.Outcome State Fault Refusal :=
  if s.pwr.refclkLost then .next s else
  .next (if s.flowFrozen then s else s.flowFlush)

/-- RECORDER_FREEZE (R488). -/
def State.freezeReq (s : State) (r : Req) (on : Nat) : State :=
  s.serve r 0x90 lenFreeze (fun s _ _ =>
    if on = 1 then s.flowFreeze.ans .ok
    else if on = 0 then (if s.flowFrozen then s.flowRelease else s).ans .ok
    else s.ans .range)

/-- RECORDER_FREEZE with ON = 1 (R488). -/
def execRecorderFreeze (r : Req) (on : BitVec 8) (s : State) : Host.Outcome State Fault Refusal := .next (s.freezeReq r on.toNat)

/-- RECORDER_FREEZE with ON = 0 (R488). -/
def execRecorderRelease (r : Req) (s : State) : Host.Outcome State Fault Refusal := .next (s.freezeReq r 0)

/-- FREEZE_MAX seconds have passed since a freeze began or was renewed (R488). -/
def execRecorderFreezeExpired (s : State) : Host.Outcome State Fault Refusal :=
  if s.pwr.refclkLost then .next s else
  let m := s.fget 0 FLOW_CTRL_FREEZE_MAX
  .next (if s.flowFrozen ∧ m ≠ 0 then s.flowRelease.event 615 0 false m else s)

/-- 360 s of valid main power (R483). -/
def execOperatingHoursStep (s : State) : Host.Outcome State Fault Refusal :=
  if s.pwr.refclkLost then .next s else
  .next (if s.pwr.mainPower then s.fset 0 FLOW_HOURS (s.fget 0 FLOW_HOURS + 1) else s)

end Sys2Proof.Machine
end

