-- ==== Sys2Proof/Machine/Keys.lean ====
section
/-! DEFINITION. The operations on the key store (R498–R503). -/

namespace Sys2Proof.Machine
open Sys2Proof

/-- KEY_LOAD (R499): the operation is accepted, and answered when it has run. -/
def execKeyLoad (r : Req) (slot parent : BitVec 8) (attr : BitVec 32) (wrapped : List Byte) (s : State) : Host.Outcome State Fault Refusal :=
  .next (s.serve r 0x60 48 (fun s x _ =>
    ⟨s.keyAccept ⟨x.id, r.tag.toNat, 0x60, r.transport, false⟩
      ⟨x.id, r.tag.toNat, true, slot.toNat, parent.toNat, attr.toNat, wrapped⟩, none⟩))

/-- KEY_INVALIDATE (R499). -/
def execKeyInvalidate (r : Req) (slot : BitVec 8) (s : State) : Host.Outcome State Fault Refusal :=
  .next (s.serve r 0x61 4 (fun s x _ =>
    ⟨s.keyAccept ⟨x.id, r.tag.toNat, 0x61, r.transport, false⟩ ⟨x.id, r.tag.toNat, false, slot.toNat, 0, 0, []⟩, none⟩))

/-- KEY_INFO returns a slot's attributes, generation and parent (R498, R501). A tenant sees the slots its gallery owns. -/
def execKeyInfo (r : Req) (slot : BitVec 8) (s : State) : Host.Outcome State Fault Refusal :=
  .next (s.serve r 0x62 4 (fun s x _ =>
    let n := slot.toNat
    if 127 < n then s.ans .noSuchObject
    else if x.gallery ≠ 0 ∧ (s.keyState n = 0 ∨ attrOwner (s.keyAttr n) ≠ x.gallery) then s.ans .noSuchObject
    else s.ansB .ok (beBytes 4 (s.keyAttr n) ++ beBytes 4 (s.keyGen n) ++ beBytes 1 (s.keyParent n) ++ beBytes 3 0)))

/-- The new copy of the slot is written and read back, or is not (R503, t2 to t5); the next operation starts. -/
def execKeyAreaWriteDone (ok : Bool) (s : State) : Host.Outcome State Fault Refusal :=
  if s.pwr.refclkLost then .next s else
  .next (match s.keyQ with
    | [] => s
    | k :: rest =>
      let s0 : State := { s with keyQ := rest }
      let s1 := if ok then s0.keyApply k else s0.keyReply k .hwFault []
      s1.keyNext s1.keyQ.length)

end Sys2Proof.Machine
end

