-- ==== Sys2Proof/Machine/Loop.lean ====
section
/-! DEFINITION. The loop engine's instants and the loop opcodes of Pliak (R311–R313, R327–R330, R456). -/

namespace Sys2Proof.Machine
open Sys2Proof

/-- A sub-frame starts (R311, R312, R314): every slot of the lane that samples there is latched and queued, in ascending number. The
frame and the sub-frame are those of the module's time counter. -/
def execLoopSubframeStart (lane : Lane) (s : State) : Host.Outcome State Fault Refusal :=
  let t := s.ptpTime
  let frame := t / 125000
  let sub := t % 125000 / 25000
  .next (if !s.runsCycles lane then s
    else
      let due := (s.loopSlots lane).filter (fun q => s.loopDue lane q frame sub)
      (due.foldl (fun s q => s.loopSample lane q frame) s).fmax (loopC lane) LOOP_LOAD_MAX_SAMPLES due.length)

/-- A datapath finishes the computation of a slot (R313). -/
def execLoopComputationDone (lane : Lane) (slot : Fin 1024) (s : State) : Host.Outcome State Fault Refusal :=
  .next (if s.runsCycles lane then s.loopDone lane slot.val else s)

/-- The known-answer check of a datapath, once per second (R326, R456). -/
def execLoopDatapathCheck (lane : Lane) (dp : Fin 4) (right : Bool) (s : State) : Host.Outcome State Fault Refusal :=
  .next (if right || !s.procRuns lane then s else s.dpFail lane dp.val)

/-- The refusals of LOOP_TEST, in the order of R327. -/
def State.testCheck (s : State) (l : Lane) (slot : Nat) (stop : Bool) (point kind buffer amp arg : Nat) : Res :=
  let y := buffer % 16
  let u := buffer / 16
  let bufOk := fun b => b < 4 || b == 15
  let argOk := match kind with
    | 2 => 7 ≤ arg % 256 && arg % 256 ≤ 15
    | 3 => 1 ≤ arg / 0x10000 && arg / 0x10000 ≤ 32767 && 1 ≤ arg % 0x10000 && arg % 0x10000 ≤ 32767
    | _ => true
  if 1023 < slot then .noSuchObject
  else if s.mode ≠ .paired ∧ s.mode ≠ .wide then .state
  else if s.loopState l slot = lsOff ∨ (stop = false ∧ (s.loopX l slot).test.isSome = true) then .state
  else if 1 < point ∨ bufOk y = false ∨ bufOk u = false ∨ f32Finite amp = false then .range
  else if stop = false ∧ (3 < kind ∨ argOk = false ∨ (y = 15 ∧ u = 15)) then .range
  else if stop = false ∧ [y, u].any (fun b => b != 15 && (s.fget (capB l b) LOOP_CAP_STATUS_STATE == 1 ||
      s.fget (capB l b) LOOP_CAP_STATUS_STATE == 2)) = true then .busy
  else .ok

/-- LOOP_TEST (R327): a test is armed on a slot, and the buffers it names start anew. -/
def execLoopTest (r : Req) (slot : BitVec 16) (signal buffer : BitVec 8) (amplitude arg : BitVec 32) (s : State) : Host.Outcome State Fault Refusal :=
  .next (s.serve r 0x80 12 (fun s _ l0 =>
    let q := slot.toNat
    let l := s.loopHome q l0
    let stop := signal.toNat % 16 == 15
    match s.testCheck l q stop (signal.toNat / 16) (signal.toNat % 16) buffer.toNat amplitude.toNat arg.toNat with
    | .ok =>
      if stop then (s.testEnd l q 2).ans .ok
      else
        let t : LoopTest := ⟨signal.toNat, buffer.toNat, amplitude.toNat, arg.toNat, s.now, false, 0, 2 ^ (arg.toNat % 256) - 1, 0⟩
        let s1 := (s.setLoopX l q { s.loopX l q with test := some t }).fset (loopS l q) LOOPS_STAT_TEST 1
        let s2 := t.bufs.foldl (fun s b =>
          let s1 := s.capClear l b
          ((((s1.fset (capB l b) LOOP_CAP_STATUS_STATE 1).fsetB (capB l b) LOOP_CAP_STATUS_QTY (b == buffer.toNat / 16)).fset (capB l b)
            LOOP_CAP_STATUS_SLOT q).fset (capB l b) LOOP_CAP_SIGNAL signal.toNat).fset (capB l b) LOOP_CAP_SIGNAL_BUFFER buffer.toNat) s1
        s2.ans .ok
    | e => s.ans e))

/-- LOOP_TEST with kind 0xF (R327, R329): a running test ends as STOPPED; on a slot without one nothing changes. -/
def execLoopTestStop (r : Req) (slot : BitVec 16) (point : BitVec 4) (buffer : BitVec 8) (amplitude arg : BitVec 32) (s : State) :
    Host.Outcome State Fault Refusal :=
  .next (s.serve r 0x80 12 (fun s _ l0 =>
    let q := slot.toNat
    let l := s.loopHome q l0
    match s.testCheck l q true point.toNat 15 buffer.toNat amplitude.toNat arg.toNat with
    | .ok => (s.testEnd l q 2).ans .ok
    | e => s.ans e))

/-- CAPTURE_READ (R97, R330). -/
def execCaptureRead (r : Req) (buffer : BitVec 8) (start count : BitVec 16) (s : State) : Host.Outcome State Fault Refusal :=
  .next (s.serve r 0x81 8 (fun s _ l =>
    let n := count.toNat
    if 3 < buffer.toNat ∨ n = 0 ∨ 256 < n ∨ 16384 < start.toNat + n then s.ans .range
    else s.ansB .ok ((List.range n).flatMap (fun i => beBytes 4 (s.capGet l buffer.toNat (start.toNat + i))))))

end Sys2Proof.Machine
end

