-- ==== Sys2Proof/Machine/Lum.lean ====
section
/-! DEFINITION. What the luminaire link does with the frames of devices and at its instants (chapter "Luminaire link"). -/

namespace Sys2Proof.Machine
open Sys2Proof

/-- The answer to a LUM_HELLO (R80, R209, R210, R214): it echoes SEQ and TAG; with MAX_NODES 0 STATUS alone. -/
def State.lumHelloReply (s : State) (l : Lane) (p k seq tag : Nat) : State :=
  let r := if k = 0 then Res.state else .ok
  let body := beBytes 4 (s.statusClear l r) ++ (if k = 0 then [] else beBytes 1 (p + 1) ++ beBytes 1 k ++ beBytes 2 0)
  s.lumSend l p (lumPacket 0x80 seq tag 0x0100 body)

/-- LUM_HELLO (R208, R209, R213, R214): an invalid one is counted and not answered; a valid one binds the port, is answered, and
starts CONFIG, or PLAIN when the settings allow no node. -/
def execLumHello (port : PortNo) (src : BitVec 48) (linkLocal : Bool) (seq : BitVec 64) (tag : BitVec 16) (nodes : BitVec 8) (cold : Bool)
    (vendor : BitVec 32) (s : State) : Host.Outcome State Fault Refusal :=
  let p := port.val
  .next (match s.lumLane p with
  | none => s
  | some l =>
    let n := nodes.toNat
    if !s.lumLive l || !s.ethReady then s
    else if !s.portOn p || !linkLocal || seq != 0 || n == 0 || n > 4 || s.dstate l p == dsNone then s.lumBad l
    else
      let s1 := s.lumRx l
      let m := src.toNat
      let s2 := if s1.lumMac l p = m then
          (if cold then s1.finc (lumP l p) LUM_PORT_STATE_RESTARTS else s1)
        else (((if s1.lumMac l p = 0 then s1 else s1.fset (lumP l p) LUM_PORT_STATE_REPLACED 1)).fset (lumP l p) LUM_PORT_MAC_LO m).fset (lumP l p) LUM_PORT_MAC_HI
          (m / 0x100000000)
      let k := min n (s2.fget (lumP l p) LUM_PORT_STATE_MAX_NODES)
      let s3 := ((s2.fset (lumP l p) LUM_PORT_STATE_OFFERED n).fset (lumP l p) LUM_PORT_VENDOR vendor.toNat).fset (lumP l p)
        LUM_PORT_STATE_ACCEPT k
      let s4 := s3.lumForget l p
      let s5 := (s4.setDstate l p (if k = 0 then dsPlain else dsConfig)).lumHelloReply l p k seq.toNat tag.toNat
      if k = 0 then s5 else (s5.lumTodo l p (2 ^ k - 1)).lumConfig l p)

/-- A luminaire datagram that R208 does not accept is dropped and counted. -/
def execLumBadDatagram (lane : Lane) (s : State) : Host.Outcome State Fault Refusal := .next (s.lumBad lane)

/-- 30 s after link up without a valid LUM_HELLO the port is a plain Ethernet port (R213). -/
def execLumHelloTimeout (port : PortNo) (s : State) : Host.Outcome State Fault Refusal :=
  .next (match s.lumLane port.val with
  | some l => if s.dstate l port.val = dsWaitHello then s.setDstate l port.val dsPlain else s
  | none => s)

/-- A reply to LUM_CONFIG (R208, R213): with OK the node has answered; when every accepted node has, CONFIG ends in LINKED. -/
def execLumConfigReply (port : PortNo) (src : BitVec 48) (node : Fin 4) (result : BitVec 16) (s : State) :
    Host.Outcome State Fault Refusal :=
  let p := port.val
  .next (match s.lumLane p with
  | none => s
  | some l =>
    if !s.lumLive l || !s.ethReady then s
    else if !s.portOn p || s.lumMac l p != src.toNat || s.dstate l p == dsNone then s.lumBad l
    else if result ≠ 0 then s.lumRx l
    else
      let t := nat0 (s.lum l).todo p
      let t1 := if t.testBit node.val then t - 2 ^ node.val else t
      let s1 := (s.lumRx l).lumTodo l p t1
      if t1 = 0 ∧ s.dstate l p = dsConfig then s1.setDstate l p dsLinked else s1)

/-- 100 ms after a LUM_CONFIG it is sent again to each node that has not answered with OK (R215). -/
def execLumConfigResend (port : PortNo) (s : State) : Host.Outcome State Fault Refusal :=
  .next (match s.lumLane port.val with
  | some l => if s.lumLive l then s.lumConfig l port.val else s
  | none => s)

/-- A light tick, at the output release of a light-tick cycle, in HOLD where that release would fall (R216, R217). -/
def execLightTick (s : State) : Host.Outcome State Fault Refusal :=
  let n (l : Lane) : Nat := if s.mode = .hold then s.tickNo else (s.cyc l).n
  .next ((s.lightTick .a (n .a)).lightTick .b (n .b))

/-- A reply to a level frame (R213, R217, R218): valid when it is in time, from the bound MAC, echoes the frame, reports OK and
carries every entry; it takes a LOST device back to LINKED. -/
def execLumLevelReply (port : PortNo) (src : BitVec 48) (seq : BitVec 64) (tag : BitVec 16) (result : BitVec 16) (entries : List LumStatus)
    (s : State) : Host.Outcome State Fault Refusal :=
  let p := port.val
  .next (match s.lumLane p with
  | none => s
  | some l =>
    if !s.lumLive l || !s.ethReady then s
    else if !s.portOn p || s.lumMac l p != src.toNat || s.dstate l p == dsNone then s.lumBad l
    else
      let c := nat0 (s.lum l).sent p
      if c = 0 then s.finc (laneKey l 0) LUM_LATE_CNT
      else if seq.toNat ≠ s.lumSeq l ∨ tag.toNat ≠ s.lumSeq l % 0x10000 ∨ result ≠ 0 ∨ entries.length ≠ c then s
      else
        let x := s.lum l
        let s1 := (s.lumRx l).setLum l { x with got := x.got.filter (fun g => g.1 != p) ++ [(p, entries)] }
        if s1.dstate l p = dsLost then s1.setDstate l p dsLinked else s1)

/-- A reply after the window has closed is discarded and counted (R217). -/
def execLumLateReply (port : PortNo) (s : State) : Host.Outcome State Fault Refusal :=
  .next (match s.lumLane port.val with
  | some l => s.finc (laneKey l 0) LUM_LATE_CNT
  | none => s)

/-- The reply window of lane `l` closes (R213, R217, R218): each port that was sent a frame and did not answer has missed the
tick; five in a row lose the device. -/
def State.lumClose (s : State) (l : Lane) : State :=
  let s1 := s.forPorts (fun s p =>
    if nat0 (s.lum l).sent p = 0 then s
    else
      let x := s.lum l
      if x.got.any (fun g => g.1 == p) then s.setLum l { x with miss := put0 x.miss p 0, sent := put0 x.sent p 0 }
      else
        let m := nat0 x.miss p + 1
        let s1 := (s.finc (laneKey l 0) LUM_MISS_CNT).setLum l { x with miss := put0 x.miss p (min m 5), sent := put0 x.sent p 0 }
        if m ≥ 5 ∧ s1.dstate l p = dsLinked then s1.setDstate l p dsLost else s1)
  s1.setLum l { s1.lum l with shut := true }

/-- 3 ms after the light tick the reply window closes (R217). -/
def execLumReplyWindowClose (s : State) : Host.Outcome State Fault Refusal :=
  let f (s : State) (l : Lane) : State := if s.lumLive l then s.lumClose l else s
  .next (f (f s .a) .b)

end Sys2Proof.Machine
end

