-- ==== Sys2Proof/Machine/Mtr.lean ====
section
/-! DEFINITION. The metering block's events and METER_READ (R339–R363). -/

namespace Sys2Proof.Machine
open Sys2Proof

/-- A 16 ksps sample (R338, R339): the lines, then the inputs; a set that no longer crosses is judged (R337). -/
def execMeterSample (x : MeterSample) (s : State) : Host.Outcome State Fault Refusal :=
  .next (if !s.mtrRuns then s
    else
      let m := s.mtr
      let s0 : State := { s with mtr := { m with k := m.k + 1, w := m.w + 256, count := m.count + 1 } }
      let s1 := ((x.volts.take 6).zip (List.range 6)).foldl (fun s e => s.lineSample e.2 e.1.toInt) s0
      let s2 := (s1.setSample 0).setSample 1
      let s3 := ((x.raw.take 48).zip (List.range 48)).foldl (fun s e => s.inSample e.2 e.1.toInt) s2
      (s3.setIdle 0).setIdle 1)

/-- A 10 ksps sample of a port meter (R349, R351). -/
def execPortMeterSample (port : PortNo) (power volts amps : BitVec 32) (s : State) : Host.Outcome State Fault Refusal :=
  if s.pwr.refclkLost then .next s else
  let p := port.val
  let x := s.portMtrX p
  let e := power.toNat * 65536 + x.remE
  let c := s.fget (portB p) PORT_PD_END_CABLE_LOSS * 65536 + x.remC
  let x1 : PortMtr := { remE := e % 10000, remC := c % 10000, sp := x.sp + power.toNat, sv := x.sv + volts.toNat, si := x.si + amps.toNat, n := x.n + 1, powered := x.powered && s.powered p, shed := x.shed || s.portShed p }
  .next ((s.setPortMtr p x1).portAdd p (e / 10000) (c / 10000))

/-- A line cycle of a set, or a nominal cycle, ends (R341, R342, R344). -/
def execLineCycleEnd (base : Fin 3) (frac : Fin 256) (s : State) : Host.Outcome State Fault Refusal :=
  .next (if !s.mtrRuns then s
    else if base.val = 2 then s.boundary 2 frac.val
    else
      let s1 := s.setCycle base.val frac.val
      s1.boundary base.val frac.val)

/-- A pulse leaves: ON, counted. -/
def State.pulseOn (s : State) (k : Nat) (x : PulseX) : State :=
  let s1 := s.setPulse k { x with on := true }
  (s1.fset (pulseB k) PULSE_COUNT (s1.fget (pulseB k) PULSE_COUNT + 1)).send (.pulse k true)

/-- A scheduled start comes, or a pending pulse may leave (R354). -/
def execPulseStart (k : Fin 8) (s : State) : Host.Outcome State Fault Refusal :=
  let x := s.pulse k.val
  let busy := x.on || decide (s.now < x.offUntil)
  let pend := mNat s.energy.pend k.val
  .next (if s.inReset Dom.meter.bit then s
    else match x.sched with
    | t :: ts =>
      if s.now < t then (if busy || pend == 0 then s else (s.setPending k.val (pend - 1)).pulseOn k.val x)
      else if busy then (s.setPulse k.val { x with sched := ts }).pulseLate k.val
      else s.pulseOn k.val { x with sched := ts }
    | [] => if busy || pend == 0 then s else (s.setPending k.val (pend - 1)).pulseOn k.val x)

/-- A pulse's WIDTH expires (R354): OFF for at least WIDTH. -/
def execPulseEnd (k : Fin 8) (s : State) : Host.Outcome State Fault Refusal :=
  let x := s.pulse k.val
  .next (if x.on then
      (s.setPulse k.val { x with on := false, offUntil := s.now + 1000000 * max 30 (s.fget (pulseB k.val) PULSE_CFG_WIDTH) }).send (.pulse k.val false)
    else s)

/-- Metering firmware that waits for a latch is adopted (R522): the interval carries PARAM_CHANGED. -/
def State.mtrAdopt (s : State) : State :=
  match s.upd.mtrStaged with
  | none => s
  | some v =>
    let ins := (List.range 48).foldl (fun t i => tabSet (fun _ => MtrIn.reset) t i { tabGet (fun _ => MtrIn.reset) t i with param := true }) s.mtr.ins
    let s1 : State := { s with mtr := { s.mtr with ins := ins }, upd := { s.upd with mtrStaged := none } }
    s1.fset 0 MTR_STATUS_FW_VERSION v

/-- A latch is due: the N-th line-cycle boundary of the timebase has fallen, or the timebase has changed (R342, R345). -/
def State.latchDue (s : State) : Bool :=
  let n := fieldGet s.mtr.ctrl 0 12
  s.mtr.changed || decide ((if n = 0 then 4096 else n) ≤ s.mtr.cycles)

/-- The latch (R345): not made while the METER domain quiesces for a reset (R445). -/
def execMeterLatch (s : State) : Host.Outcome State Fault Refusal :=
  .next (if !s.mtrRuns || (s.dom .meter).phase != .idle || !s.latchDue then s else s.mtrAdopt.latch)

/-- The captured set is published, after any deferral (R346). -/
def execMeterPublish (deferred : Bool) (s : State) : Host.Outcome State Fault Refusal :=
  .next (if !s.mtrRuns then s else (if deferred then s.finc 0 MTR_DEFER_CNT else s).publish)

/-- The periodic save of the energy store (R357, R363). -/
def execEnergyPeriodicSave (done : Bool) (s : State) : Host.Outcome State Fault Refusal :=
  if s.pwr.refclkLost then .next s else
  .next (if s.alloc.saving then s
    else if done then s.energyCommit false
    else (s.fset 0 MTR_STATUS_SAVE_OK 0).event 377 0 true 0)

/-- A DSP channel fails its internal check (R363). -/
def execMeterSelfcheckFail (channel : BitVec 8) (s : State) : Host.Outcome State Fault Refusal :=
  .next (if s.mtrRuns then s.event 381 0 true channel.toNat else s)

/-- METER_READ (R348–R350, R359): inputs from the published set; port meters and gallery totals from it too, and from the energy store
while the METER domain is in reset. DESIGN CHOICE: a SELECT outside the three ranges of R97 receives NO_SUCH_OBJECT (log entry 105). -/
def execMeterRead (r : Req) (select : BitVec 16) (s : State) : Host.Outcome State Fault Refusal :=
  .next (s.serve r 0x70 4 (fun s x _ =>
    let n := select.toNat
    let seq := beBytes 4 (s.fget 0 MTR_LATCH_SEQ)
    let off := s.inReset Dom.meter.bit
    if 1 ≤ n ∧ n ≤ 48 then
      if x.gallery ≠ 0 ∧ s.inputOwner (n - 1) ≠ x.gallery then s.ans .noSuchObject
      else if off then s.ans .blockInReset
      else if s.fbit 0 MTR_STATUS_FW_LOADED = false then s.ans .state
      else s.ansB .ok (seq ++ dataBytes 5 (s.resWords (mtrIB (n - 1) + 0x10) 16))
    else if 0x101 ≤ n ∧ n ≤ 0x140 then
      let p := n - 0x101
      if x.gallery ≠ 0 ∧ s.portOwner p ≠ x.gallery then s.ans .noSuchObject
      else
        let ws := if off then s.portWords p else s.resWords (mtrPB p) 8
        s.ansB .ok (seq ++ dataBytes 2 ws ++ List.replicate 32 0)
    else if 0x200 ≤ n ∧ n ≤ 0x23F then
      let g := n - 0x200
      if x.gallery ≠ 0 ∧ g ≠ x.gallery then s.ans .noSuchObject
      else
        let ws := if off then s.galWords s.pubTab g else s.resWords (mtrGB g) 12
        s.ansB .ok (seq ++ dataBytes 4 ws ++ List.replicate 16 0)
    else s.ans .noSuchObject))

end Sys2Proof.Machine
end

