-- ==== Sys2Proof/Machine/OwnOps.lean ====
section
/-! DEFINITION. Ownership: the check of the pending configuration, and its apply at a cycle tick (R126–R132). -/

namespace Sys2Proof.Machine
open Sys2Proof

/-- The ownership registers with a PENDING field, in ascending address: ports, inputs, analogue channels, pulse outputs, CAN
objects and loop slots (R128). -/
def ownRegs : List Nat :=
  (List.range 64).map (fun i => 0x13100 + 4 * i) ++ (List.range 48).map (fun i => 0x13200 + 4 * i) ++
  (List.range 16).map (fun i => 0x13300 + 4 * i) ++ (List.range 8).map (fun i => 0x13340 + 4 * i) ++
  (List.range 512).map (fun i => 0x13400 + 4 * i) ++ (List.range 1024).map (fun i => 0x14000 + 4 * i)

/-- Is `a` such a register? -/
def isOwnReg (a : Nat) : Bool :=
  (0x13100 ≤ a && a < 0x132C0) || (0x13300 ≤ a && a < 0x13360) || (0x13400 ≤ a && a < 0x13C00) || (0x14000 ≤ a && a < 0x15000)

/-- Is `a` a gallery configuration register `HG_GAL_CFGg`? -/
def isGalCfg (a : Nat) : Bool := 0x12000 ≤ a && a < 0x12400 && a % 16 == 0

/-- The pending and the live owner in the register at `a`. -/
def State.ownPending (s : State) (a : Nat) : Nat := fieldGet (s.rd a).toNat 8 6
def State.ownLive (s : State) (a : Nat) : Nat := fieldGet (s.rd a).toNat 0 6

/-- The pending EN of gallery `g`. -/
def State.pendEn (s : State) (g : Nat) : Bool := s.fbit (galB g) HG_GAL_CFG_EN

/-- The first enabled gallery in pending that fails `bad`: code and offset of its register. -/
def State.ownGal (s : State) (code : Nat) (bad : Nat → Bool) : Option (Nat × Nat) :=
  ((List.range 64).find? (fun g => s.pendEn g && bad g)).map (fun g => (code, 0x2000 + 0x10 * g))

/-- The check of R130: the code and the offset of the first failure, (0, 0) when there is none. DESIGN CHOICE: the
offset of VID_DUPLICATE is that of the higher-numbered gallery of the pair (log entry 108). -/
def State.ownCheck (s : State) : Nat × Nat :=
  let vid := fun g => s.fget (galB g) HG_GAL_CFG_VID
  let sess := fun g => s.fget (galB g) HG_GAL_CFG_MAX_SESSIONS
  let bad1 := if (s.mode = .paired ∨ s.mode = .wide ∨ s.mode = .service) ∧ s.upd.siphon = sipIdle then none else some (1, 0x3000)
  let range := s.ownGal 2 (fun g => vid g < 2 || 4094 < vid g)
  let dup := s.ownGal 3 (fun g => (List.range g).any (fun h => s.pendEn h && vid h == vid g))
  let mgmt := s.ownGal 7 (fun g => vid g == s.fget 0 ETH_MGMT_VID)
  let sessions := s.ownGal 4 (fun g => sess g < 1 || 64 < sess g)
  let owner := (ownRegs.find? (fun a => !s.pendEn (s.ownPending a))).map (fun a => (5, a - 0x10000))
  let task := ((List.range 64).find? (fun t => !s.pendEn (s.taskOwner t))).map (fun t => (6, 0x3C00 + 4 * t))
  (((((((bad1.orElse fun _ => range).orElse fun _ => dup).orElse fun _ => mgmt).orElse fun _ => sessions).orElse fun _ => owner).orElse
    fun _ => task)).getD (0, 0)

/-- A write of 1 to `HG_OWN_APPLY.GO` (R129, R131): whether the write receives OK. -/
def State.ownStart (s : State) : State × Bool :=
  if s.applyAt.isSome then (s, true)
  else
    let r := s.ownCheck
    if r.1 = 0 then ({ s with applyAt := some (s.now + 20000) }, true)
    else
      let s1 := s.wr 0x13004 (BitVec.ofNat 32 (r.2 * 0x10000 + r.1))
      (s1.event 5 0 false (r.2 * 0x10000 + r.1), decide (r.1 ≠ 1))

/-! ### The apply -/

/-- The objects re-roled by a change of owners from `old` to `s` (R126): point-table entries and nodes, with their old roles. -/
def State.ownRoles (s old : State) : List OldRole :=
  let t := s.nextTick
  let pts := (s.points.filter (fun e => e.2.ptype != 0 && s.pointOwner e.1 != old.pointOwner e.1)).map
    (fun e => (⟨t, e.2.ptype, e.1, old.pointOwner e.1, e.2.gen, e.2.bind⟩ : OldRole))
  let nodes := ((List.range 256).filter (fun n => s.portOwner (n / 4) != old.portOwner (n / 4))).map
    (fun n => (⟨t, 16, n, old.portOwner (n / 4), old.genOf 16 n, .node (Fin.ofNat 256 n)⟩ : OldRole))
  pts ++ nodes

/-- A gallery goes out of use (R132): its sessions close, its queued entries take their owner's mark, and it has no grant (R409). -/
def State.galOff (s : State) (g : Nat) : State :=
  let evs := s.events.map (fun e => if e.gallery == g then { e with ackOwner := true } else e)
  ({ s with events := evs } : State).closeSessions (fun x => x.gallery == g) |>.noGrant g

/-- A gallery comes into use (R409): its grant. -/
def State.galOn (s : State) (g : Nat) : State :=
  if s.mode = .wide ∨ s.mode = .service ∧ s.hg.heldMode = .wide then
    let h := s.wideHome g
    if s.lstate h = .wideRun ∨ s.mode = .service then s.setGrant g h false false
    else if s.hasPlacement h.other g && s.fbit (galB g) HG_GAL_LIVE_ESSENTIAL then (s.setGrant g h.other false true)
    else s.setGrant g h.other true false
  else s.setGrant g s.hg.active false false

/-- A loop slot's owner has changed: on both lanes it goes to MANUAL with its output held (R132). -/
def State.slotOwned (s : State) (q : Nat) : State := (s.loopOwned .a q).loopOwned .b q

/-- A port's owner has changed from gallery `g` (R222): its nodes leave the groups of other galleries, and in WIDE its device state goes with it. -/
def State.portOwned (s : State) (p g : Nat) : State :=
  let s1 := match s.mode, s.grant g, s.grant (s.portOwner p) with
    | .wide, some x, some y => if x = y then s else s.lumMove p x y
    | _, _, _ => s
  s1.lumOwner p

/-- The pending configuration becomes live at the tick about to fall (R129, R132). -/
def State.ownApply (s : State) : State :=
  let moved := ownRegs.filter (fun a => s.ownPending a != s.ownLive a)
  let s1 := moved.foldl (fun s a => s.wr a (BitVec.ofNat 32 (s.ownPending a * 0x101))) s
  let s2 := (List.range 64).foldl (fun s g => s.wr (galB g + 8) (s.rd (galB g))) s1
  let roles := s2.ownRoles s
  let s3 := s2.reRole roles
  let on := (List.range 64).filter (fun g => s3.galEn g && !s.galEn g)
  let off := (List.range 64).filter (fun g => !s3.galEn g && s.galEn g)
  let s4 := off.foldl (fun s g => s.galOff g) (on.foldl (fun s g => s.galOn g) s3)
  let s5 := (moved.filter (fun a => a < 0x13200)).foldl (fun s' a => s'.portOwned ((a - 0x13100) / 4) (s.ownLive a)) s4
  let s6 := (moved.filter (fun a => 0x14000 ≤ a)).foldl (fun s a => s.slotOwned ((a - 0x14000) / 4)) s5
  let meters := moved.filter (fun a => a < 0x13300)
  let s7 := (s6.galChanges ((meters.map s.ownLive) ++ meters.map s6.ownLive)).pulseJudge
  let s8 : State := { (s7.wr 0x13004 0).wr 0x13008 (BitVec.ofNat 32 s7.nextTick) with applyAt := none }
  s8.event 4 0 false (moved.length * 0x10000 + roles.length)

end Sys2Proof.Machine
end

