-- ==== Sys2Proof/Machine/Own.lean ====
section
/-! DEFINITION. The tick at which pending ownership becomes live (R129, R132). -/

namespace Sys2Proof.Machine
open Sys2Proof

/-- The apply takes effect at the first cycle tick at least 20 µs after its acceptance, in PAIRED, WIDE or SERVICE (R129–R132). DESIGN CHOICE:
where the mode has left these before that tick, GO stays 1 and the apply waits for the first tick in one of them (log entry 107). -/
def execOwnershipApplyTick (s : State) : Host.Outcome State Fault Refusal :=
  if s.pwr.refclkLost then .next s else
  .next (match s.applyAt with
    | some t => if t ≤ s.now ∧ (s.mode = .paired ∨ s.mode = .wide ∨ s.mode = .service) then s.ownApply else s
    | none => s)

end Sys2Proof.Machine
end

