-- ==== Sys2Proof/Machine/Ports.lean ====
section
/-! DEFINITION. The port sequencer, the weir and the cable measurement (R143–R170). -/

namespace Sys2Proof.Machine
open Sys2Proof

/-- A foreign voltage on a pair-set (R144). -/
def sigForeign (g : Signature) : Bool := decide (2800 ≤ g.open_.toNat)

/-- A valid signature (R144): 19.0–26.5 kΩ with at most 150 nF. -/
def sigValid (g : Signature) : Bool := decide (19000 ≤ g.ohms.toNat) && decide (g.ohms.toNat ≤ 26500) && decide (g.pf.toNat ≤ 150000)

/-- A detection pass (R143, R144): a foreign voltage on a pair-set under detection records BACKFEED, with its event once per episode;
otherwise the pass keeps which of them showed a valid signature. -/
def execPortDetectPass (port : PortNo) (a b : Signature) (s : State) : Host.Outcome State Fault Refusal :=
  let p := port.val
  let dA := s.pst p .a == stDetect
  let dB := s.pst p .b == stDetect
  .next (if !s.seqRuns || !(dA || dB) then s
    else
      let x := s.portX p
      if (dA && sigForeign a) || (dB && sigForeign b) then
        let s1 := s.reason p 7
        let s2 := if x.backfeed then s1 else s1.faultEvent p 7
        s2.setPortX p { x with backfeed := true, sigA := false, sigB := false }
      else s.setPortX p { x with backfeed := false, sigA := dA && sigValid a, sigB := dB && sigValid b })

/-- The connection check ends (R145): single-signature, or dual-signature with the pair-sets that showed a signature carried
forward to CLASSIFY and the other left at 0 V. -/
def execPortConnectionCheckDone (port : PortNo) (single : Bool) (s : State) : Host.Outcome State Fault Refusal :=
  let p := port.val
  let x := s.portX p
  let both := s.pst p .a == stDetect && s.pst p .b == stDetect
  .next (if !s.seqRuns || !(x.sigA || x.sigB) then s
    else if both && x.sigA && x.sigB && single then (s.fset (portB p) PORT_STATUS_SIG 1).setBoth p stClassify
    else if both then
      let s0 := s.setPortX p { x with claimA := if x.sigA then x.claimA else 0, claimB := if x.sigB then x.claimB else 0 }
      let s1 := s0.fset (portB p) PORT_STATUS_SIG 2
      (s1.setPst p .a (if x.sigA then stClassify else stOff)).setPst p .b (if x.sigB then stClassify else stOff)
    else
      let s1 := if x.sigA && s.pst p .a == stDetect then s.setPst p .a stClassify else s
      if x.sigB && s1.pst p .b == stDetect then s1.setPst p .b stClassify else s1)

/-- A pair-set's class is decoded and demoted (R146–R148); an invalid one is removed with CLASS_ERROR. -/
def State.classify (s : State) (p : Nat) (ps : PairSet) (c : Option (Fin 16)) : State :=
  if s.pst p ps != stClassify then s
  else
    let d := s.dual p
    match c with
    | none => s.removeFault p ps 6 0
    | some c =>
      if !classValid d c.val then s.removeFault p ps 6 0
      else
        let g := classGranted d (s.fget (portB p) PORT_CTRL_CLASS_MAX) c.val
        let x := s.portX p
        let s1 := s.setPortX p { x with demoted := (d && ps == .b && x.demoted) || g != c.val }
        if d && ps == .b then s1.fset (portB p) PORT_STATUS_CLASS_B g
        else
          let s2 := s1.fset (portB p) PORT_STATUS_CLASS g
          if d then s2 else s2.fset (portB p) PORT_STATUS_CLASS_B 0

/-- The last class event ends (R146–R150): the class is decoded and demoted, and its PSE power is asked of the allocator. -/
def execPortClassifyDone (port : PortNo) (clsA clsB : Option (Fin 16)) (auto : Bool) (s : State) :
    Host.Outcome State Fault Refusal :=
  let p := port.val
  .next (if !s.seqRuns || !(s.pst p .a == stClassify || s.pst p .b == stClassify) then s
    else
      let d := s.dual p
      let s0 := if s.powered p then s else (s.fset (portB p) PORT_STATUS_AUTOCLASS 0).fset (portB p) PORT_AUTOCLASS 0
      let s1 := s0.classify p .a clsA
      let s2 := if d then s1.classify p .b clsB else s1
      let inC (q : PairSet) : Bool := s2.pst p q == stClassify
      if inC .a || inC .b then
        let w := s2.psSum p inC (fun q => classPower d (s2.cls p q))
        let x := s2.portX p
        -- the request ends an earmark that its claim has outgrown (R187)
        let e := x.earmark.filter (fun e => decide (w ≤ e))
        s2.setPortX p { x with asked := some s2.now, granted := false, claimA := if inC .a then classPower d (s2.cls p .a) else x.claimA, claimB := if inC .b then classPower d (s2.cls p .b) else x.claimB, earmark := e, autoReq := auto && !d && s2.fbit (portB p) PORT_CTRL_AUTOCLASS_EN }
      else s2)

/-- The allocator's grant reaches the sequencer (R143, R150, R151): inrush starts. -/
def execPortGrantReceived (port : PortNo) (s : State) : Host.Outcome State Fault Refusal :=
  let p := port.val
  let x := s.portX p
  .next (if !s.seqRuns || !x.granted || !(s.pst p .a == stClassify || s.pst p .b == stClassify) then s
    else
      let s1 := [PairSet.a, PairSet.b].foldl (fun s q => if s.pst p q == stClassify then s.setPst p q stInrush else s) s
      let s2 := s1.setPortX p { x with granted := false, asked := none, t4 := s1.now, onAt := s1.now }
      let g := s2.goals p
      let y := s2.portX p
      let fresh (q : PairSet) : Bool := s.pst p q == stClassify
      (s2.setPortX p { y with nowA := if fresh .a then g.1 else y.nowA, nowB := if fresh .b then g.2 else y.nowB }).showV p)

/-- No grant within 150 ms of the last class event: 0 V and PENDING (R150). -/
def execPortGrantTimeout (port : PortNo) (s : State) : Host.Outcome State Fault Refusal :=
  let p := port.val
  let x := s.portX p
  .next (if !s.seqRuns || x.granted || !(s.pst p .a == stClassify || s.pst p .b == stClassify) then s
    else
      let s1 := [PairSet.a, PairSet.b].foldl (fun s q => if s.pst p q == stClassify then s.setPst p q stPending else s) s
      (s1.setPortX p { x with asked := none, queuedAt := s1.now }).adopt p)

/-- The port's class-change event (R149, R179). -/
def State.classEvent (s : State) (p prev : Nat) : State :=
  let b := portB p
  s.event (portEv p 1) (s.portOwner p) false (prev * 0x10000000 + s.fget b PORT_STATUS_CLASS * 0x1000000 +
    s.fget b PORT_STATUS_CLASS_B * 0x100000 + s.fget b PORT_STATUS_SIG * 0x40000 + s.fget b PORT_STATUS_AUTOCLASS * 0x20000 +
    (if (s.portX p).demoted then 0x10000 else 0) + min (s.fget b PORT_AUTOCLASS / 100) 0xFFFF)

/-- Inrush is complete (R143, R151): the port, or the pair-set, is ON; a class that differs from the previous ON is
reported, and the luminaire link starts. The 10 s of R183 count from here, so for a dual-signature port from its latest pair-set's ON
(DESIGN CHOICE, log entry 92). -/
def execPortInrushComplete (port : PortNo) (ps : PairSet) (s : State) : Host.Outcome State Fault Refusal :=
  let p := port.val
  .next (if !s.seqRuns || s.pst p ps != stInrush then s
    else
      let s1 := s.setPst p ps stOn
      let cur := (s1.fget (portB p) PORT_STATUS_SIG, s1.fget (portB p) PORT_STATUS_CLASS, s1.fget (portB p) PORT_STATUS_CLASS_B)
      let x := s1.portX p
      let s2 := s1.setPortX p { x with onAt := s1.now, lastOn := some cur }
      let s3 := if x.lastOn = some cur then s2 else s2.classEvent p (match x.lastOn with
        | some o => o.2.1
        | none => 0)
      s3.lumArrive p)

/-- Inrush not complete at 75 ms (R151). -/
def execPortInrushTimeout (port : PortNo) (ps : PairSet) (s : State) : Host.Outcome State Fault Refusal :=
  .next (if s.seqRuns && s.pst port.val ps == stInrush then s.removeFault port.val ps 5 0 else s)

/-- No valid MPS for 350 ms (R153). -/
def execPortMpsLost (port : PortNo) (ps : PairSet) (s : State) : Host.Outcome State Fault Refusal :=
  .next (if s.seqRuns && s.pst port.val ps == stOn then s.removeFault port.val ps 2 0 else s)

/-- PSE power above 1.05 × the class power for 60 ms (R154). -/
def execPortOverload (port : PortNo) (ps : PairSet) (s : State) : Host.Outcome State Fault Refusal :=
  .next (if s.seqRuns && s.psPowered port.val ps then s.removeFault port.val ps 3 0 else s)

/-- What the weir has let through since the clamp engaged is added to its fault event (R160). -/
def State.weirAdd (s : State) (p e : Nat) : State :=
  let x := s.portX p
  if x.faultEvent && (x.clampA || x.clampB) then s.setPortX p { x with energy := x.energy + e } else s

/-- A pair-set at its ILIM for 10 ms (R154). -/
def execPortShort (port : PortNo) (ps : PairSet) (energy : BitVec 32) (s : State) : Host.Outcome State Fault Refusal :=
  .next (if s.seqRuns && s.psPowered port.val ps then (s.weirAdd port.val energy.toNat).removeFault port.val ps 4 0 else s)

/-- A regulator phase too hot, or a pair-set's voltage off its setting (R155). -/
def execPortRegFault (port : PortNo) (ps : PairSet) (s : State) : Host.Outcome State Fault Refusal :=
  .next (if s.seqRuns && s.psPowered port.val ps then s.removeFault port.val ps 10 0 else s)

/-- 1.0 s after a removal (R143, R156): DETECT, when fewer than five counted faults lie in the last 60 s or RESTART waits;
in SAFE the port stays. -/
def execPortBackoffExpired (port : PortNo) (ps : PairSet) (s : State) : Host.Outcome State Fault Refusal :=
  let p := port.val
  .next (if s.seqRuns && s.pst p ps == stBackoff && s.mode != .safe &&
      (decide (s.recentFaults p < 5) || s.fbit (portB p) PORT_CMD_RESTART) then s.toDetect p ps else s)

/-- 3.0 s after t4 the autoclass power is recorded (R149). The event's previous CLASS is then the current one: the class has not changed since
the port's ON (DESIGN CHOICE, log entry 93). -/
def execAutoclassWindowEnd (port : PortNo) (peak : BitVec 32) (s : State) : Host.Outcome State Fault Refusal :=
  let p := port.val
  let x := s.portX p
  .next (if s.seqRuns && s.portOn p && x.autoReq && !s.dual p then
      let w := min (peak.toNat + 1750) (classPower false (s.cls p .a))
      let s1 := ((s.setPortX p { x with autoReq := false, claimA := w }).fset (portB p) PORT_STATUS_AUTOCLASS 1).fset (portB p)
        PORT_AUTOCLASS w
      s1.classEvent p (s1.cls p .a)
    else s)

/-- A measurement falls due by its schedule (R164). -/
def execLoopRMeasureDue (port : PortNo) (s : State) : Host.Outcome State Fault Refusal :=
  .next (if s.seqRuns && s.powered port.val then s.measDue port.val else s)

/-- 60 s after a skipped measurement (R164). -/
def execLoopRMeasureRetry (port : PortNo) (s : State) : Host.Outcome State Fault Refusal :=
  .next (if s.seqRuns && s.powered port.val then s.measDue port.val else s)

/-- The result of one step of a measurement (R166): the PD's power in nW, its voltage in mV and the loop resistances of the
stepped and the other pair-set in mΩ; none where a divisor is zero. Voltages in mV, currents in µA. -/
def loopSolve (v0 v1 i0 i1 w0 j0 j1 : Int) : Option (Int × Int × Int × Int) :=
  let t0 := i0 + j0
  let t1 := i1 + j1
  let den := i1 * t1 - i0 * t0
  if den = 0 ∨ t0 = 0 ∨ i0 = 0 then none
  else
    let pw := (v0 * i1 - v1 * i0) * t0 * t1 / den
    some (pw, pw / t0, (v0 * t0 - pw) * 1000000 / (t0 * i0), if j0 = 0 then 0 else (w0 * t0 - pw) * 1000000 / (t0 * j0))

/-- Does a resistance lie in 0.1–30.0 Ω (R166)? -/
def loopInRange (r : Int) : Bool := 100 ≤ r && r ≤ 30000

/-- Do two results agree within 2 % (R166)? -/
def loopAgree (a b : Int) : Bool := (a - b).natAbs * 100 ≤ (a + b).natAbs

/-- What a valid measurement gives: the loop resistances (none for a pair-set not measured) in mΩ, the PD's voltage in mV and
the base current in µA. -/
structure LoopResult where
  ra : Option Nat
  rb : Option Nat
  vpd : Int
  i0 : Int

/-- A measurement's results, if it is valid (R166). -/
def State.loopResult (s : State) (p : Nat) (base stepA stepB : LoopSample) : Option LoopResult :=
  let n (x : BitVec 32) : Int := x.toNat
  let nat (x : Int) : Nat := x.toNat
  let va := n base.va
  let vb := n base.vb
  let ia := n base.ia
  let ib := n base.ib
  let pse : Int := s.fget (portB p) PORT_POWER * 1000000
  let powerOk (pw ra rb : Int) : Bool :=
    let want := pse - (ia * ia * ra + ib * ib * rb) / 1000000
    10 * (pw - want).natAbs ≤ want.natAbs
  if s.dual p then
    let one (on : Bool) (v0 v1 i0 i1 : Int) : Option (Option (Int × Int × Int × Int)) :=
      if on then (loopSolve v0 v1 i0 i1 0 0 0).map some else some none
    match one (s.pst p .a == stOn) va (n stepA.va) ia (n stepA.ia), one (s.pst p .b == stOn) vb (n stepB.vb) ib (n stepB.ib) with
    | some a, some b =>
      let ra := a.map (fun r => r.2.2.1)
      let rb := b.map (fun r => r.2.2.1)
      let pw := (a.map (fun r => r.1)).getD 0 + (b.map (fun r => r.1)).getD 0
      if ra.all loopInRange && rb.all loopInRange && powerOk pw (ra.getD 0) (rb.getD 0) then
        some ⟨ra.map nat, rb.map nat, match a, b with
          | some r, _ => r.2.1
          | none, some r => r.2.1
          | none, none => 0, ia + ib⟩
      else none
    | _, _ => none
  else
    match loopSolve va (n stepA.va) ia (n stepA.ia) vb ib (n stepA.ib), loopSolve vb (n stepB.vb) ib (n stepB.ib) va ia (n stepB.ia) with
    | some a, some b =>
      let ra := (a.2.2.1 + b.2.2.2) / 2
      let rb := (a.2.2.2 + b.2.2.1) / 2
      if loopAgree a.2.2.1 b.2.2.2 && loopAgree a.2.2.2 b.2.2.1 && [a.2.2.1, a.2.2.2, b.2.2.1, b.2.2.2].all loopInRange &&
          powerOk ((a.1 + b.1) / 2) ra rb then some ⟨some (nat ra), some (nat rb), (a.2.1 + b.2.1) / 2, ia + ib⟩ else none
    | _, _ => none

/-- The port's cable event for a cause (R170, R179). -/
def State.cableEvent (s : State) (p cause : Nat) : State :=
  let r (x : Nat) : Nat := if x = 0xFFFF then 0 else x
  let w := max (r (s.fget (portB p) PORT_LOOP_R_LOOP_A)) (r (s.fget (portB p) PORT_LOOP_R_LOOP_B))
  s.event (portEv p 3) (s.portOwner p) (2 ≤ cause && cause ≤ 4) (cause * 0x1000000 + w)

/-- Has a loop resistance changed by more than 15 % from the previous valid measurement (R170)? -/
def loopMoved (old new : Nat) : Bool := old != 0xFFFF && decide (100 * (max old new - min old new) > 15 * old)

/-- A measurement ends (R166–R168, R170). A valid one writes the resistances, the age, the target and the trim; each cable
cause it meets is reported. -/
def execLoopRMeasureComplete (port : PortNo) (base stepA stepB : LoopSample) (s : State) : Host.Outcome State Fault Refusal :=
  let p := port.val
  let b := portB p
  let x := s.portX p
  .next (if !s.seqRuns || !x.measuring then s
    else
      let s0 := s.fset b PORT_CMD_REMEASURE 0
      match s.loopResult p base stepA stepB with
      | none =>
        let k := x.badRun + 1
        let s1 := s0.setPortX p { x with measuring := false, badRun := if k ≥ 3 then 0 else k }
        if k ≥ 3 then s1.cableEvent p 5 else s1
      | some r =>
        let oldA := s.fget b PORT_LOOP_R_LOOP_A
        let oldB := s.fget b PORT_LOOP_R_LOOP_B
        let wasSat := s.fbit b PORT_STATUS_TRIM_SAT
        let ra := r.ra.getD oldA
        let rb := r.rb.getD oldB
        let steps := ((max ra rb - min ra rb) * r.i0.toNat / 2 + 12500000) / 25000000
        let t := min steps 12
        let s1 := (s0.fset b PORT_LOOP_R_LOOP_A ra).fset b PORT_LOOP_R_LOOP_B rb
        let s2 := s1.setPortX p { x with measuring := false, badRun := 0, measAt := some s.now, valid := true, trimA := if ra < rb then t else 0, trimB := if rb < ra then t else 0, trimSat := decide (steps > 12) }
        let s3 := (s2.retarget p).showV p
        let big := (r.ra.any (fun v => v > 12500)) || (r.rb.any (fun v => v > 12500))
        let moved := (r.ra.any (loopMoved oldA)) || (r.rb.any (loopMoved oldB))
        let ia := base.ia.toNat
        let ib := base.ib.toNat
        let uneven := wasSat && decide (200 * (max ia ib - min ia ib) > 5 * (ia + ib))
        let c (s : State) (f : Bool) (k : Nat) : State := if f then s.cableEvent p k else s
        c (c (c (c s3 big 1) moved 2) uneven 3) (decide (r.vpd < 42000)) 4)

/-- Each 1 ms the regulator moves a pair-set by at most one code toward its setting; not during a measurement step (R169,
R176). A measurement that has waited for the ramp falls due when it ends. -/
def execVoltageRampStep (port : PortNo) (s : State) : Host.Outcome State Fault Refusal :=
  let p := port.val
  let x := s.portX p
  let g := s.goals p
  .next (if !s.seqRuns || x.measuring || !s.powered p then s
    else
      let s1 := (s.setPortX p { x with nowA := rampStep x.nowA g.1, nowB := rampStep x.nowB g.2 }).showV p
      if x.measDue && s1.ramped p then (s1.setPortX p { s1.portX p with measDue := false }).measDue p else s1)

/-- The output capacitance energy of the powered pair-sets, µJ, at 1.0 µF (R159, R160). -/
def State.capEnergy (s : State) (p : Nat) : Nat :=
  let e (v : Nat) : Nat := v * v / 2000000
  (if s.psPowered p .a then e (s.fget (portB p) PORT_PS_A_VOLTAGE) else 0) +
    (if s.psPowered p .b then e (s.fget (portB p) PORT_PS_B_VOLTAGE) else 0)

/-- The weir's clamp engages (R159, R160): a fault event opens or continues. -/
def execWeirClampEngage (port : PortNo) (ps : PairSet) (s : State) : Host.Outcome State Fault Refusal :=
  let p := port.val
  let x := s.portX p
  .next (if !s.psPowered p ps then s
    else
      let e := if x.faultEvent then x.energy else s.capEnergy p
      ((s.setPortX p { x with faultEvent := true, energy := e, clampA := x.clampA || ps == .a, clampB := x.clampB || ps == .b }).fset
        (portB p) PORT_STATUS_WEIR_LIMIT 1).showLimit p)

/-- The clamped current falls below 1.00 A and the clamp releases (R159, R160). -/
def execWeirClampRelease (port : PortNo) (ps : PairSet) (energy : BitVec 32) (s : State) : Host.Outcome State Fault Refusal :=
  let p := port.val
  let s1 := s.weirAdd p energy.toNat
  let x := s1.portX p
  let a := x.clampA && ps != .a
  let b := x.clampB && ps != .b
  .next (if !(x.clampA || x.clampB) then s
    else ((s1.setPortX p { x with clampA := a, clampB := b }).fsetB (portB p) PORT_STATUS_WEIR_LIMIT (a || b)).showLimit p)

/-- The integral reaches 1.35 J or 12 ms: the weir opens both pair-set switches (R160). -/
def execWeirEnergyTrip (port : PortNo) (energy : BitVec 32) (s : State) : Host.Outcome State Fault Refusal :=
  let p := port.val
  .next (if s.powered p && (s.portX p).faultEvent then (s.weirAdd p energy.toNat).removeWeir p [.a, .b] 8 1 else s)

/-- The clamp has stayed released for 100 ms: the fault event ends (R160, R163). -/
def execWeirFaultEventEnd (port : PortNo) (s : State) : Host.Outcome State Fault Refusal :=
  let x := s.portX port.val
  .next (if x.faultEvent && !x.clampA && !x.clampB then s.weirEnd port.val 0 else s)

/-- The 3 s mean power reaches 99.0 W (R161). -/
def execWeir3sTrip (port : PortNo) (s : State) : Host.Outcome State Fault Refusal :=
  .next (if s.powered port.val then s.removeWeir port.val [.a, .b] 9 2 else s)

/-- A pair-set exceeds 59.0 V for 10 µs: the weir opens its switch (R162). -/
def execWeirOvervoltage (port : PortNo) (ps : PairSet) (s : State) : Host.Outcome State Fault Refusal :=
  .next (if s.psPowered port.val ps then s.removeWeir port.val (s.units port.val ps) 10 3 else s)

/-- The weir's own refusal of power ends (R160). -/
def execWeirRefusalEnd (port : PortNo) (s : State) : Host.Outcome State Fault Refusal :=
  .next (s.setPortX port.val { s.portX port.val with refused := false })

end Sys2Proof.Machine
end

