-- ==== Sys2Proof/Machine/Power.lean ====
section
/-! DEFINITION. Power-on, its release sequence, the clock monitors, and the loss of power (R28–R37, R46, R71, R197–R202). -/

namespace Sys2Proof.Machine
open Sys2Proof

/-- t0 (R34): main power is valid; the backup domain leaves the coin cell (R477, R479). -/
def execMainPowerValidAsserted (s : State) : Host.Outcome State Fault Refusal :=
  .next (if s.pwr.mainPower then s
    else
      let s1 : State := { s with pwr := { s.pwr with mainPower := true } }
      let s2 := s1.fromCell
      if s2.pwr.aonOut then s2 else { s2 with pwr := { s2.pwr with t0 := s2.now } })

/-- t1 (R34): AON is released and the PLL is enabled; the slot pins are read (R41), the power-cycle count advances (R483), and each lane's
`LUM_EPOCH` is drawn (R209). -/
def execRefclkStable (slot : BitVec 8) (s : State) : Host.Outcome State Fault Refusal :=
  .next (if !s.pwr.mainPower || s.pwr.aonOut then s
    else
      let s1 : State := { s with aon := 0, pwr := { s.pwr with aonOut := true, t1 := s.now, step := 0, cause := .powerOn, fails := 0, refclkDue := false } }
      let s2 := (s1.fset 0 SYS_SLOT_SLOT_ID slot.toNat).fset 0 FLOW_CYCLES (s1.fget 0 FLOW_CYCLES + 1)
      let w := s2.free
      let e := 1 + w.1.toNat % 0xFFFFFFFF
      (w.2.fset (laneKey .a 0) LUM_EPOCH e).fset (laneKey .b 0) LUM_EPOCH e)

/-- t2 (R34, R36): the copies agree and PORTPWR is released, or the module enters HOLD. -/
def execHeadgateStartCompareDone (agree : Bool) (s : State) : Host.Outcome State Fault Refusal :=
  .next (if !s.pwr.aonOut || s.pwr.compared then s
    else
      let s1 : State := { s with pwr := { s.pwr with compared := true, agreed := agree } }
      if agree then s1.portpwrUp else s1.headgateHold 1 1)

/-- t3 (R34), or the end of a relock. -/
def execPllLocked (s : State) : Host.Outcome State Fault Refusal :=
  .next (if !s.pwr.aonOut || s.pwr.refclkLost then s
    else ({ s with pwr := { s.pwr with fails := 0 } } : State).fset 0 CLK_STATUS_PLL_LOCK 1)

/-- An instant of t4–t8 (R34), once the copies agree or a choice has been taken (R36) and the PLL has locked. -/
def execDomainReleaseStep (reads : PowerReads) (s : State) : Host.Outcome State Fault Refusal :=
  .next (if s.pwr.aonOut && s.pwr.agreed && !s.pwr.refclkLost && s.fbit 0 CLK_STATUS_PLL_LOCK && decide (s.pwr.step < 5) then s.releaseStep reads
    else s)

/-- Main power is lost before t8 (R35). -/
def execMainPowerLostBeforeT8 (s : State) : Host.Outcome State Fault Refusal :=
  .next (if s.pwr.mainPower && !(s.pwr.step == 5) then s.powerLost [] else s)

/-- The PLL loses lock for more than 1 µs (R28, R29). Until it has locked there is no lock to lose. -/
def execPllLossOfLock (s : State) : Host.Outcome State Fault Refusal :=
  .next (if !s.pwr.aonOut || s.pwr.refclkLost || !s.fbit 0 CLK_STATUS_PLL_LOCK then s
    else
      let done := decide (s.pwr.step = 5)
      let losses := (s.pwr.losses.filter (fun t => s.now < t + 60000000000)) ++ [s.now]
      let s1 := (((s.resetSix 2).fset 0 CLK_STATUS_PLL_LOCK 0).fset 0 CLK_STATUS_UNLOCK_SEEN 1).finc 0 CLK_UNLOCK_CNT_COUNT
      let s2 : State := { s1 with pwr := { s1.pwr with step := 0, cause := if done then .relock else s1.pwr.cause, fails := 0, losses := losses } }
      if losses.length ≥ 3 then s2.enterSafe 3 else s2)

/-- A lock attempt fails (R29): the third in a row leads to SAFE. -/
def execPllLockAttemptTimeout (s : State) : Host.Outcome State Fault Refusal :=
  .next (if !s.pwr.aonOut || s.pwr.refclkLost || s.fbit 0 CLK_STATUS_PLL_LOCK then s
    else
      let n := s.pwr.fails + 1
      let s1 : State := { s with pwr := { s.pwr with fails := n } }
      if n ≥ 3 then s1.enterSafe 3 else s1)

/-- REFCLK is lost (R30): the domains are held in reset; AON and PORTPWR stand still. The release that ends it raises event 2 whatever else
it ends (R31). -/
def execRefclkLost (s : State) : Host.Outcome State Fault Refusal :=
  .next (if !s.pwr.aonOut || s.pwr.refclkLost then s
    else
      let done := decide (s.pwr.step = 5)
      let s1 := (s.resetSix 3).fset 0 CLK_STATUS_PLL_LOCK 0
      { s1 with pwr := { s1.pwr with refclkLost := true, lostFor := 0, refclkDue := true, step := 0, cause := if done then .refclk else s1.pwr.cause } })

/-- REFCLK has returned for 1,024 periods (R31). It was declared lost two RTC periods after its last edge. -/
def execRefclkReturned (s : State) : Host.Outcome State Fault Refusal :=
  .next (if !s.pwr.refclkLost then s
    else
      let periods := (s.pwr.lostFor + 20075) * 32768 / 1000000000
      let s1 : State := { s with pwr := { s.pwr with refclkLost := false, fails := 0 } }
      (s1.fset 0 CLK_STATUS_REFCLK_LOST_SEEN 1).fsat 0 CLK_REFLOST_TIME periods)

/-- Power-fail warning asserts, unless it stands or PORTPWR is in reset: the AON comparators judge it, with REFCLK or without (R204). -/
def State.pfwAssert (s : State) (cause : Nat) : State :=
  if s.inReset 1 || s.fbit 0 ALLOC_ENTRY_STATUS_PFW then s else s.powerFail cause

/-- MATE_N goes high (R46): both input switches open and power-fail warning asserts. -/
def execMateNHigh (s : State) : Host.Outcome State Fault Refusal :=
  let s1 := s.fset 0 ALLOC_ENTRY_STATUS_MATED 0
  let s2 := ((s1.fset 0 ALLOC_ENTRY_STATUS_A_PRESENT 0).fset 0 ALLOC_ENTRY_STATUS_B_PRESENT 0).ceiling
  .next (s2.pfwAssert 2)

/-- Both buses have been below 52.0 V for 50 µs (R47, R197). -/
def execPowerFailWarning (s : State) : Host.Outcome State Fault Refusal :=
  .next (s.pfwAssert 1)

/-- The hottest sensor has been at 110 °C for 1 s (R71). -/
def execHotspotOvertemp (s : State) : Host.Outcome State Fault Refusal :=
  .next (if s.pwr.aonOut && !s.pwr.refclkLost then s.enterSafe 4 else s)

/-- The power-fail save completes (R200). -/
def execPfwSaveComplete (us : BitVec 16) (ok : Bool) (s : State) : Host.Outcome State Fault Refusal :=
  .next (if s.alloc.saving && !s.pwr.refclkLost then s.powerSaved us.toNat ok else s)

/-- The bank reaches V_FLOOR (R201). -/
def execHoldupLost (torn : List FlashPage) (s : State) : Host.Outcome State Fault Refusal := .next (s.powerLost torn)

/-- The changed RETAIN pages and the set record are written (R302). Once power-fail warning asserts, only its save writes the store (R532). -/
def execRetainSetCommit (lane : Lane) (s : State) : Host.Outcome State Fault Refusal :=
  .next (if s.retainDue lane && !s.fbit 0 ALLOC_ENTRY_STATUS_PFW then s.retainCommit lane else s)

end Sys2Proof.Machine
end

