-- ==== Sys2Proof/Machine/RegWrite.lean ====
section
/-! DEFINITION. Writing a register: what refuses a write, the access codes of R12, and what a write does beside setting the
register. -/

namespace Sys2Proof.Machine
open Sys2Proof

/-! ### The access codes (R12, R13) -/

/-- The RW bits of the register at `a`: on the internal switch ports the fields marked external ignore writes and the MTU is fixed
(R249, R265). -/
def rwMask (a : Nat) (r : RegRow) : Nat :=
  if 0x143000 ≤ a && a < 0x145000 then
    (match a % 0x1000 with
    | 0x00 => r.rw &&& 0x9FFFFFFF
    | 0x0C | 0x10 | 0x14 => 0
    | _ => r.rw)
  else if a = 0x12000 then r.rw &&& 0x3FFFFFFF
  else r.rw

/-- The register at `a` after a write of `v` over `old`, by its access codes. -/
def regNext (a old v : Nat) : Nat :=
  match regRow? a with
  | none => old
  | some r =>
    let rw := rwMask a r
    let kept := old &&& (0xFFFFFFFF ^^^ (rw ||| r.w1c))
    ((kept ||| (v &&& rw)) ||| (old &&& r.w1c &&& (0xFFFFFFFF ^^^ v))) ||| (v &&& r.w1s)

/-- Set the register at `a` of lane `l` by its access codes. -/
def State.regSet (s : State) (l : Lane) (a v : Nat) : State :=
  let k := regKey l a
  s.wr k (BitVec.ofNat 32 (regNext a (s.rd k).toNat v))

/-! ### What refuses a write -/

/-- The bits of the register at `a` that are revenue parameters (R356). -/
def revenueBits (a : Nat) : Nat :=
  if a = 0xA0000 then 0x3000
  else if 0xA0100 ≤ a && a < 0xA3100 then
    (match a % 0x100 with
    | 0x0 => 0xFC000000
    | 0x4 => 0xFFFFFFFF
    | 0x8 => 0xFFFF
    | _ => 0)
  else if 0xA6000 ≤ a && a < 0xA6100 then
    (match a % 0x20 with
    | 0x0 => 0xF07F00FF
    | 0x4 => 0xFFFFFFFF
    | _ => 0)
  else 0

/-- Would a write of `v` to the register at `a` change a revenue parameter? -/
def State.revenueMoves (s : State) (a v : Nat) : Bool :=
  decide ((regNext a (s.rd a).toNat v &&& revenueBits a) ≠ ((s.rd a).toNat &&& revenueBits a))

/-- Does a register hold revenue parameters only? -/
def revenueOnly (a : Nat) : Bool := revenueBits a != 0 && a != 0xA0000 && !(a < 0xA3100 && a % 0x100 == 0)

/-- The gallery whose output a register write commands (R90, R178, R379, R399): the ports' PORT_CTRL and PORT_VSET, the registers of analogue
channels, and headers and payloads of CAN objects. -/
def State.cmdGallery (s : State) (a : Nat) : Option Nat :=
  if 0x80000 ≤ a && a < 0x90000 then (if a % 0x400 < 8 then some (s.portOwner ((a - 0x80000) / 0x400)) else none)
  else if 0xB0100 ≤ a && a < 0xB1100 then some (s.aioOwner ((a - 0xB0100) / 0x100))
  else if 0xC0000 ≤ a && a < 0xD0000 then
    let n := (a - 0xC0000) / 0x4000
    let o := a % 0x4000
    if 0x1800 ≤ o && o < 0x2000 then some (s.canOwner n ((o - 0x1800) / 0x10))
    else if 0x2000 ≤ o then some (s.canOwner n ((o - 0x2000) / 0x40))
    else none
  else none

/-- Do the lanes share the galleries between them: in WIDE, and in a HOLD or a SERVICE entered from it, which leaves the grants as they are? -/
def State.sharesGrants (s : State) : Bool :=
  let img := (s.image.map ProgImage.wide).getD false
  match s.mode with
  | .wide => true
  | .service => img
  | .hold => s.hg.heldMode == .wide || s.hg.heldMode == .service && img
  | _ => false

/-- Where the lanes share the galleries, the gallery's granted lane makes the write, if it runs or is held (R20, R90, R178). DEDUCED: the passing
of R90 goes on in a HOLD or a SERVICE entered from WIDE (log entry 72). -/
def State.cmdReaches (s : State) (g : Nat) : Bool :=
  !s.sharesGrants || (match s.grant g with
    | some l => s.wideUp l
    | none => false)

/-- The objects whose request bits `v` sets in word `w` of `CANn_TXREQ`. -/
def reqBits (w v : Nat) : List Nat := ((List.range 32).filter (fun i => v.testBit i)).map (fun i => 32 * w + i)

/-- The result of a write that is refused and changes nothing, if it is. -/
def State.regDeny (s : State) (l : Lane) (a v : Nat) : Option Res :=
  if s.applyAt.isSome && (isGalCfg a || isOwnReg a) then some .state
  else if a = 0x100010 && (List.range 64).any (fun g => s.galEn g && s.fget (galB g) HG_GAL_LIVE_VID == v % 0x1000) then some .range
  else if s.fbit 0 MTR_SEAL && revenueBits a != 0 && (revenueOnly a || s.revenueMoves a v) then some .state
  else if a = 0xA0020 && v.testBit 1 && decide (s.mode ≠ .service) then some .state
  else if a = 0x20020 && v.testBit 30 && s.rtcDisc != 0 then some .state
  else if a = 0x24010 && v.testBit 0 && !s.flowFrozen then some .state
  else if 0x30000 ≤ a && a < 0x31000 && s.fbit (laneKey l (a - a % 0x400)) CKV_STATUS_BUSY && a % 0x400 != 4 && a % 0x400 != 8 then some .busy
  else if 0xC0000 ≤ a && a < 0xD0000 && 0x20 ≤ a % 0x4000 && a % 0x4000 < 0x30 &&
      !(reqBits ((a % 0x4000 - 0x20) / 4) v).all (fun o => s.cmdReaches (s.canOwner ((a - 0xC0000) / 0x4000) o)) then some .state
  else match s.cmdGallery a with
    | some g => if s.cmdReaches g then none else some .state
    | none => none

/-! ### What a write does -/

/-- `MTR_SEAL` (R356): UNSEAL, then SEAL; each change raises event 379 and is held in the retention store. -/
def State.sealTo (s : State) (on : Bool) : State :=
  if s.fbit 0 MTR_SEAL = on then s
  else (((s.fsetB 0 MTR_SEAL on).fsetB 0 MTR_STATUS_SEAL on).sysPage).event 379 0 true (if on then 1 else 0)

/-- A revenue parameter has changed (R356): `MTR_CAL_CNT` and event 378. -/
def State.calChanged (s : State) (a : Nat) : State :=
  let s1 := (s.fset 0 MTR_CAL_CNT (s.fget 0 MTR_CAL_CNT + 1)).sysPage
  s1.event 378 0 true ((a - 0xA0000) * 0x10000 + s1.fget 0 MTR_CAL_CNT % 0x10000)

/-- `RTC_CTRL.LOAD` (R473). -/
def State.rtcLoadNow (s : State) : State :=
  match s.calSet with
  | some t => (s.calLoad t).event 609 0 false (changeData 2 t s.rtc.secs)
  | none => s.fset 0 RTC_STATUS_SET_ERR 1

/-- CLR_STATS of the CYC block (R309): its counters and maxima return to their reset values. -/
def State.cycClear (s : State) (l : Lane) : State :=
  s.regClear (fun k => k == laneKey l 0x1A0014 || k == laneKey l 0x1A0018 || k == laneKey l 0x1A001C || k == laneKey l 0x1A0020 ||
    (laneKey l 0x1A0100 ≤ k && k < laneKey l 0x1A0500 && 8 ≤ k % 16))

/-- A write of the check-value unit of lane `l` at `a` (R508–R515). -/
def State.ckvWrite (s : State) (l : Lane) (a v : Nat) : State × Res :=
  let b := laneKey l (a - a % 0x400)
  match a % 0x400 with
  | 0x04 => s.ckvCmd l (a / 0x400 % 4) v
  | 0x1C => (s.ckvFeed b (leBytes 4 v), .ok)
  | 0x24 => ({ s.regSet l a v with rl := put0 s.rl (laneKey l a) v }, .ok)
  | _ => (s.regSet l a v, .ok)

/-- `HG_CMD` (R412, R427). -/
def State.hgCmd (s : State) (v : Nat) : State :=
  let back := fun (s : State) (l : Lane) =>
    if s.lstate l = .retired then s.setLaneHg l { s.laneHg l with state := .reset, rejoin := true } else s
  let s1 := if v.testBit 0 then back (back s .a) .b else s
  if v.testBit 1 && decide (s1.mode = .wide) then { s1 with hg := { s1.hg with rebalance := true } } else s1

/-- `LUM_IDENT` (R238). -/
def State.lumIdent (s : State) (l : Lane) (v : Nat) : State :=
  let n := v % 0x100
  if s.nodeIn l n dsConfig || s.nodeIn l n dsLinked || s.nodeIn l n dsLost then
    s.lumSend l (n / 4) (s.lumRequest l 0x0112 (beBytes 1 (n % 4) ++ beBytes 1 0 ++ beBytes 2 (v / 0x10000)))
  else s

/-- Registers of the switch (R239, R251, R254, R257, R262, R265). An uplink whose speed or FEC changes loses its link (DEDUCED, log entry 101). -/
def State.ethWrite (s : State) (l : Lane) (a v : Nat) : State :=
  let k := (a - 0x100000) / 0x1000
  let s1 := s.regSet l a v
  if a = 0x100000 then
    (if s1.fbit 0 ETH_CTRL_RATE_EN then s1 else s1.forPorts (fun s p => s.rateRaise (p + 1)))
  else if a = 0x100040 then s1.ptpEnable
  else if k = 0 then s1
  else match a % 0x1000 with
    | 0x00 =>
      let s2 := if s1.fbit (ethB k) ETH_PORT_CTRL_AUTO_RATE_EN then s1 else s1.rateRaise k
      let s3 := if s2.fbit (ethB k) ETH_PORT_CTRL_EEE_EN then s2.lpiEnter k else s2.lpiLeave k
      let moved := isUplink k && (s3.upSpeed k != s.upSpeed k || s3.upFec k != s.upFec k)
      if (s3.fbit (ethB k) ETH_PORT_CTRL_EN && !moved) || !isExternal k || !s3.fbit (ethB k) ETH_PORT_STATUS_LINK_UP then s3 else s3.linkDown k
    | 0x04 =>
      let s2 := if v.testBit 0 then s1.ethRelink k else s1
      if v.testBit 1 then s2.rateRaise k else s2
    | 0x30 => if v.testBit 0 then s1.ethSnap k else s1
    | _ => s1

/-- Registers of the CAN controllers (R384–R404). -/
def State.canWrite (s : State) (l : Lane) (a v : Nat) : State :=
  let n := (a - 0xC0000) / 0x4000
  let o := a % 0x4000
  let s1 := s.regSet l a v
  let moved := decide (s1.rd a ≠ s.rd a)
  if o = 0 then s1.canCtrlWritten n
  else if o = 0x18 then
    let s2 := if v.testBit 0 then s1.canClrStats n else s1
    if v.testBit 1 then s2.canRecover n else s2
  else if 0x20 ≤ o && o < 0x30 then (reqBits ((o - 0x20) / 4) v).foldl (fun s i => s.canTxreq n i) s
  else if 0x800 ≤ o && o < 0x1800 then
    let b := canB n + 0x800 + (o - 0x800) / 8 * 8
    let was := s.fget b CAN_SIG_BIND_OBJECT
    let now := s1.fget b CAN_SIG_BIND_OBJECT
    if !moved then s1 else if was = now then s1.canChanged n now else (s1.canChanged n was).canChanged n now
  else if 0x1800 ≤ o && o < 0x2000 then (if moved && o % 16 != 12 then s1.canChanged n ((o - 0x1800) / 16) else s1)
  else if 0x2000 ≤ o then
    let i := (o - 0x2000) / 0x40
    if !s.fbit (canObjB n i) CAN_OBJ_ID_DIR then s
    else if moved then s1.setCanObj n i { s1.canObj n i with changed := true } else s1
  else s1

/-- Registers of the loop engine (R320, R322, R330, R333). -/
def State.loopRegWrite (s : State) (l : Lane) (a v : Nat) : State :=
  if a = 0x180000 then (if v.testBit 1 then s.loopClrStats l else s)
  else if 0x180100 ≤ a && a < 0x180140 && a % 16 == 12 then (if v.testBit 0 then s.capClear l ((a - 0x180100) / 16) else s)
  else
    let s1 := s.regSet l a v
    let moved := decide (s1.rd (laneKey l a) ≠ s.rd (laneKey l a))
    if 0x184000 ≤ a && a < 0x188000 then
      if !moved then s1 else (s1.loopSlots l).foldl (fun s q =>
        if s.fbit (loopD l q) LOOP_SCHED_EN && s.fget (loopD l q) LOOP_SCHED_TABLE == (a - 0x184000) / 0x100 then s.loopParam l q else s) s1
    else if 0x190000 ≤ a && a < 0x1A0000 then
      let q := (a - 0x190000) / 0x40
      let o := a % 0x40
      if o = 0 then (if s1.fget (loopD l q) LOOP_CFG_LL_EN = s.fget (loopD l q) LOOP_CFG_LL_EN then s1.loopCfg l q else (s1.loopCfg l q).loopParam l q)
      else if moved && [0x14, 0x18, 0x20, 0x24, 0x34, 0x38].contains o then s1.loopParam l q
      else s1
    else s1

/-- Registers of the ports and the allocator (R164, R176, R178, R186). -/
def State.portWrite (s : State) (l : Lane) (a v : Nat) : State :=
  let p := (a - 0x80000) / 0x400
  let s1 := s.regSet l a v
  if a = 0x90130 then (if v.testBit 0 then { s with alloc := { s.alloc with waived := true } } else s)
  else if 0x90000 ≤ a then s1
  else match a % 0x400 with
    | 0x00 | 0x04 => s1.portCtrlChanged p
    | 0x34 =>
      let s2 := if v.testBit 0 then s.portRestart p else s
      if v.testBit 1 then (s2.fset (portB p) PORT_CMD_REMEASURE 1).measDue p else s2
    | _ => s1

/-- Registers of the analogue channels (R369, R374, R377); AIO_CHnn_CFG waits for the next output release. -/
def State.aioRegWrite (s : State) (l : Lane) (a v : Nat) : State :=
  let c := (a - 0xB0100) / 0x100
  let s1 := s.regSet l a v
  if a < 0xB0100 then s1
  else match a % 0x100 with
    | 0x04 | 0x08 => s1.aioShow c
    | 0x0C => if s1.fbit (aioB c) AIO_CH_STATUS_SAFE_DRIVEN then s1.fset (aioB c) AIO_CH_OUT_CODE (v % 0x10000) else s1
    | _ => s1

/-- A write of `v` to the register at `a`, which lane `l` has accepted: the state after it and its result. -/
def State.regDo (s : State) (l : Lane) (a v : Nat) : State × Res :=
  if 0x30000 ≤ a && a < 0x31000 then s.ckvWrite l a v
  else if a = 0x13000 then
    (if v.testBit 0 then (let r := s.ownStart; (r.1, if r.2 then .ok else .state)) else (s, .ok))
  else if a = 0x11000 then
    (match s.rstCommand v with
    | some s1 => (s1, .ok)
    | none => (s, .state))
  else if a = 0x24010 then
    (if v.testBit 0 then (match s.flowClear with
      | some s1 => (s1, .ok)
      | none => (s, .state)) else (s, .ok))
  else
    let s1 := s.regSet l a v
    (if a = 0x10018 then s.hgCmd v
    else if a = 0x20020 then
      (let s2 := if v.testBit 31 then s1 else s1.fset 0 RTC_STATUS_DISC 0
      if v.testBit 30 then s2.rtcLoadNow else s2)
    else if a = 0x20024 then (if v.testBit 31 then s1.osfClear else s1)
    else if 0x24100 ≤ a && a < 0x24300 then s1.flowChanged false ((a - 0x24100) / 16) (a % 16 / 4)
    else if 0x24300 ≤ a && a < 0x24500 then s1.flowChanged true ((a - 0x24300) / 8) (a % 8 / 4)
    else if 0x80000 ≤ a && a < 0xA0000 then s.portWrite l a v
    else if a = 0xA0020 then
      (let s2 := if v.testBit 1 then s.sealTo false else s
      if v.testBit 0 then s2.sealTo true else s2)
    else if 0xA0000 ≤ a && a < 0xB0000 then (if s.revenueMoves a v then s1.calChanged a else s1)
    else if 0xB0000 ≤ a && a < 0xC0000 then s.aioRegWrite l a v
    else if 0xC0000 ≤ a && a < 0xD0000 then s.canWrite l a v
    else if 0x100000 ≤ a && a < 0x145000 then s.ethWrite l a v
    else if 0x180000 ≤ a && a < 0x1A0000 then s.loopRegWrite l a v
    else if a = 0x1A0030 then
      (let s2 := s.setColdNext (v.testBit 1)
      if v.testBit 0 then s2.cycClear l else s2)
    else if a = 0x1B003C then s.lumIdent l v
    else s1, .ok)

/-- A write of the cell memory window: cells' memory takes the word; the input image ring, which nothing but the latch writes, and the
bytes that read as zero do not (R40, R268). -/
def State.cellWrite (s : State) (l : Lane) (a v : Nat) : State :=
  let o := a % 0x400000
  if cellHole a || (0x300000 ≤ o && o < 0x340000) then s else s.mwrite (laneKey l a) (leBytes 4 v)

/-- Lane `l` writes the word at `a` (R12–R15, R39): the state after the write and its result. -/
def State.writeWord (s : State) (l : Lane) (a v : Nat) : State × Res :=
  match s.regJudge l a with
  | .ok =>
    if isAlias a then (s, .range)
    else if isFlowWin a || isRetWin a then (s, .ok)
    else if isCellWin a then (s.cellWrite l a v, .ok)
    else match s.regDeny l a v with
      | some r => (s, r)
      | none => s.regDo l a v
  | r => (s, r)

/-- Words to `a` upward (R98): the state and the first result that is not OK. -/
def State.writeWords (s : State) (l : Lane) (a : Nat) : List Nat → State × Res
  | [] => (s, .ok)
  | v :: vs =>
    let r := s.writeWord l a v
    let q := r.1.writeWords l ((a + 4) % 0x100000000) vs
    (q.1, if r.2 = .ok then q.2 else r.2)

/-- Does an operation of `n` words from `a` write cistern data that it can reach (R480)? -/
def cisTouched (a n : Nat) : Bool := (List.range n).any (fun i => let x := a + 4 * i; 0x20800 ≤ x && x < 0x209F8)

/-- An operation writes words (R98, R480): the cistern is brought up to date after its last word. -/
def State.writeOp (s : State) (l : Lane) (a : Nat) (vs : List Nat) : State × Res :=
  let r := s.writeWords l a vs
  if cisTouched a vs.length then (r.1.cisUpdate, r.2) else r

end Sys2Proof.Machine
end

