-- ==== Sys2Proof/Machine/RegRows.lean ====
section
/-! DEFINITION. Register operations (R98), and the commands that are a write or a read of one register. -/

namespace Sys2Proof.Machine
open Sys2Proof

/-! ### REG_READ, REG_WRITE and REG_MODIFY -/

/-- A REG_READ of `count` words from `addr` (R97, R98): all words come back in every case, zeros from an ADDR that is no multiple of 4. -/
def State.readReq (s : State) (r : Req) (addr count : Nat) : State :=
  s.serve r 0x11 lenRegRead (fun s _ l =>
    if count = 0 ∨ 256 < count then s.ans .range
    else if addr % 4 ≠ 0 then s.ansB .range (wordsLE (List.replicate count 0))
    else
      let q := s.readWords l addr count
      q.1.ansB q.2.1 (wordsLE q.2.2))

/-- A REG_WRITE of the words that `ws` makes of the state it finds (R98), and what it leaves for after its reply. -/
def State.writeReqWith (s : State) (r : Req) (addr count n : Nat) (ws : State → Lane → List Nat) : State :=
  (s.serve r 0x12 (lenRegWrite n) (fun s _ l =>
    if addr % 4 ≠ 0 ∨ count = 0 ∨ 256 < count then s.ans .range
    else if count ≠ n then s.ans .badLength
    else
      let q := s.writeOp l addr (ws s l)
      q.1.ans q.2)).rstAfter

/-- A REG_WRITE of given words. -/
def State.writeReq (s : State) (r : Req) (addr : Nat) (ws : List Nat) : State :=
  s.writeReqWith r addr ws.length ws.length (fun _ _ => ws)

/-- The word that writes `v` to the register at `addr` and leaves its other read-write bits as they are. -/
def State.cmdWord (s : State) (l : Lane) (addr v : Nat) : Nat :=
  ((s.rd (regKey l addr)).toNat &&& ((regRow? addr).map (fun x => rwMask addr x)).getD 0) ||| v

/-- A write of one word that leaves the register's other read-write bits as they are. -/
def State.cmdReq (s : State) (r : Req) (addr v : Nat) : State := s.writeReqWith r addr 1 1 (fun s l => [s.cmdWord l addr v])

/-- REG_READ (R98). -/
def execRegRead (r : Req) (addr : BitVec 32) (count : BitVec 16) (s : State) : Host.Outcome State Fault Refusal :=
  .next (s.readReq r addr.toNat count.toNat)

/-- REG_WRITE (R98): COUNT words in ascending order. -/
def execRegWrite (r : Req) (addr : BitVec 32) (count : BitVec 16) (words : List (BitVec 32)) (s : State) : Host.Outcome State Fault Refusal :=
  .next (s.writeReqWith r addr.toNat count.toNat words.length (fun _ _ => words.map BitVec.toNat))

/-- REG_MODIFY (R98): the masked bits of one register are replaced, and its old value comes back. -/
def execRegModify (r : Req) (addr mask value : BitVec 32) (s : State) : Host.Outcome State Fault Refusal :=
  .next ((s.serve r 0x13 lenRegModify (fun s _ l =>
    if addr.toNat % 4 ≠ 0 then s.ans .range
    else
      let q := s.readWord l addr.toNat
      if q.2.1 ≠ .ok then q.1.ans q.2.1
      else
        let old : Word := BitVec.ofNat 32 q.2.2
        let new : Word := (old &&& ~~~mask) ||| (value &&& mask)
        let w := q.1.writeOp l addr.toNat [new.toNat]
        w.1.ansOk w.2 (leBytes 4 q.2.2))).rstAfter)

/-- A read of an RL low word: its high word is latched for all sessions (R17). -/
def execRlRegisterRead (r : Req) (addr : BitVec 32) (s : State) : Host.Outcome State Fault Refusal := .next (s.readReq r addr.toNat 1)

/-! ### Commands of one register -/

/-- `PORT_CMD.RESTART` (R176). -/
def execPortRestart (r : Req) (port : PortNo) (s : State) : Host.Outcome State Fault Refusal := .next (s.cmdReq r (portB port.val + 0x34) 1)

/-- A write of `PORT_CTRL` or `PORT_VSET` (R178). -/
def execPortCtrlWrite (r : Req) (port : PortNo) (vset : Bool) (value : BitVec 32) (s : State) : Host.Outcome State Fault Refusal :=
  .next (s.writeReq r (portB port.val + (if vset then 4 else 0)) [value.toNat])

/-- `PORT_CMD.REMEASURE` (R164). -/
def execPortRemeasure (r : Req) (port : PortNo) (s : State) : Host.Outcome State Fault Refusal := .next (s.cmdReq r (portB port.val + 0x34) 2)

/-- `ALLOC_CMD.RESTORE` (R186). -/
def execAllocRestore (r : Req) (s : State) : Host.Outcome State Fault Refusal := .next (s.cmdReq r 0x90130 1)

/-- A write of `LUM_IDENT` (R238). -/
def execLumIdentify (r : Req) (node : BitVec 8) (seconds : BitVec 16) (s : State) : Host.Outcome State Fault Refusal :=
  .next (s.writeReq r 0x1B003C [seconds.toNat * 0x10000 + node.toNat])

/-- `ETH_PORT_CMD.RAISE` (R265). -/
def execEthPortRaise (r : Req) (k : EthPort) (s : State) : Host.Outcome State Fault Refusal := .next (s.cmdReq r (ethB (k.val + 1) + 4) 2)

/-- `ETH_PORT_CMD.RELINK` (R265). -/
def execEthPortRelink (r : Req) (k : EthPort) (s : State) : Host.Outcome State Fault Refusal := .next (s.cmdReq r (ethB (k.val + 1) + 4) 1)

/-- `ETH_PORT_SNAP.GO` (R262). -/
def execEthPortSnap (r : Req) (k : EthPort) (s : State) : Host.Outcome State Fault Refusal := .next (s.cmdReq r (ethB (k.val + 1) + 0x30) 1)

/-- A write of `ETH_MGMT_VID` (R264). -/
def execMgmtVidWrite (r : Req) (value : BitVec 32) (s : State) : Host.Outcome State Fault Refusal := .next (s.writeReq r 0x100010 [value.toNat])

/-- A write of `ETH_PTP_CTRL` (R257). -/
def execPtpEnableChange (r : Req) (value : BitVec 32) (s : State) : Host.Outcome State Fault Refusal := .next (s.writeReq r 0x100040 [value.toNat])

/-- A write of `CYC_CMD.COLD_NEXT` (R309). -/
def execColdNextWrite (r : Req) (on : Bool) (s : State) : Host.Outcome State Fault Refusal := .next (s.writeReq r 0x1A0030 [if on then 2 else 0])

/-- `CYC_CMD.CLR_STATS` (R309). -/
def execCycClrStats (r : Req) (s : State) : Host.Outcome State Fault Refusal := .next (s.cmdReq r 0x1A0030 1)

/-- `LOOP_CAPb_CMD.CLEAR` (R330). -/
def execLoopCaptureClear (r : Req) (buffer : Fin 4) (s : State) : Host.Outcome State Fault Refusal := .next (s.cmdReq r (0x18010C + 0x10 * buffer.val) 1)

/-- `LOOP_CTRL.CLR_STATS` (R333). -/
def execLoopClrStats (r : Req) (s : State) : Host.Outcome State Fault Refusal := .next (s.cmdReq r 0x180000 2)

/-- `MTR_SEAL.SEAL` (R356). -/
def execMtrSeal (r : Req) (s : State) : Host.Outcome State Fault Refusal := .next (s.cmdReq r 0xA0020 1)

/-- `MTR_SEAL.UNSEAL` (R356). -/
def execMtrUnseal (r : Req) (s : State) : Host.Outcome State Fault Refusal := .next (s.cmdReq r 0xA0020 2)

/-- A write of a revenue parameter (R356), `offset` in the METER block. -/
def execRevenueParamWrite (r : Req) (offset : BitVec 16) (value : BitVec 32) (s : State) : Host.Outcome State Fault Refusal :=
  .next (s.writeReq r (0xA0000 + offset.toNat) [value.toNat])

/-- A write of `CANn_CTRL` with INIT 0 (R385). -/
def execCanLeaveInit (r : Req) (ctl : Fin 4) (value : BitVec 32) (s : State) : Host.Outcome State Fault Refusal :=
  .next (s.writeReq r (canB ctl.val) [fieldPut value.toNat 31 1 0])

/-- A write of `CANn_CTRL` with INIT 1 (R385). -/
def execCanEnterInit (r : Req) (ctl : Fin 4) (value : BitVec 32) (s : State) : Host.Outcome State Fault Refusal :=
  .next (s.writeReq r (canB ctl.val) [fieldPut value.toNat 31 1 1])

/-- `CANn_CMD.RECOVER` (R386). -/
def execCanRecover (r : Req) (ctl : Fin 4) (s : State) : Host.Outcome State Fault Refusal := .next (s.cmdReq r (canB ctl.val + 0x18) 2)

/-- A write of `CANn_TXREQw` (R394). -/
def execCanTxreq (r : Req) (ctl : Fin 4) (w : Fin 4) (bits : BitVec 32) (s : State) : Host.Outcome State Fault Refusal :=
  .next (s.writeReq r (canB ctl.val + 0x20 + 4 * w.val) [bits.toNat])

/-- A write of an object's ID, MASK or CTL, or of a signal descriptor (R398). -/
def execCanHeaderWrite (r : Req) (ctl : Fin 4) (descr : Bool) (n : Fin 512) (w : Fin 3) (value : BitVec 32) (s : State) :
    Host.Outcome State Fault Refusal :=
  .next (s.writeReq r ((if descr then canSigB ctl.val n.val else canObjB ctl.val n.val) + 4 * w.val) [value.toNat])

/-- `CANn_CMD.CLR_STATS` (R402). -/
def execCanClrStats (r : Req) (ctl : Fin 4) (s : State) : Host.Outcome State Fault Refusal := .next (s.cmdReq r (canB ctl.val + 0x18) 1)

/-- `HG_CMD.REBALANCE` (R427). -/
def execHgRebalance (r : Req) (s : State) : Host.Outcome State Fault Refusal := .next (s.cmdReq r 0x10018 2)

/-- `HG_CMD.REJOIN` (R412). -/
def execHgRejoin (r : Req) (s : State) : Host.Outcome State Fault Refusal := .next (s.cmdReq r 0x10018 1)

/-- A write of domain bits to `HG_RST_CMD` (R448). -/
def execHgRstCmdDomain (r : Req) (value : BitVec 32) (s : State) : Host.Outcome State Fault Refusal := .next (s.writeReq r 0x11000 [value.toNat])

/-- `HG_RST_CMD.ENTER_SAFE` (R463). -/
def execEnterSafeCommand (r : Req) (s : State) : Host.Outcome State Fault Refusal := .next (s.writeReq r 0x11000 [0x80000000])

/-- A write of 1 to `HG_OWN_APPLY.GO` (R129). -/
def execHgOwnApply (r : Req) (s : State) : Host.Outcome State Fault Refusal := .next (s.cmdReq r 0x13000 1)

/-- A read of `RTC_SNAP_SEC` freezes the calendar (R472). -/
def execRtcSnapSecRead (r : Req) (s : State) : Host.Outcome State Fault Refusal := .next (s.readReq r 0x20000 1)

/-- A read of `RTC_SNAP_YEAR` ends the freeze (R472). -/
def execRtcSnapYearRead (r : Req) (s : State) : Host.Outcome State Fault Refusal := .next (s.readReq r 0x20014 1)

/-- A write of `RTC_CTRL` with LOAD 1 (R473). -/
def execRtcLoad (r : Req) (value : BitVec 32) (s : State) : Host.Outcome State Fault Refusal :=
  .next (s.writeReq r 0x20020 [fieldPut value.toNat 30 1 1])

/-- A write of 1 to `RTC_STATUS.OSF` (R476). -/
def execRtcOsfClear (r : Req) (s : State) : Host.Outcome State Fault Refusal := .next (s.cmdReq r 0x20024 0x80000000)

/-- A write to the cistern's DATA (R480). -/
def execCisternUpdate (r : Req) (word : Fin 126) (words : List (BitVec 32)) (s : State) : Host.Outcome State Fault Refusal :=
  .next (s.writeReq r (0x20800 + 4 * word.val) (words.map BitVec.toNat))

/-- `FLOW_CMD.CLEAR` (R489). -/
def execRecorderClear (r : Req) (s : State) : Host.Outcome State Fault Refusal := .next (s.cmdReq r 0x24010 1)

/-- A write to a descriptor of the recorder (R486). -/
def execFlowDescriptorChange (r : Req) (extreme : Bool) (desc : Fin 64) (reg : Fin 4) (value : BitVec 32) (s : State) :
    Host.Outcome State Fault Refusal :=
  .next (s.writeReq r (flowB extreme desc.val + 4 * reg.val) [value.toNat])

/-- The address of a register of check-value unit `i`. -/
def ckvAt (i o : Nat) : Nat := 0x30000 + 0x400 * i + o

/-- A write of `CKVi_DATA` (R509). -/
def execCkvDataWrite (r : Req) (unit : Fin 4) (value : BitVec 32) (s : State) : Host.Outcome State Fault Refusal :=
  .next (s.writeReq r (ckvAt unit.val 0x1C) [value.toNat])

/-- `CKVi_CMD.FOLD` (R509). -/
def execCkvFold (r : Req) (unit : Fin 4) (s : State) : Host.Outcome State Fault Refusal := .next (s.cmdReq r (ckvAt unit.val 4) 8)

/-- `CKVi_CMD.INIT` (R509). -/
def execCkvInit (r : Req) (unit : Fin 4) (s : State) : Host.Outcome State Fault Refusal := .next (s.cmdReq r (ckvAt unit.val 4) 1)

/-- `CKVi_CMD.START` (R510). -/
def execCkvStart (r : Req) (unit : Fin 4) (s : State) : Host.Outcome State Fault Refusal := .next (s.cmdReq r (ckvAt unit.val 4) 2)

/-- `CKVi_CMD.ABORT` (R511). -/
def execCkvAbort (r : Req) (unit : Fin 4) (s : State) : Host.Outcome State Fault Refusal := .next (s.cmdReq r (ckvAt unit.val 4) 4)

/-- A write of `CKVi_VALUE_LO` or `CKVi_VALUE_HI` (R515). -/
def execCkvValueWrite (r : Req) (unit : Fin 4) (high : Bool) (value : BitVec 32) (s : State) : Host.Outcome State Fault Refusal :=
  .next (s.writeReq r (ckvAt unit.val (if high then 0x24 else 0x20)) [value.toNat])

end Sys2Proof.Machine
end

