-- ==== Sys2Proof/Machine/Resets.lean ====
section
/-! DEFINITION. The instants of a reset of a domain (R441–R451). -/

namespace Sys2Proof.Machine
open Sys2Proof

/-- A block's firmware has not serviced its watchdog for 10 ms (R441, source 6). -/
def execBlockWatchdog (dom : Dom) (s : State) : Host.Outcome State Fault Refusal :=
  if s.pwr.refclkLost then .next s else
  .next (match dom with
    | .switch | .meter | .can => s.domRequest dom 6
    | _ => s)

/-- 1 ms after the reply of a reset command has left (R445, source 5). -/
def execResetCommandDue (dom : Dom) (s : State) : Host.Outcome State Fault Refusal :=
  if s.pwr.refclkLost then .next s else
  .next (if (s.dom dom).due && !domIsLane dom then s.domRequest dom 5 else s)

/-- The domain is idle: its reset is asserted (R445, R446). -/
def execDomainQuiesced (dom : Dom) (s : State) : Host.Outcome State Fault Refusal :=
  if s.pwr.refclkLost then .next s else
  .next (if (s.dom dom).phase = .quiescing then s.domAssert dom else s)

/-- The domain is still busy after 10 ms (R446), which cannot occur for METER and AIO. -/
def execQuiesceTimeout (dom : Dom) (s : State) : Host.Outcome State Fault Refusal :=
  if s.pwr.refclkLost then .next s else
  .next (match dom with
    | .switch | .can => if (s.dom dom).phase = .quiescing then s.domAssert dom else s
    | _ => s)

/-- After the reset width the domain is released (R443, R445, R449). -/
def execDomainResetRelease (dom : Dom) (s : State) : Host.Outcome State Fault Refusal :=
  if s.pwr.refclkLost then .next s else
  .next (s.domRelease dom)

/-- The domain's firmware and configuration are reloaded (R445, t6). -/
def execSharedFwReloaded (dom : Dom) (s : State) : Host.Outcome State Fault Refusal :=
  if s.pwr.refclkLost then .next s else
  .next (s.domReload dom)

/-- The 10 s of a back-off end, and the release proceeds (R451). -/
def execResetBackoffExpired (dom : Dom) (s : State) : Host.Outcome State Fault Refusal :=
  if s.pwr.refclkLost then .next s else
  .next (if (s.fget 0 HG_RST_STATUS_BACKOFF).testBit dom.bit then (s.rstBit HG_RST_STATUS_BACKOFF dom.bit false).domRelease dom else s)

/-- A pulse under way in a domain's NV interface ends, which then takes the reset (R449). -/
def execNvPulseEnd (dom : Dom) (s : State) : Host.Outcome State Fault Refusal :=
  .next (if domIsLane dom then
      let s1 : State := { s with upd := { s.upd with pulses := s.upd.pulses.filter (fun l => l != domLane dom) } }
      s1.rstBit HG_RST_STATUS_DEFERRED dom.bit false
    else s)

end Sys2Proof.Machine
end

