-- ==== Sys2Proof/Machine/Rtc.lean ====
section
/-! DEFINITION. The instants of the backup domain: the oscillator, the calendar, the discipline from gPTP and the coin cell (R471–R479). -/

namespace Sys2Proof.Machine
open Sys2Proof

/-- A freeze ends 33 oscillator periods after it began (R472). -/
def execRtcFreezeTimeout (s : State) : Host.Outcome State Fault Refusal :=
  .next (if s.rtc.frozen then { s with rtc := { s.rtc with frozen := false, expired := true } } else s)

/-- A whole second of gPTP time: the RTC is compared with UTC (R474). -/
def execRtcDisciplineCompare (announced : Option (BitVec 16)) (rate phase : BitVec 16) (s : State) : Host.Outcome State Fault Refusal :=
  .next (s.rtcDiscipline announced rate phase)

/-- No edge of the oscillator for 1 ms (R476). -/
def execRtcOscStopped (s : State) : Host.Outcome State Fault Refusal :=
  .next (if s.rtc.stopped || s.rtc.lost then s
    else ({ s with rtc := { s.rtc with stopped := true } } : State).osfSet (if s.rtc.onCell then 3 else 2))

/-- The oscillator starts again, and the calendar goes on from the value it held (R476). -/
def execRtcOscRestarted (s : State) : Host.Outcome State Fault Refusal :=
  .next (if s.rtc.stopped then { s with rtc := { s.rtc with stopped := false } } else s)

/-- The calendar passes 2199-12-31 23:59:59 (R471). -/
def execRtcCalendarWrap (s : State) : Host.Outcome State Fault Refusal := .next s.calWrap

/-- Main power fails and the domain moves to the coin cell (R477). -/
def execBackupSwitchover (s : State) : Host.Outcome State Fault Refusal :=
  .next (({ s with pwr := { s.pwr with mainPower := false } } : State).toCell)

/-- The coin cell is measured under load, while main power is valid (R478). -/
def execCoinCellMeasure (mv : BitVec 16) (s : State) : Host.Outcome State Fault Refusal :=
  .next (if s.pwr.mainPower then s.coinCell mv.toNat else s)

/-- The armed detector sees the cell below 1.60 V: the domain is lost (R479). The detector is armed while main power is not valid. -/
def execBackupBrownOut (s : State) : Host.Outcome State Fault Refusal :=
  .next (if s.pwr.mainPower then s else { s with rtc := { s.rtc with lost := true } })

end Sys2Proof.Machine
end

