-- ==== Sys2Proof/Machine/Snap.lean ====
section
/-! DEFINITION. Time-triggered snapshots (R540–R544, R547, R548). -/

namespace Sys2Proof.Machine
open Sys2Proof

/-- SNAPSHOT_ARM (R540). -/
def execSnapshotArm (r : Req) (instant : BitVec 64) (id : BitVec 32) (s : State) : Host.Outcome State Fault Refusal :=
  let t := instant.toNat
  .next (s.serve r 0x42 lenSnapArm (fun s _ _ =>
    if s.mode = .boot ∨ s.mode = .safe ∨ s.ptpOk = false then s.ans .state
    else if t < s.ptpTime + 200000 ∨ s.ptpTime + 3600000000000 < t then s.ans .range
    else
      let s1 := if s.snap.armed.isSome then s.finc 0 SYS_SNAP_REPLACED else s
      let s2 := (((s1.fset 0 SYS_SNAP_STATUS_ARMED 1).fset 0 SYS_SNAP_ID id.toNat).fset 0 SYS_SNAP_INSTANT_LO t).fset 0 SYS_SNAP_INSTANT_HI (t / 0x100000000)
      ({ s2 with snap := { s2.snap with armed := some (t, id.toNat) } } : State).ans .ok))

/-- Does the register at `a` lie in a lane? -/
def laneHeldReg (a : Nat) : Bool := isLaneReg a || isCellWin a || isAlias a

/-- The lane whose registers and lane-held values a snapshot copies: the one that answers gallery 0, outside a switch-over gap (R541). -/
def State.snapLane (s : State) : Option Lane := if s.hg.takeover.isSome then none else s.answering 0

/-- The register pair at `a` (R541). -/
def State.snapPair (s : State) (a : Nat) : Option Nat :=
  match (if laneHeldReg a then s.snapLane else some .a) with
  | none => none
  | some l => match s.peekWord l a, s.peekWord l (a + 4) with
    | some x, some y => some (x + 0x100000000 * y)
    | _, _ => none

/-- Does the value of a handle word lie in a lane? Loop items, program variables and luminaire states do. -/
def laneHeldPoint (w : Nat) : Bool := [3, 4, 5, 6, 16, 17].contains (handleOf w).ptype

/-- The value of the point a handle word names (R541). -/
def State.snapPoint (s : State) (w : Nat) : Option Nat :=
  if laneHeldPoint w && (match s.grant (handleOf w).gallery with
    | some l => !s.procRuns l || s.hg.takeover.isSome
    | none => s.snapLane.isNone) then none
  else s.valueNow w

/-- Entry `n` of the snapshot map at the strobe: its value and whether it is missing (R541). -/
def State.snapEntry (s : State) (n : Nat) : Nat × Bool :=
  let b := 0x200 + 8 * n
  if !s.fbit b SYS_SNAP_CTL_EN then (0, false)
  else
    let src := s.fget b SYS_SNAP_SRC
    match (if s.fbit b SYS_SNAP_CTL_KIND then s.snapPoint src else s.snapPair src) with
    | some v => (v, false)
    | none => (0, true)

/-- Four bytes as a word, little-endian. -/
def word4 (bs : List Nat) (i : Nat) : Nat :=
  bs.getD (4 * i) 0 + 0x100 * bs.getD (4 * i + 1) 0 + 0x10000 * bs.getD (4 * i + 2) 0 + 0x1000000 * bs.getD (4 * i + 3) 0

/-- The words of the snapshot record, its CRC field zero (R542). -/
def State.snapRecord (s : State) (instant id : Nat) (late : Bool) : List Nat :=
  let es := (List.range 122).map s.snapEntry
  let miss := missingBytes (es.map (fun e => e.2))
  [id, (s.rd 0x24).toNat, instant % 0x100000000, instant / 0x100000000 % 0x100000000, s.fget 0 ETH_PTP_OFFSET, s.snapFlags late, s.tickNo, 0] ++
    (List.range 4).map (word4 miss) ++ es.flatMap (fun e => [e.1 % 0x100000000, e.1 / 0x100000000 % 0x100000000])

/-- The time counter reaches INSTANT: every enabled entry is copied (R541). -/
def execSnapshotStrobe (late : Bool) (s : State) : Host.Outcome State Fault Refusal :=
  if s.pwr.refclkLost then .next s else
  .next (match s.snap.armed with
    | some (t, id) => { s with snap := ⟨none, some (s.snapRecord t id late)⟩ }
    | none => s)

/-- The record is completed with its CRC and the window swaps (R543). -/
def execSnapshotRecordComplete (s : State) : Host.Outcome State Fault Refusal :=
  if s.pwr.refclkLost then .next s else
  .next (match s.snap.building with
    | none => s
    | some ws =>
      let rec_ := ws.set 7 (wordsCrc ws)
      let s1 := (List.range 256).foldl (fun s w => s.wr (0x800 + 4 * w) (BitVec.ofNat 32 (rec_.getD w 0))) s
      let f := ws.getD 5 0
      let s2 := (((s1.fset 0 SYS_SNAP_STATUS_READY 1).fset 0 SYS_SNAP_STATUS_ARMED (if s1.snap.armed.isSome then 1 else 0)).fset 0
        SYS_SNAP_STATUS_TIME_NOT_LOCKED (f / 2)).fset 0 SYS_SNAP_STATUS_LATE (f / 4)
      { s2.finc 0 SYS_SNAP_CNT with snap := { s2.snap with building := none } })

end Sys2Proof.Machine
end

