-- ==== Sys2Proof/Machine/Upd.lean ====
section
/-! DEFINITION. Transfers of images, the siphon, and the start of program and settings images (R517–R529). -/

namespace Sys2Proof.Machine
open Sys2Proof

/-- IMAGE_BEGIN opens a transfer and erases its target (R521). -/
def execImageBegin (r : Req) (kind : BitVec 8) (size : BitVec 32) (s : State) : Host.Outcome State Fault Refusal :=
  let k := kind.toNat
  let n := size.toNat
  .next (s.serve r 0x50 8 (fun s x _ =>
    if s.xferRefused k then s.ans .state
    else if s.upd.xfer.any (fun t => t.session != x.id) then s.ans .busy
    else if k = 0 ∨ k > 3 ∨ n > kindSize k ∨ n < 128 then s.ans .range
    else (s.xferBegin x.id k n).ans .ok))

/-- IMAGE_DATA writes a block at OFFSET (R97, R521). -/
def execImageData (r : Req) (offset : BitVec 32) (data : List Byte) (s : State) : Host.Outcome State Fault Refusal :=
  let n := data.length
  let off := offset.toNat
  let want := if n % 4 = 0 ∧ 4 ≤ n ∧ n ≤ 1024 then 4 + n else r.length.toNat + 1
  .next (s.serve r 0x51 want (fun s x _ =>
    match s.xferOf x.id with
    | none => s.ans .state
    | some t =>
      if s.xferRefused t.kind then s.ans .state
      else if off % 4 ≠ 0 ∨ off + n > t.size then s.ans .range
      else (s.xferWrite t off data).ans .ok))

/-- IMAGE_COMMIT verifies both lanes' copies and brings the image into service (R519, R521, R523, R528, R529). -/
def execImageCommit (r : Req) (body : Option ImageBody) (s : State) : Host.Outcome State Fault Refusal :=
  let s1 := s.serveThen r 0x52 0 (fun s x _ =>
    match s.xferOf x.id with
    | none => s.ans .state
    | some t =>
      if s.xferRefused t.kind || decide (4 * t.words.length < t.size) then s.ans .state
      else
        let fits := s.bodyOk t.kind body
        let inSafe := decide (s.mode = .safe)
        let okA := (fits && s.headOk .a t.kind body && s.imageOk .a t.kind) || (inSafe && !s.procRuns .a)
        let okB := (fits && s.headOk .b t.kind body && s.imageOk .b t.kind) || (inSafe && !s.procRuns .b)
        if okA && okB then s.ans .ok
        else (s.imageReject t.kind (failedLanes okA okB)).ans .verifyFailed) (fun s => s.imageTake body)
  .next s1

/-- UPDATE_CONFIRM: the first lane's new bank is CONFIRMED, and the second lane is reset onto its own (R523, R525, t6). -/
def execUpdateConfirm (r : Req) (s : State) : Host.Outcome State Fault Refusal :=
  .next (s.serveThen r 0x53 0 (fun s _ _ =>
    if !s.updatePending then s.ans .state
    else
      let l := s.upd.first
      let s1 : State := { s.confirmBank l with updatePending := false }
      let s2 : State := { s1 with upd := { s1.upd with windowEnd := none } }
      ((s2.event 587 0 false s2.upd.version).setSiphon sipSecond).ans .ok) (fun s => s.sipReset s.upd.first.other))

/-- The handover tick of a siphon (R524, t4), or of a fallback, by the same rules in reverse (R526). -/
def execSiphonHandoverTick (s : State) : Host.Outcome State Fault Refusal :=
  if s.pwr.refclkLost then .next s else
  let l := s.upd.first
  .next (if s.upd.siphon = sipFirst then
      (if !s.sipReady then s
      else match s.mode with
        | .wide => (s.galReturn l (s.homeGals l) true).settingsTake.windowStart l
        | _ => (s.sipHandover).settingsTake.windowStart l)
    else if s.upd.siphon = sipFallback then
      (match s.mode with
      | .wide => if s.lstate l.other = .wideRun then s.sipFallback else s.sipLone
      | .paired =>
        if s.hg.active = l ∧ s.lstate l = .active then
          (if s.lstate l.other = .standby then (s.sipHandover).sipFallback else s.sipLone)
        else s.sipFallback
      | _ => s.sipFallback)
    else s)

/-- t3 has not come by its bound: the siphon falls back (R526, cause 3). -/
def execSiphonT3Late (s : State) : Host.Outcome State Fault Refusal :=
  if s.pwr.refclkLost then .next s else
  .next (if s.upd.siphon = sipFirst ∧ !s.sipReady then (s.fallbackEvent 3).sipFallback else s)

/-- The confirm window ends unconfirmed: the headgate falls back with a handover at the next tick (R526, cause 1). -/
def execUpdateConfirmWindowExpired (s : State) : Host.Outcome State Fault Refusal :=
  if s.pwr.refclkLost then .next s else
  .next (if s.upd.siphon = sipPending ∧ s.updatePending ∧ s.upd.windowEnd.getD 0 ≤ s.now then s.fallbackEvent 1 else s)

/-- A transfer without IMAGE_DATA for 600 s is abandoned (R521). -/
def execTransferAbandoned (s : State) : Host.Outcome State Fault Refusal :=
  if s.pwr.refclkLost then .next s else
  .next (match s.upd.xfer with
    | some x => if s.now < x.at_ + 600000000000 then s else { s with upd := { s.upd with xfer := none } }
    | none => s)

/-- A committed program image starts on both lanes (R528). In SERVICE it waits, and starts as SERVICE is left. -/
def execProgramImageStart (s : State) : Host.Outcome State Fault Refusal :=
  if s.pwr.refclkLost then .next s else
  .next (match s.upd.prog, s.mode with
    | some (p, t), .paired | some (p, t), .wide =>
      if s.now < t + 20000 then s
      else s.imageStart p
    | _, _ => s)

/-- A committed settings image starts whole (R529). -/
def execSettingsImageStart (s : State) : Host.Outcome State Fault Refusal :=
  if s.pwr.refclkLost then .next s else
  .next (match s.upd.sett with
    | some (x, t) =>
      if s.now < t + 20000 then s
      else
        let s1 := s.settingsStart x
        { s1 with upd := { s1.upd with sett := none, setSlot := 1 - s1.upd.setSlot } }
    | none => s)

end Sys2Proof.Machine
end

