-- ==== Sys2Proof/Machine/Dispatch.lean ====
section
/-! DEFINITION. What each command does: one arm per command, each one call of its meaning. -/

namespace Sys2Proof.Machine
open Sys2Proof

def exec (i : Instr) (s : State) : Host.Outcome State Fault Refusal :=
  match i with
  | .mainPowerValidAsserted => Sys2Proof.Machine.execMainPowerValidAsserted s
  | .refclkStable slot => Sys2Proof.Machine.execRefclkStable slot s
  | .headgateStartCompareDone agree => Sys2Proof.Machine.execHeadgateStartCompareDone agree s
  | .pllLocked => Sys2Proof.Machine.execPllLocked s
  | .domainReleaseStep reads => Sys2Proof.Machine.execDomainReleaseStep reads s
  | .mainPowerLostBeforeT8 => Sys2Proof.Machine.execMainPowerLostBeforeT8 s
  | .pllLossOfLock => Sys2Proof.Machine.execPllLossOfLock s
  | .pllLockAttemptTimeout => Sys2Proof.Machine.execPllLockAttemptTimeout s
  | .refclkLost => Sys2Proof.Machine.execRefclkLost s
  | .refclkReturned => Sys2Proof.Machine.execRefclkReturned s
  | .mateNLowFiltered => Sys2Proof.Machine.execMateNLowFiltered s
  | .mateNHigh => Sys2Proof.Machine.execMateNHigh s
  | .busPresent bus mv => Sys2Proof.Machine.execBusPresent bus mv s
  | .busLost bus mv => Sys2Proof.Machine.execBusLost bus mv s
  | .busOvervoltage bus mv => Sys2Proof.Machine.execBusOvervoltage bus mv s
  | .busOvervoltageCleared bus => Sys2Proof.Machine.execBusOvervoltageCleared bus s
  | .busReversed bus => Sys2Proof.Machine.execBusReversed bus s
  | .busReversalCleared bus => Sys2Proof.Machine.execBusReversalCleared bus s
  | .powerFailWarning => Sys2Proof.Machine.execPowerFailWarning s
  | .powerFailWarningCleared => Sys2Proof.Machine.execPowerFailWarningCleared s
  | .thermalDerateChange inlet => Sys2Proof.Machine.execThermalDerateChange inlet s
  | .fanFail fan => Sys2Proof.Machine.execFanFail fan s
  | .hotspotOvertemp => Sys2Proof.Machine.execHotspotOvertemp s
  | .pliakDatagramDropped transport datagram => Sys2Proof.Machine.execPliakDatagramDropped transport datagram s
  | .pliakAuthFail transport datagram => Sys2Proof.Machine.execPliakAuthFail transport datagram s
  | .sessionOpen gallery nonceS tag length transport vid => Sys2Proof.Machine.execSessionOpen gallery nonceS tag length transport vid s
  | .sessionConfirm r idle => Sys2Proof.Machine.execSessionConfirm r idle s
  | .sessionClose r => Sys2Proof.Machine.execSessionClose r s
  | .sessionOpenTimeout session => Sys2Proof.Machine.execSessionOpenTimeout session s
  | .sessionIdleTimeout session => Sys2Proof.Machine.execSessionIdleTimeout session s
  | .nop r opcode => Sys2Proof.Machine.execNop r opcode s
  | .abort r target => Sys2Proof.Machine.execAbort r target s
  | .identify r => Sys2Proof.Machine.execIdentify r s
  | .regRead r addr count => Sys2Proof.Machine.execRegRead r addr count s
  | .regWrite r addr count words => Sys2Proof.Machine.execRegWrite r addr count words s
  | .regModify r addr mask value => Sys2Proof.Machine.execRegModify r addr mask value s
  | .rlRegisterRead r addr => Sys2Proof.Machine.execRlRegisterRead r addr s
  | .pointRead r handle => Sys2Proof.Machine.execPointRead r handle s
  | .pointWrite r handle value => Sys2Proof.Machine.execPointWrite r handle value s
  | .gather r count handles => Sys2Proof.Machine.execGather r count handles s
  | .scatter r count elems => Sys2Proof.Machine.execScatter r count elems s
  | .force r handle value => Sys2Proof.Machine.execForce r handle value s
  | .unforce r handle => Sys2Proof.Machine.execUnforce r handle s
  | .pointInfo r handle => Sys2Proof.Machine.execPointInfo r handle s
  | .eventRead r start max opt => Sys2Proof.Machine.execEventRead r start max opt s
  | .eventAck r count seqs => Sys2Proof.Machine.execEventAck r count seqs s
  | .modeSetEnterService r mode => Sys2Proof.Machine.execModeSetEnterService r mode s
  | .modeSetLeaveService r => Sys2Proof.Machine.execModeSetLeaveService r s
  | .exercise r => Sys2Proof.Machine.execExercise r s
  | .snapshotArm r instant id => Sys2Proof.Machine.execSnapshotArm r instant id s
  | .imageBegin r kind size => Sys2Proof.Machine.execImageBegin r kind size s
  | .imageData r offset data => Sys2Proof.Machine.execImageData r offset data s
  | .imageCommit r body => Sys2Proof.Machine.execImageCommit r body s
  | .updateConfirm r => Sys2Proof.Machine.execUpdateConfirm r s
  | .keyLoad r slot parent attr wrapped => Sys2Proof.Machine.execKeyLoad r slot parent attr wrapped s
  | .keyInvalidate r slot => Sys2Proof.Machine.execKeyInvalidate r slot s
  | .keyInfo r slot => Sys2Proof.Machine.execKeyInfo r slot s
  | .meterRead r select => Sys2Proof.Machine.execMeterRead r select s
  | .loopTest r slot signal buffer amplitude arg => Sys2Proof.Machine.execLoopTest r slot signal buffer amplitude arg s
  | .loopTestStop r slot point buffer amplitude arg => Sys2Proof.Machine.execLoopTestStop r slot point buffer amplitude arg s
  | .captureRead r buffer start count => Sys2Proof.Machine.execCaptureRead r buffer start count s
  | .recorderFreeze r on => Sys2Proof.Machine.execRecorderFreeze r on s
  | .recorderRelease r => Sys2Proof.Machine.execRecorderRelease r s
  | .operationTimeout session tag => Sys2Proof.Machine.execOperationTimeout session tag s
  | .rateLimitWindowEnd source obj => Sys2Proof.Machine.execRateLimitWindowEnd source obj s
  | .cabinetBusRead w => Sys2Proof.Machine.execCabinetBusRead w s
  | .cabinetBusWrite w v => Sys2Proof.Machine.execCabinetBusWrite w v s
  | .mirrorPinTimeout => Sys2Proof.Machine.execMirrorPinTimeout s
  | .doorbellRing len => Sys2Proof.Machine.execDoorbellRing len s
  | .doorbellReplyReady => Sys2Proof.Machine.execDoorbellReplyReady s
  | .doorbellRelease => Sys2Proof.Machine.execDoorbellRelease s
  | .doorbellWriteWhileBusy => Sys2Proof.Machine.execDoorbellWriteWhileBusy s
  | .hgOwnApply r => Sys2Proof.Machine.execHgOwnApply r s
  | .ownershipApplyTick => Sys2Proof.Machine.execOwnershipApplyTick s
  | .portDetectPass port a b => Sys2Proof.Machine.execPortDetectPass port a b s
  | .portConnectionCheckDone port single => Sys2Proof.Machine.execPortConnectionCheckDone port single s
  | .portClassifyDone port clsA clsB auto => Sys2Proof.Machine.execPortClassifyDone port clsA clsB auto s
  | .portGrantReceived port => Sys2Proof.Machine.execPortGrantReceived port s
  | .portGrantTimeout port => Sys2Proof.Machine.execPortGrantTimeout port s
  | .portInrushComplete port ps => Sys2Proof.Machine.execPortInrushComplete port ps s
  | .portInrushTimeout port ps => Sys2Proof.Machine.execPortInrushTimeout port ps s
  | .portMpsLost port ps => Sys2Proof.Machine.execPortMpsLost port ps s
  | .portOverload port ps => Sys2Proof.Machine.execPortOverload port ps s
  | .portShort port ps energy => Sys2Proof.Machine.execPortShort port ps energy s
  | .portRegFault port ps => Sys2Proof.Machine.execPortRegFault port ps s
  | .portBackoffExpired port ps => Sys2Proof.Machine.execPortBackoffExpired port ps s
  | .portRestart r port => Sys2Proof.Machine.execPortRestart r port s
  | .portCtrlWrite r port vset value => Sys2Proof.Machine.execPortCtrlWrite r port vset value s
  | .autoclassWindowEnd port peak => Sys2Proof.Machine.execAutoclassWindowEnd port peak s
  | .loopRMeasureDue port => Sys2Proof.Machine.execLoopRMeasureDue port s
  | .portRemeasure r port => Sys2Proof.Machine.execPortRemeasure r port s
  | .loopRMeasureRetry port => Sys2Proof.Machine.execLoopRMeasureRetry port s
  | .loopRMeasureComplete port base stepA stepB => Sys2Proof.Machine.execLoopRMeasureComplete port base stepA stepB s
  | .voltageRampStep port => Sys2Proof.Machine.execVoltageRampStep port s
  | .weirClampEngage port ps => Sys2Proof.Machine.execWeirClampEngage port ps s
  | .weirClampRelease port ps energy => Sys2Proof.Machine.execWeirClampRelease port ps energy s
  | .weirEnergyTrip port energy => Sys2Proof.Machine.execWeirEnergyTrip port energy s
  | .weirFaultEventEnd port => Sys2Proof.Machine.execWeirFaultEventEnd port s
  | .weir3sTrip port => Sys2Proof.Machine.execWeir3sTrip port s
  | .weirOvervoltage port ps => Sys2Proof.Machine.execWeirOvervoltage port ps s
  | .weirRefusalEnd port => Sys2Proof.Machine.execWeirRefusalEnd port s
  | .allocTick m ports => Sys2Proof.Machine.execAllocTick m ports s
  | .dipRideExpired cause => Sys2Proof.Machine.execDipRideExpired cause s
  | .earmarkExpired port => Sys2Proof.Machine.execEarmarkExpired port s
  | .shedRestoreWaitExpired => Sys2Proof.Machine.execShedRestoreWaitExpired s
  | .allocRestore r => Sys2Proof.Machine.execAllocRestore r s
  | .sluiceDischargeStart => Sys2Proof.Machine.execSluiceDischargeStart s
  | .sluiceDischargeStop => Sys2Proof.Machine.execSluiceDischargeStop s
  | .sluiceFull => Sys2Proof.Machine.execSluiceFull s
  | .sluiceChargeResume => Sys2Proof.Machine.execSluiceChargeResume s
  | .reserveOkSet => Sys2Proof.Machine.execReserveOkSet s
  | .reserveLost => Sys2Proof.Machine.execReserveLost s
  | .reserveGrantTimeout => Sys2Proof.Machine.execReserveGrantTimeout s
  | .sluiceCapMeasured c => Sys2Proof.Machine.execSluiceCapMeasured c s
  | .sluiceHot temp => Sys2Proof.Machine.execSluiceHot temp s
  | .sluiceCellFault present vmax => Sys2Proof.Machine.execSluiceCellFault present vmax s
  | .rideEnd => Sys2Proof.Machine.execRideEnd s
  | .pfwSaveComplete us ok => Sys2Proof.Machine.execPfwSaveComplete us ok s
  | .holdupLost torn => Sys2Proof.Machine.execHoldupLost torn s
  | .lumHello port src linkLocal seq tag nodes cold vendor => Sys2Proof.Machine.execLumHello port src linkLocal seq tag nodes cold vendor s
  | .lumBadDatagram lane => Sys2Proof.Machine.execLumBadDatagram lane s
  | .lumHelloTimeout port => Sys2Proof.Machine.execLumHelloTimeout port s
  | .lumConfigReply port src node result => Sys2Proof.Machine.execLumConfigReply port src node result s
  | .lumConfigResend port => Sys2Proof.Machine.execLumConfigResend port s
  | .lightTick => Sys2Proof.Machine.execLightTick s
  | .lumLevelReply port src seq tag result entries => Sys2Proof.Machine.execLumLevelReply port src seq tag result entries s
  | .lumLateReply port => Sys2Proof.Machine.execLumLateReply port s
  | .lumReplyWindowClose => Sys2Proof.Machine.execLumReplyWindowClose s
  | .lumIdentify r node seconds => Sys2Proof.Machine.execLumIdentify r node seconds s
  | .frameReceived k f phy => Sys2Proof.Machine.execFrameReceived k f phy s
  | .pauseRefresh k => Sys2Proof.Machine.execPauseRefresh k s
  | .pauseSendLow k => Sys2Proof.Machine.execPauseSendLow k s
  | .pauseReceived k quanta => Sys2Proof.Machine.execPauseReceived k quanta s
  | .egressQueueAgeDrop k queue => Sys2Proof.Machine.execEgressQueueAgeDrop k queue s
  | .portLinkChange k up speed half mdix eee => Sys2Proof.Machine.execPortLinkChange k up speed half mdix eee s
  | .duplexRetry k => Sys2Proof.Machine.execDuplexRetry k s
  | .rateLowerDecision k => Sys2Proof.Machine.execRateLowerDecision k s
  | .rateRaiseDecision k => Sys2Proof.Machine.execRateRaiseDecision k s
  | .rateChangeLinkUp k => Sys2Proof.Machine.execRateChangeLinkUp k s
  | .rateChangeFailed k => Sys2Proof.Machine.execRateChangeFailed k s
  | .ethPortRaise r k => Sys2Proof.Machine.execEthPortRaise r k s
  | .ethPortRelink r k => Sys2Proof.Machine.execEthPortRelink r k s
  | .ethPortSnap r k => Sys2Proof.Machine.execEthPortSnap r k s
  | .mgmtVidWrite r value => Sys2Proof.Machine.execMgmtVidWrite r value s
  | .mgmtInterfaceRequest uplink vid ask => Sys2Proof.Machine.execMgmtInterfaceRequest uplink vid ask s
  | .sfpInserted cage level kind => Sys2Proof.Machine.execSfpInserted cage level kind s
  | .sfpRemoved cage => Sys2Proof.Machine.execSfpRemoved cage s
  | .sfpAlarmPoll cage txFault los ddm => Sys2Proof.Machine.execSfpAlarmPoll cage txFault los ddm s
  | .ptpSyncReceived offset rate steps delayA delayB => Sys2Proof.Machine.execPtpSyncReceived offset rate steps delayA delayB s
  | .ptpGmSelected best => Sys2Proof.Machine.execPtpGmSelected best s
  | .ptpLockAchieved => Sys2Proof.Machine.execPtpLockAchieved s
  | .ptpOffsetExceeded offset => Sys2Proof.Machine.execPtpOffsetExceeded offset s
  | .ptpSyncLost => Sys2Proof.Machine.execPtpSyncLost s
  | .ptpSyncResumed => Sys2Proof.Machine.execPtpSyncResumed s
  | .ptpHoldoverExpired => Sys2Proof.Machine.execPtpHoldoverExpired s
  | .ptpBetterGm uplink announce => Sys2Proof.Machine.execPtpBetterGm uplink announce s
  | .ptpEnableChange r value => Sys2Proof.Machine.execPtpEnableChange r value s
  | .cycleTick => Sys2Proof.Machine.execCycleTick s
  | .computeStart lane => Sys2Proof.Machine.execComputeStart lane s
  | .cellsDone lane exec => Sys2Proof.Machine.execCellsDone lane exec s
  | .commitStart lane => Sys2Proof.Machine.execCommitStart lane s
  | .outputRelease lane => Sys2Proof.Machine.execOutputRelease lane s
  | .endOfCycle lane => Sys2Proof.Machine.execEndOfCycle lane s
  | .cycleOverrun lane => Sys2Proof.Machine.execCycleOverrun lane s
  | .laneWatchdog lane => Sys2Proof.Machine.execLaneWatchdog lane s
  | .retainSetCommit lane => Sys2Proof.Machine.execRetainSetCommit lane s
  | .retainLagDetected lane => Sys2Proof.Machine.execRetainLagDetected lane s
  | .cellFault cell readable => Sys2Proof.Machine.execCellFault cell readable s
  | .coldNextWrite r on => Sys2Proof.Machine.execColdNextWrite r on s
  | .cycClrStats r => Sys2Proof.Machine.execCycClrStats r s
  | .loopSubframeStart lane => Sys2Proof.Machine.execLoopSubframeStart lane s
  | .loopComputationDone lane slot => Sys2Proof.Machine.execLoopComputationDone lane slot s
  | .loopDatapathCheck lane dp right => Sys2Proof.Machine.execLoopDatapathCheck lane dp right s
  | .loopCaptureClear r buffer => Sys2Proof.Machine.execLoopCaptureClear r buffer s
  | .loopClrStats r => Sys2Proof.Machine.execLoopClrStats r s
  | .meterSample x => Sys2Proof.Machine.execMeterSample x s
  | .portMeterSample port power volts amps => Sys2Proof.Machine.execPortMeterSample port power volts amps s
  | .lineCycleEnd base frac => Sys2Proof.Machine.execLineCycleEnd base frac s
  | .pulseStart k => Sys2Proof.Machine.execPulseStart k s
  | .pulseEnd k => Sys2Proof.Machine.execPulseEnd k s
  | .meterLatch => Sys2Proof.Machine.execMeterLatch s
  | .meterPublish deferred => Sys2Proof.Machine.execMeterPublish deferred s
  | .energyPeriodicSave done => Sys2Proof.Machine.execEnergyPeriodicSave done s
  | .mtrSeal r => Sys2Proof.Machine.execMtrSeal r s
  | .mtrUnseal r => Sys2Proof.Machine.execMtrUnseal r s
  | .revenueParamWrite r offset value => Sys2Proof.Machine.execRevenueParamWrite r offset value s
  | .meterSelfcheckFail channel => Sys2Proof.Machine.execMeterSelfcheckFail channel s
  | .aioConversion ch code readback => Sys2Proof.Machine.execAioConversion ch code readback s
  | .aioReadbackMismatch ch => Sys2Proof.Machine.execAioReadbackMismatch ch s
  | .aioDriverFault ch headroom current => Sys2Proof.Machine.execAioDriverFault ch headroom current s
  | .aioInputFault ch cause => Sys2Proof.Machine.execAioInputFault ch cause s
  | .aioGroupSupplyFault group => Sys2Proof.Machine.execAioGroupSupplyFault group s
  | .aioFaultCleared ch cause => Sys2Proof.Machine.execAioFaultCleared ch cause s
  | .aioLsRetry ch current => Sys2Proof.Machine.execAioLsRetry ch current s
  | .aioSurge ch => Sys2Proof.Machine.execAioSurge ch s
  | .aioSurgeSuspendEnd ch => Sys2Proof.Machine.execAioSurgeSuspendEnd ch s
  | .aioCfgApply ch => Sys2Proof.Machine.execAioCfgApply ch s
  | .canLeaveInit r ctl value => Sys2Proof.Machine.execCanLeaveInit r ctl value s
  | .canEnterInit r ctl value => Sys2Proof.Machine.execCanEnterInit r ctl value s
  | .canIntegrationDone ctl => Sys2Proof.Machine.execCanIntegrationDone ctl s
  | .canBusError ctl kind tec rec => Sys2Proof.Machine.execCanBusError ctl kind tec rec s
  | .canRecover r ctl => Sys2Proof.Machine.execCanRecover r ctl s
  | .canRecoveryDone ctl => Sys2Proof.Machine.execCanRecoveryDone ctl s
  | .canFrameReceived ctl xtd ident fdf dlc data tec rec => Sys2Proof.Machine.execCanFrameReceived ctl xtd ident fdf dlc data tec rec s
  | .canRemoteFrame ctl => Sys2Proof.Machine.execCanRemoteFrame ctl s
  | .canRxTimeout ctl obj => Sys2Proof.Machine.execCanRxTimeout ctl obj s
  | .canTxreq r ctl w bits => Sys2Proof.Machine.execCanTxreq r ctl w bits s
  | .canFrameSent ctl tdc tec rec => Sys2Proof.Machine.execCanFrameSent ctl tdc tec rec s
  | .canArbitrationLost ctl => Sys2Proof.Machine.execCanArbitrationLost ctl s
  | .canRepeatStart ctl obj => Sys2Proof.Machine.execCanRepeatStart ctl obj s
  | .canRepeatSend ctl obj => Sys2Proof.Machine.execCanRepeatSend ctl obj s
  | .canHeaderWrite r ctl descr n w value => Sys2Proof.Machine.execCanHeaderWrite r ctl descr n w value s
  | .canDominantTimeout ctl => Sys2Proof.Machine.execCanDominantTimeout ctl s
  | .canTransceiverSupply ctl => Sys2Proof.Machine.execCanTransceiverSupply ctl s
  | .canModeApply ctl => Sys2Proof.Machine.execCanModeApply ctl s
  | .canClrStats r ctl => Sys2Proof.Machine.execCanClrStats r ctl s
  | .laneDirectFailure lane cause => Sys2Proof.Machine.execLaneDirectFailure lane cause s
  | .heartbeatMiss path => Sys2Proof.Machine.execHeartbeatMiss path s
  | .heartbeatPathRestored path => Sys2Proof.Machine.execHeartbeatPathRestored path s
  | .partnerHeartbeatChange input ok => Sys2Proof.Machine.execPartnerHeartbeatChange input ok s
  | .takeoverTick => Sys2Proof.Machine.execTakeoverTick s
  | .plannedHandover => Sys2Proof.Machine.execPlannedHandover s
  | .stateCopyComplete dirty time crc resent => Sys2Proof.Machine.execStateCopyComplete dirty time crc resent s
  | .stateCopyDiscard crc resent => Sys2Proof.Machine.execStateCopyDiscard crc resent s
  | .laneStartingComplete lane image settings => Sys2Proof.Machine.execLaneStartingComplete lane image settings s
  | .syncComplete => Sys2Proof.Machine.execSyncComplete s
  | .galleryRestoreTick lane => Sys2Proof.Machine.execGalleryRestoreTick lane s
  | .hgRebalance r => Sys2Proof.Machine.execHgRebalance r s
  | .hgRejoin r => Sys2Proof.Machine.execHgRejoin r s
  | .laneFailedRetry lane => Sys2Proof.Machine.execLaneFailedRetry lane s
  | .exerciseStageDone => Sys2Proof.Machine.execExerciseStageDone s
  | .exerciseAgeHour => Sys2Proof.Machine.execExerciseAgeHour s
  | .headgateDisagree => Sys2Proof.Machine.execHeadgateDisagree s
  | .headgateCopySilent copy => Sys2Proof.Machine.execHeadgateCopySilent copy s
  | .laneChoice lane => Sys2Proof.Machine.execLaneChoice lane s
  | .singleCopySilent => Sys2Proof.Machine.execSingleCopySilent s
  | .noLaneTimeout => Sys2Proof.Machine.execNoLaneTimeout s
  | .hgRstCmdDomain r value => Sys2Proof.Machine.execHgRstCmdDomain r value s
  | .enterSafeCommand r => Sys2Proof.Machine.execEnterSafeCommand r s
  | .blockWatchdog dom => Sys2Proof.Machine.execBlockWatchdog dom s
  | .resetCommandDue dom => Sys2Proof.Machine.execResetCommandDue dom s
  | .domainQuiesced dom => Sys2Proof.Machine.execDomainQuiesced dom s
  | .quiesceTimeout dom => Sys2Proof.Machine.execQuiesceTimeout dom s
  | .domainResetRelease dom => Sys2Proof.Machine.execDomainResetRelease dom s
  | .sharedFwReloaded dom => Sys2Proof.Machine.execSharedFwReloaded dom s
  | .resetBackoffExpired dom => Sys2Proof.Machine.execResetBackoffExpired dom s
  | .nvPulseEnd dom => Sys2Proof.Machine.execNvPulseEnd dom s
  | .startupSelftestDone lane test => Sys2Proof.Machine.execStartupSelftestDone lane test s
  | .bistSliceDue lane cluster volt clock => Sys2Proof.Machine.execBistSliceDue lane cluster volt clock s
  | .bistSliceDone lane cluster volt clock pass => Sys2Proof.Machine.execBistSliceDone lane cluster volt clock pass s
  | .servicePassDone lane test => Sys2Proof.Machine.execServicePassDone lane test s
  | .rtcSnapSecRead r => Sys2Proof.Machine.execRtcSnapSecRead r s
  | .rtcSnapYearRead r => Sys2Proof.Machine.execRtcSnapYearRead r s
  | .rtcFreezeTimeout => Sys2Proof.Machine.execRtcFreezeTimeout s
  | .rtcLoad r value => Sys2Proof.Machine.execRtcLoad r value s
  | .rtcDisciplineCompare announced rate phase => Sys2Proof.Machine.execRtcDisciplineCompare announced rate phase s
  | .rtcOscStopped => Sys2Proof.Machine.execRtcOscStopped s
  | .rtcCalendarWrap => Sys2Proof.Machine.execRtcCalendarWrap s
  | .rtcOsfClear r => Sys2Proof.Machine.execRtcOsfClear r s
  | .backupSwitchover => Sys2Proof.Machine.execBackupSwitchover s
  | .coinCellMeasure mv => Sys2Proof.Machine.execCoinCellMeasure mv s
  | .backupBrownOut => Sys2Proof.Machine.execBackupBrownOut s
  | .cisternUpdate r word words => Sys2Proof.Machine.execCisternUpdate r word words s
  | .recorderSample extreme desc => Sys2Proof.Machine.execRecorderSample extreme desc s
  | .recorderEpochEnd extreme desc => Sys2Proof.Machine.execRecorderEpochEnd extreme desc s
  | .recorderFlush => Sys2Proof.Machine.execRecorderFlush s
  | .recorderFreezeExpired => Sys2Proof.Machine.execRecorderFreezeExpired s
  | .recorderClear r => Sys2Proof.Machine.execRecorderClear r s
  | .flowDescriptorChange r extreme desc reg value => Sys2Proof.Machine.execFlowDescriptorChange r extreme desc reg value s
  | .operatingHoursStep => Sys2Proof.Machine.execOperatingHoursStep s
  | .keyAreaWriteDone ok => Sys2Proof.Machine.execKeyAreaWriteDone ok s
  | .ckvDataWrite r unit value => Sys2Proof.Machine.execCkvDataWrite r unit value s
  | .ckvFold r unit => Sys2Proof.Machine.execCkvFold r unit s
  | .ckvInit r unit => Sys2Proof.Machine.execCkvInit r unit s
  | .ckvStart r unit => Sys2Proof.Machine.execCkvStart r unit s
  | .ckvAbort r unit => Sys2Proof.Machine.execCkvAbort r unit s
  | .ckvScanComplete lane unit fed => Sys2Proof.Machine.execCkvScanComplete lane unit fed s
  | .ckvScanFault lane unit code fed addr => Sys2Proof.Machine.execCkvScanFault lane unit code fed addr s
  | .ckvValueWrite r unit high value => Sys2Proof.Machine.execCkvValueWrite r unit high value s
  | .siphonHandoverTick => Sys2Proof.Machine.execSiphonHandoverTick s
  | .siphonT3Late => Sys2Proof.Machine.execSiphonT3Late s
  | .updateConfirmWindowExpired => Sys2Proof.Machine.execUpdateConfirmWindowExpired s
  | .transferAbandoned => Sys2Proof.Machine.execTransferAbandoned s
  | .programImageStart => Sys2Proof.Machine.execProgramImageStart s
  | .settingsImageStart => Sys2Proof.Machine.execSettingsImageStart s
  | .snapshotStrobe late => Sys2Proof.Machine.execSnapshotStrobe late s
  | .snapshotRecordComplete => Sys2Proof.Machine.execSnapshotRecordComplete s
  | .heartbeatReceived path => Sys2Proof.Machine.execHeartbeatReceived path s
  | .culvertLinkChange lane up => Sys2Proof.Machine.execCulvertLinkChange lane up s
  | .rtcOscRestarted => Sys2Proof.Machine.execRtcOscRestarted s
  | .pauseQuantaExpired k => Sys2Proof.Machine.execPauseQuantaExpired k s
  | .addressAgedOut vid mac => Sys2Proof.Machine.execAddressAgedOut vid mac s

end Sys2Proof.Machine
end

