-- ==== Sys2Proof/Machine/Lamps.lean ====
section
/-! DEFINITION. The outputs that follow from the state at every instant: the lamps of the front panel (R64) and the heartbeats to the
partner module (R59). -/

namespace Sys2Proof.Machine
open Sys2Proof

/-- How a lamp shines. -/
inductive Lamp | off | steady | flashing
deriving DecidableEq, Repr

def lampOf (b : Bool) : Lamp := if b then .steady else .off

/-- The front panel's lamps (R64), the jacks' by port number less one. -/
structure Lamps where
  pwr : Lamp
  run : Lamp
  hold : Lamp
  deg : Lamp
  force : Lamp
  laneA : Lamp
  laneB : Lamp
  jackGreen : List Lamp
  jackAmber : List Lamp
deriving DecidableEq, Repr

/-- RUN in a mode (R64). -/
def runLamp : Mode → Lamp
  | .paired | .wide => .steady
  | .boot | .service => .flashing
  | .hold | .safe => .off

/-- HOLD in a mode (R64). -/
def holdLamp : Mode → Lamp
  | .hold | .safe => .steady
  | _ => .off

/-- The lamps (R64). Those beside PWR are driven by the AON domain: dark until t1. A lane is active while it runs cycles. -/
def State.lamps (s : State) : Lamps :=
  let on (b : Bool) : Lamp := lampOf (s.pwr.aonOut && b)
  { pwr := lampOf s.pwr.mainPower
    run := if s.pwr.aonOut then runLamp s.mode else .off
    hold := if s.pwr.aonOut then holdLamp s.mode else .off
    deg := on s.degraded
    force := on (!s.forces.isEmpty)
    laneA := on (s.runsCycles .a)
    laneB := on (s.runsCycles .b)
    jackGreen := (List.range 64).map (fun p => on (s.linkUp p))
    jackAmber := (List.range 64).map (fun p => on (s.powered p)) }

/-- HB_A or HB_B (R59): high for 1.0 µs every 250 µs of the lane's timer, which starts when the lane leaves reset; low while the lane is in
reset. -/
def State.heartbeatOut (s : State) (l : Lane) : Bool :=
  s.pwr.aonOut && !s.inReset l.dom.bit && decide ((s.now - (s.laneHg l).hbFrom) % 250000 < 1000)

end Sys2Proof.Machine
end

