-- ==== Sys2Proof/WellFormed.lean ====
section
/-! DEFINITION. Which commands are well formed: what the types of the operands do not say. -/

namespace Sys2Proof

/-- A decoded program image has a base cycle other than zero, and its loop descriptors sixteen words (R334). Its limits are checked at IMAGE_COMMIT (R277). -/
def progFits (i : ProgImage) : Bool := decide (0 < i.base) && i.loops.all (fun d => decide (d.2.length = 16))

/-- What an image decodes to is well formed. -/
def bodyFits : Option ImageBody → Bool
  | some (.program i) => progFits i
  | _ => true

/-- Is a command well formed? -/
def Instr.wellFormed : Instr → Bool
  | .mainPowerValidAsserted => true
  | .refclkStable .. => true
  | .headgateStartCompareDone .. => true
  | .pllLocked => true
  | .domainReleaseStep .. => true
  | .mainPowerLostBeforeT8 => true
  | .pllLossOfLock => true
  | .pllLockAttemptTimeout => true
  | .refclkLost => true
  | .refclkReturned => true
  | .mateNLowFiltered => true
  | .mateNHigh => true
  | .busPresent .. => true
  | .busLost .. => true
  | .busOvervoltage .. => true
  | .busOvervoltageCleared .. => true
  | .busReversed .. => true
  | .busReversalCleared .. => true
  | .powerFailWarning => true
  | .powerFailWarningCleared => true
  | .thermalDerateChange .. => true
  | .fanFail .. => true
  | .hotspotOvertemp => true
  | .pliakDatagramDropped .. => true
  | .pliakAuthFail .. => true
  | .sessionOpen .. => true
  | .sessionConfirm .. => true
  | .sessionClose .. => true
  | .sessionOpenTimeout .. => true
  | .sessionIdleTimeout .. => true
  | .nop .. => true
  | .abort .. => true
  | .identify .. => true
  | .regRead .. => true
  | .regWrite .. => true
  | .regModify .. => true
  | .rlRegisterRead _ addr => decide (addr.toNat % 4 = 0)
  | .pointRead .. => true
  | .pointWrite .. => true
  | .gather .. => true
  | .scatter .. => true
  | .force .. => true
  | .unforce .. => true
  | .pointInfo .. => true
  | .eventRead .. => true
  | .eventAck .. => true
  | .modeSetEnterService _ mode => decide (mode ≠ 0)
  | .modeSetLeaveService .. => true
  | .exercise .. => true
  | .snapshotArm .. => true
  | .imageBegin .. => true
  | .imageData .. => true
  | .imageCommit _ body => bodyFits body
  | .updateConfirm .. => true
  | .keyLoad _ _ _ _ wrapped => decide (wrapped.length = 40)
  | .keyInvalidate .. => true
  | .keyInfo .. => true
  | .meterRead .. => true
  | .loopTest _ _ signal _ _ _ => decide (signal.toNat % 16 ≠ 15)
  | .loopTestStop .. => true
  | .captureRead .. => true
  | .recorderFreeze _ on => decide (on ≠ 0)
  | .recorderRelease .. => true
  | .operationTimeout .. => true
  | .rateLimitWindowEnd .. => true
  | .cabinetBusRead .. => true
  | .cabinetBusWrite .. => true
  | .mirrorPinTimeout => true
  | .doorbellRing .. => true
  | .doorbellReplyReady => true
  | .doorbellRelease => true
  | .doorbellWriteWhileBusy => true
  | .hgOwnApply .. => true
  | .ownershipApplyTick => true
  | .portDetectPass .. => true
  | .portConnectionCheckDone .. => true
  | .portClassifyDone .. => true
  | .portGrantReceived .. => true
  | .portGrantTimeout .. => true
  | .portInrushComplete .. => true
  | .portInrushTimeout .. => true
  | .portMpsLost .. => true
  | .portOverload .. => true
  | .portShort .. => true
  | .portRegFault .. => true
  | .portBackoffExpired .. => true
  | .portRestart .. => true
  | .portCtrlWrite .. => true
  | .autoclassWindowEnd .. => true
  | .loopRMeasureDue .. => true
  | .portRemeasure .. => true
  | .loopRMeasureRetry .. => true
  | .loopRMeasureComplete .. => true
  | .voltageRampStep .. => true
  | .weirClampEngage .. => true
  | .weirClampRelease .. => true
  | .weirEnergyTrip .. => true
  | .weirFaultEventEnd .. => true
  | .weir3sTrip .. => true
  | .weirOvervoltage .. => true
  | .weirRefusalEnd .. => true
  | .allocTick _ ports => (ports.map (fun m => m.port)).Nodup
  | .dipRideExpired .. => true
  | .earmarkExpired .. => true
  | .shedRestoreWaitExpired => true
  | .allocRestore .. => true
  | .sluiceDischargeStart => true
  | .sluiceDischargeStop => true
  | .sluiceFull => true
  | .sluiceChargeResume => true
  | .reserveOkSet => true
  | .reserveLost => true
  | .reserveGrantTimeout => true
  | .sluiceCapMeasured .. => true
  | .sluiceHot .. => true
  | .sluiceCellFault .. => true
  | .rideEnd => true
  | .pfwSaveComplete .. => true
  | .holdupLost .. => true
  | .lumHello .. => true
  | .lumBadDatagram .. => true
  | .lumHelloTimeout .. => true
  | .lumConfigReply .. => true
  | .lumConfigResend .. => true
  | .lightTick => true
  | .lumLevelReply _ _ _ _ _ entries => decide (entries.length ≤ 4)
  | .lumLateReply .. => true
  | .lumReplyWindowClose => true
  | .lumIdentify .. => true
  | .frameReceived .. => true
  | .pauseRefresh .. => true
  | .pauseSendLow .. => true
  | .pauseReceived .. => true
  | .egressQueueAgeDrop .. => true
  | .portLinkChange .. => true
  | .duplexRetry .. => true
  | .rateLowerDecision .. => true
  | .rateRaiseDecision .. => true
  | .rateChangeLinkUp .. => true
  | .rateChangeFailed .. => true
  | .ethPortRaise .. => true
  | .ethPortRelink .. => true
  | .ethPortSnap .. => true
  | .mgmtVidWrite .. => true
  | .mgmtInterfaceRequest .. => true
  | .sfpInserted .. => true
  | .sfpRemoved .. => true
  | .sfpAlarmPoll .. => true
  | .ptpSyncReceived .. => true
  | .ptpGmSelected .. => true
  | .ptpLockAchieved => true
  | .ptpOffsetExceeded .. => true
  | .ptpSyncLost => true
  | .ptpSyncResumed => true
  | .ptpHoldoverExpired => true
  | .ptpBetterGm .. => true
  | .ptpEnableChange .. => true
  | .cycleTick => true
  | .computeStart .. => true
  | .cellsDone .. => true
  | .commitStart .. => true
  | .outputRelease .. => true
  | .endOfCycle .. => true
  | .cycleOverrun .. => true
  | .laneWatchdog .. => true
  | .retainSetCommit .. => true
  | .retainLagDetected .. => true
  | .cellFault .. => true
  | .coldNextWrite .. => true
  | .cycClrStats .. => true
  | .loopSubframeStart .. => true
  | .loopComputationDone .. => true
  | .loopDatapathCheck .. => true
  | .loopCaptureClear .. => true
  | .loopClrStats .. => true
  | .meterSample x => decide (x.volts.length = 6) && decide (x.raw.length = 48)
  | .portMeterSample .. => true
  | .lineCycleEnd .. => true
  | .pulseStart .. => true
  | .pulseEnd .. => true
  | .meterLatch => true
  | .meterPublish .. => true
  | .energyPeriodicSave .. => true
  | .mtrSeal .. => true
  | .mtrUnseal .. => true
  | .revenueParamWrite _ offset _ => decide (offset.toNat % 4 = 0)
  | .meterSelfcheckFail .. => true
  | .aioConversion .. => true
  | .aioReadbackMismatch .. => true
  | .aioDriverFault .. => true
  | .aioInputFault _ cause => decide (cause.val ≠ 0)
  | .aioGroupSupplyFault .. => true
  | .aioFaultCleared _ cause => decide (cause.val ≠ 0)
  | .aioLsRetry .. => true
  | .aioSurge .. => true
  | .aioSurgeSuspendEnd .. => true
  | .aioCfgApply .. => true
  | .canLeaveInit .. => true
  | .canEnterInit .. => true
  | .canIntegrationDone .. => true
  | .canBusError .. => true
  | .canRecover .. => true
  | .canRecoveryDone .. => true
  | .canFrameReceived .. => true
  | .canRemoteFrame .. => true
  | .canRxTimeout .. => true
  | .canTxreq .. => true
  | .canFrameSent .. => true
  | .canArbitrationLost .. => true
  | .canRepeatStart .. => true
  | .canRepeatSend .. => true
  | .canHeaderWrite _ _ descr n w _ => if descr then decide (w.val < 2) else decide (n.val < 128)
  | .canDominantTimeout .. => true
  | .canTransceiverSupply .. => true
  | .canModeApply .. => true
  | .canClrStats .. => true
  | .laneDirectFailure _ cause => decide (2 ≤ cause.val) && decide (cause.val ≤ 5)
  | .heartbeatMiss .. => true
  | .heartbeatPathRestored .. => true
  | .partnerHeartbeatChange .. => true
  | .takeoverTick => true
  | .plannedHandover => true
  | .stateCopyComplete .. => true
  | .stateCopyDiscard .. => true
  | .laneStartingComplete _ image _ => image.all progFits
  | .syncComplete => true
  | .galleryRestoreTick .. => true
  | .hgRebalance .. => true
  | .hgRejoin .. => true
  | .laneFailedRetry .. => true
  | .exerciseStageDone => true
  | .exerciseAgeHour => true
  | .headgateDisagree => true
  | .headgateCopySilent .. => true
  | .laneChoice .. => true
  | .singleCopySilent => true
  | .noLaneTimeout => true
  | .hgRstCmdDomain .. => true
  | .enterSafeCommand .. => true
  | .blockWatchdog .. => true
  | .resetCommandDue .. => true
  | .domainQuiesced .. => true
  | .quiesceTimeout .. => true
  | .domainResetRelease .. => true
  | .sharedFwReloaded .. => true
  | .resetBackoffExpired .. => true
  | .nvPulseEnd .. => true
  | .startupSelftestDone .. => true
  | .bistSliceDue .. => true
  | .bistSliceDone .. => true
  | .servicePassDone .. => true
  | .rtcSnapSecRead .. => true
  | .rtcSnapYearRead .. => true
  | .rtcFreezeTimeout => true
  | .rtcLoad .. => true
  | .rtcDisciplineCompare .. => true
  | .rtcOscStopped => true
  | .rtcCalendarWrap => true
  | .rtcOsfClear .. => true
  | .backupSwitchover => true
  | .coinCellMeasure .. => true
  | .backupBrownOut => true
  | .cisternUpdate _ word words => !words.isEmpty && decide (word.val + words.length ≤ 126)
  | .recorderSample extreme desc => extreme || decide (desc.val < 32)
  | .recorderEpochEnd extreme desc => extreme || decide (desc.val < 32)
  | .recorderFlush => true
  | .recorderFreezeExpired => true
  | .recorderClear .. => true
  | .flowDescriptorChange _ extreme desc reg _ => if extreme then decide (reg.val < 2) else decide (desc.val < 32)
  | .operatingHoursStep => true
  | .keyAreaWriteDone .. => true
  | .ckvDataWrite .. => true
  | .ckvFold .. => true
  | .ckvInit .. => true
  | .ckvStart .. => true
  | .ckvAbort .. => true
  | .ckvScanComplete .. => true
  | .ckvScanFault _ _ code _ _ => decide (2 ≤ code.val) && decide (code.val ≤ 5)
  | .ckvValueWrite .. => true
  | .siphonHandoverTick => true
  | .siphonT3Late => true
  | .updateConfirmWindowExpired => true
  | .transferAbandoned => true
  | .programImageStart => true
  | .settingsImageStart => true
  | .snapshotStrobe .. => true
  | .snapshotRecordComplete => true
  | .heartbeatReceived .. => true
  | .culvertLinkChange .. => true
  | .rtcOscRestarted => true
  | .pauseQuantaExpired .. => true
  | .addressAgedOut .. => true

end Sys2Proof
end

