-- ==== Sys2Proof/Safety.lean ====
section
/-! DEFINITION. What counts as a safe state and a safe step. -/

namespace Sys2Proof.Safety
open Sys2Proof.Machine

/-- What every step keeps: the memories have their canonical form, the force table holds at most its 512 entries (R297), the event
queue at most its 1,024, the next entry gets a SEQ of 32 bits that is not 0 (R103), and the tick has a 32-bit number (R278). -/
structure Inv (s : State) : Prop where
  mem : Memory.wf s.mem = true
  forces : s.forces.length ≤ 512
  events : s.events.length ≤ 1024
  seq : 1 ≤ s.nextSeq ∧ s.nextSeq < 2 ^ 32
  tick : s.tickNo < 2 ^ 32

/-- The invariant, and `q` as the queue of waiting commands. -/
structure Keeps (q : List Instr) (s : State) : Prop extends Inv s where
  pending : s.pending = q

/-- A step that stops neither with a fault nor with a refusal. -/
def Goes (s : State) : Prop := ∃ t, step s = .next t

/-! ### The words of the statements -/

/-- `t` differs from `s` in the event queue and, beside `EVT_STATUS`, in registers of the list `ks` alone. -/
def OnlyRegs (ks : List Nat) (s t : State) : Prop :=
  (∀ k, k ∉ ks → k ≠ 0x40000 → t.rd k = s.rd k) ∧ t = { s with regs := t.regs, events := t.events, nextSeq := t.nextSeq }

/-- The queue holds an entry of source `src` in gallery `gal` with this data word that nobody has marked. -/
def Raised (src gal : Nat) (urgent : Bool) (data : Nat) (t : State) : Prop :=
  ∃ e ∈ t.events, e.source = src ∧ e.gallery = gal ∧ e.data = data ∧ (urgent = true → e.urgent = true) ∧
    e.ackOwner = false ∧ e.ackOp = false

/-- The state once session `x` has accepted request `r`. -/
def took (s : State) (r : Req) (x : Session) : State := s.setSession (x.accepted r.seq.toNat s.now)

/-- Request `r` reaches session `x`, lane `l` answers the session, and the SEQ is new (R76, R84, R86, R87, R89). -/
structure Heard (s : State) (r : Req) (opcode : Nat) (x : Session) (l : Lane) : Prop where
  ring : r.transport = .doorbell → s.dbHolds r opcode = true
  reached : s.reached r.transport = true
  session : s.session? r.session.toNat = some x
  lane : s.answering x.gallery = some l
  fresh : x.replayed r.seq.toNat = false
  replies : x.replies + 1 < seqMax

/-- Lane `l` serves request `r` of session `x` (R82–R99): the session is open, the lane answers it, the SEQ is new, and no limit, opcode,
LENGTH or mode refuses it. -/
structure Served (s : State) (r : Req) (opcode want : Nat) (x : Session) (l : Lane) : Prop extends Heard s r opcode x l where
  seq : r.seq.toNat < seqMax
  free : (took s r x).early (x.accepted r.seq.toNat s.now) r.tag.toNat opcode r.length.toNat want = none

/-- `u` with the reply to request `r` of session `x` sent. -/
def replied (u s : State) (r : Req) (x : Session) (l : Lane) (opcode : Nat) (res : Res) (body : List Byte) : State :=
  u.replyTo (x.accepted r.seq.toNat s.now) r.transport r.tag.toNat opcode l res body

/-- A write of `v` to the register at `a` reaches it (R15, R47, R447), and no reset command waits for its reply. -/
structure Writable (s : State) (l : Lane) (a v : Nat) : Prop where
  place : s.regJudge l a = .ok
  own : isAlias a = false
  allowed : s.regDeny l a v = none
  quiet : s.rd 0x11000 = 0

/-- Lane `l` makes the write of one word `v` to the register at `a` that request `r` of session `x` asks for. -/
structure Writes (s : State) (r : Req) (x : Session) (l : Lane) (a v : Nat) : Prop where
  served : Served s r 0x12 12 x l
  writable : Writable (took s r x) l a v

/-- The same for a command that sets the bits `v` of the register at `a` and leaves its other read-write bits as they are. -/
abbrev Sets (s : State) (r : Req) (x : Session) (l : Lane) (a v : Nat) : Prop := Writes s r x l a (s.cmdWord l a v)

end Sys2Proof.Safety
end

