-- ==== Sys2Proof/Certificates/Slice0/Obligations.lean ====
section
/-! DEFINITION. What is to be proved of the model. -/

open Sys2Proof Sys2Proof.Machine

/-- A step is exec of the command that has waited longest, on the state whose queue is the rest. With none waiting one REFCLK period passes: the
model's choice (log entry 1). -/
def Obligations.StepRunsFront : Prop :=
  (∀ (c : Instr) (q : List Instr) (s : State), step { s with pending := c :: q } = exec c { s with pending := q }) ∧
  (∀ s : State, s.pending = [] → ∃ t, step s = .next t ∧ t.now = s.now + 40 ∧ t.pending = [] ∧ t.mode = s.mode ∧ t.sessions = s.sessions)

/-- The invariant holds at reset, with an empty queue. -/
def Obligations.ResetInv : Prop := Safety.Inv State.reset ∧ State.reset.pending = []

/-- Every step keeps the canonical memory, the limits of the force table and the event queue, and the ranges of SEQ and of the tick. -/
def Obligations.StepKeepsInv : Prop := ∀ s t : State, Safety.Inv s → step s = .next t → Safety.Inv t

/-- From every state that meets the invariant every command has a next state, and leaves the queue as it is. -/
def Obligations.CommandsGo : Prop := ∀ (c : Instr) (s : State), Safety.Inv s → ∃ t, exec c s = .next t ∧ t.pending = s.pending

/-- The window of R87 never forgets: what has been accepted, or was used before, is a replay after any further accepted SEQs. -/
def Obligations.ReplayWindow : Prop :=
  ∀ (x : Session) (q p : Nat) (later : List Nat), (x.replayed p = true ∨ p = q) →
    (later.foldl (fun y n => y.mark n) (x.mark q)).replayed p = true

/-- What raising an event does to the queue, while there is room and when it is full (R103, R105). -/
def Obligations.EventQueue : Prop :=
  (∀ (s : State) (src gal : Nat) (u : Bool) (d : Nat), s.events.length < 1024 →
    let t := s.event src gal u d
    Safety.OnlyRegs [] s t ∧ t.nextSeq = (if s.nextSeq = 0xFFFFFFFF then 1 else s.nextSeq + 1) ∧
    (match s.events.find? (fun e => e.source == src && e.gallery == gal && !(e.ackOwner && e.ackOp)) with
    | some e => t.events = s.events.erase e ++
        [⟨s.nextSeq, gal, src, e.urgent || u, false, false, min (e.rep + 1) 255, d, s.uptime % 0x100000000⟩]
    | none => t.events = s.events ++ [⟨s.nextSeq, gal, src, u, false, false, 1, d, s.uptime % 0x100000000⟩])) ∧
  (∀ (s : State) (src gal : Nat) (u : Bool) (d : Nat), s.events.length = 1024 → src ≠ 508 →
    s.events.find? (fun e => e.source == src && e.gallery == gal && !(e.ackOwner && e.ackOp)) = none →
    let t := s.event src gal u d
    let e : EvEntry := ⟨s.nextSeq, gal, src, u, false, false, 1, d, s.uptime % 0x100000000⟩
    t.events.length ≤ 1024 ∧ e ∈ t.events ∧
    (∀ i, s.events.findIdx? (fun e => e.ackOwner && e.ackOp) = some i → t.events = s.events.eraseIdx i ++ [e] ∧ t.regs = s.regs) ∧
    (s.events.findIdx? (fun e => e.ackOwner && e.ackOp) = none → t.fget 0 EVT_STATUS_OVERRUN = 1 ∧ Safety.Raised 508 0 true 0 t))

/-- No place where the module reports MODE shows 110 or 111. -/
def Obligations.ModeReported : Prop :=
  ∀ (s : State) (l : Lane) (g : Nat) (r : Res), s.status l g r / 2 ^ 26 % 8 < 6 ∧ s.statusClear l r / 2 ^ 26 % 8 < 6 ∧
    s.liveStatus / 2 ^ 26 % 8 < 6 ∧ s.regShow l 0x10 / 2 ^ 26 % 8 < 6 ∧ s.regShow l 0x10000 / 2 ^ 26 % 8 < 6 ∧ s.mode.code < 6

/-- Visibility, full acknowledgement, the two marks, and ATTN (R104). -/
def Obligations.EventMarks : Prop :=
  (∀ (e : EvEntry) (g : Nat), e.visible g = true ↔ g = 0 ∨ e.gallery = g) ∧
  (∀ e : EvEntry, e.full = true ↔ e.ackOwner = true ∧ e.ackOp = true) ∧
  (∀ e : EvEntry, e.gallery = 0 → (e.ack 0).ackOwner = true ∧ (e.ack 0).ackOp = true) ∧
  (∀ e : EvEntry, e.gallery ≠ 0 → (e.ack 0).ackOp = true ∧ (e.ack 0).ackOwner = e.ackOwner) ∧
  (∀ (e : EvEntry) (g : Nat), g ≠ 0 → (e.ack g).ackOwner = true ∧ (e.ack g).ackOp = e.ackOp) ∧
  (∀ (s : State) (l : Lane) (r : Res), s.status l 0 r / 2 ^ 31 = 1 ↔ ∃ e ∈ s.events, e.ackOp = false) ∧
  (∀ (s : State) (l : Lane) (g : Nat) (r : Res), g ≠ 0 →
    (s.status l g r / 2 ^ 31 = 1 ↔ ∃ e ∈ s.events, e.gallery = g ∧ e.ackOwner = false))

/-- Serving a request: the operation's state with the one reply sent (R76, R78, R81, R84, R87, R88, R95, R118). -/
def Obligations.RequestServed : Prop :=
  ∀ (s u : State) (r : Req) (opcode want : Nat) (x : Session) (l : Lane) (run : State → Session → Lane → Answer) (res : Res) (body : List Byte),
    Safety.Served s r opcode want x l →
    run (Safety.took s r x) (x.accepted r.seq.toNat s.now) l = ⟨u, some (res, body)⟩ → u.sessions = (Safety.took s r x).sessions →
    let t := s.serve r opcode want run
    let b := beBytes 4 (u.status l x.gallery res) ++ body
    let wire := sealPacket x.kOut 0xC0 x.id (x.replies + 1) r.tag.toNat opcode b
    t = Safety.replied u s r x l opcode res body ∧
    t.sent = .reply r.transport true x.id (x.replies + 1) r.tag.toNat opcode b wire :: u.sent ∧
    t.dbReply = (if r.transport = .doorbell then some wire else u.dbReply) ∧
    t.regs = u.regs ∧ t.mem = u.mem ∧ t.events = u.events ∧ t.flights = u.flights ∧ t.mode = u.mode ∧
    (∃ y, t.session? x.id = some y ∧ y.replies = x.replies + 1 ∧ y.replayed r.seq.toNat = true ∧ y.last = s.now)

/-- Dropped and replayed requests (R86, R87). -/
def Obligations.RequestDropped : Prop :=
  ∀ (s : State) (r : Req) (opcode want : Nat) (run : State → Session → Lane → Answer),
    (r.transport = .doorbell → s.dbHolds r opcode = true) → s.reached r.transport = true → s.pwr.refclkLost = false →
    (s.session? r.session.toNat = none →
      let t := s.serve r opcode want run
      t.sent = s.sent ∧ t.sessions = s.sessions ∧ t.mem = s.mem ∧ t.events = s.events ∧
      t.fget 0 EVT_PLIAK_AUTHFAIL = min (s.fget 0 EVT_PLIAK_AUTHFAIL + 1) 0xFFFFFFFF) ∧
    (∀ (x : Session) (l : Lane), s.session? r.session.toNat = some x → s.answering x.gallery = some l → x.replayed r.seq.toNat = true →
      x.replies + 1 < seqMax →
      let t := s.serve r opcode want run
      (∃ st wire, t.sent = .reply r.transport true x.id (x.replies + 1) r.tag.toNat opcode (beBytes 4 st) wire :: s.sent ∧
        st % 2 ^ 20 = 0x1A) ∧
      t.mem = s.mem ∧ t.events = s.events ∧ t.fget 0 EVT_PLIAK_REPLAY = min (s.fget 0 EVT_PLIAK_REPLAY + 1) 0xFFFFFFFF)

/-- The refusals of R84, R92, R97 and R99, in the order of log entry 7. -/
def Obligations.RequestRefused : Prop :=
  (∀ (s : State) (x : Session) (tag opcode len want : Nat),
    let mine := (s.flights.filter (fun f => f.session == x.id)).length
    let used := s.flights.any (fun f => f.session == x.id && f.tag == tag)
    ((256 ≤ mine ∨ 2048 ≤ s.flights.length) → s.early x tag opcode len want = some .busy) ∧
    (mine < 256 → s.flights.length < 2048 →
      (used = true → s.early x tag opcode len want = some .tagInUse) ∧
      (used = false → opcode ∉ opcodes → s.early x tag opcode len want = some .badOpcode) ∧
      (used = false → opcode ∈ opcodes → gallery0Only opcode = true → x.gallery ≠ 0 → s.early x tag opcode len want = some .denied) ∧
      (used = false → opcode ∈ opcodes → (gallery0Only opcode = true → x.gallery = 0) →
        ((x.closing = true ∨ (x.established = false ∧ opcode ≠ 2)) → s.early x tag opcode len want = some .state) ∧
        (x.closing = false → (x.established = true ∨ opcode = 2) →
          (len ≠ want → s.early x tag opcode len want = some .badLength) ∧
          (len = want → s.early x tag opcode len want = if s.modeRefuses x.gallery opcode then some .state else none))))) ∧
  (∀ (s : State) (r : Req) (opcode want : Nat) (x : Session) (l : Lane) (run : State → Session → Lane → Answer) (e : Res),
    Safety.Heard s r opcode x l → r.seq.toNat < seqMax →
    (Safety.took s r x).early (x.accepted r.seq.toNat s.now) r.tag.toNat opcode r.length.toNat want = some e →
    s.serve r opcode want run = Safety.replied (Safety.took s r x) s r x l opcode e [])

/-- The three outcomes of ABORT (R94). -/
def Obligations.AbortRules : Prop :=
  ∀ (s : State) (r : Req) (target : BitVec 16) (x : Session) (l : Lane), Safety.Served s r 5 4 x l → x.replies + 2 < seqMax →
    ∃ t, exec (.abort r target) s = .next t ∧
    (match s.flights.find? (fun f => f.session == x.id && f.tag == target.toNat) with
    | none => t.flights = s.flights ∧ t.keyQ = s.keyQ ∧
        t = Safety.replied (Safety.took s r x) s r x l 5 .noSuchObject []
    | some f =>
      (f.started = true → t.flights = s.flights ∧ t.keyQ = s.keyQ ∧ t = Safety.replied (Safety.took s r x) s r x l 5 .state []) ∧
      (f.started = false → t.flights = s.flights.erase f ∧
        t.keyQ = s.keyQ.filter (fun k => !(k.session == x.id && k.tag == target.toNat)) ∧
        ∃ st st' w w', t.sent = .reply r.transport true x.id (x.replies + 2) r.tag.toNat 5 (beBytes 4 st) w ::
            .reply f.transport true x.id (x.replies + 1) target.toNat f.opcode (beBytes 4 st') w' :: s.sent ∧
          st % 2 ^ 20 = 0 ∧ st' % 2 ^ 20 = 0x20))

/-- Sessions open, time out and packets are dropped (R79, R81–R84, R86). -/
def Obligations.SessionsRun : Prop :=
  (∀ (s : State) (tr : Transport) (dg d : List Byte), s.pwr.refclkLost = false → s.reached tr = true → s.arrived tr dg = some d →
    packetMalformed d = true →
    ∃ t, exec (.pliakDatagramDropped tr dg) s = .next t ∧
      t.fget 0 EVT_PLIAK_DROP = min (s.fget 0 EVT_PLIAK_DROP + 1) 0xFFFFFFFF ∧
      (tr = .doorbell → t.fget 0 CAB_STATUS_DB_STATE = 0) ∧ (tr ≠ .doorbell → Safety.OnlyRegs [EVT_PLIAK_DROP.off] s t) ∧
      Safety.OnlyRegs [EVT_PLIAK_DROP.off, CAB_STATUS_DB_STATE.off] s t) ∧
  (∀ (s : State) (tr : Transport) (dg d : List Byte), s.pwr.refclkLost = false → s.reached tr = true → s.arrived tr dg = some d →
    packetMalformed d = false → packetSecure d = true → s.authentic d = false →
    ∃ t, exec (.pliakAuthFail tr dg) s = .next t ∧
      t.fget 0 EVT_PLIAK_AUTHFAIL = min (s.fget 0 EVT_PLIAK_AUTHFAIL + 1) 0xFFFFFFFF ∧
      (tr = .doorbell → t.fget 0 CAB_STATUS_DB_STATE = 0) ∧
      (∃ w ∈ t.rates, w.source = 504 ∧ 1 ≤ w.count) ∧ t.sent = s.sent ∧ t.sessions = s.sessions ∧ t.mem = s.mem) ∧
  (∀ (s : State) (l : Lane) (g : BitVec 8) (nonceS : BitVec 128) (tag : BitVec 16) (tr : Transport) (vid : Option (BitVec 12)),
    s.reached tr = true → (tr = .doorbell → s.dbOpen g nonceS tag 20 = true) →
    s.answering g.toNat = some l → s.openRefused g.toNat tr vid = none →
    ∃ t x nm st w, exec (.sessionOpen g nonceS tag 20 tr vid) s = .next t ∧ t.sessions = s.sessions ++ [x] ∧ x.gallery = g.toNat ∧
      x.established = false ∧ x.closing = false ∧ x.replies = 0 ∧ x.h = 0 ∧ nm.length = 16 ∧
      (x.kIn, x.kOut) = sessionKeys (s.slotKey (64 + g.toNat)) (beBytes 16 nonceS.toNat) nm x.id g.toNat ∧
      t.usedIds = x.id :: s.usedIds ∧ t.regs = s.regs ∧ t.mem = s.mem ∧ st % 2 ^ 20 = 0 ∧
      t.sent = .reply tr false x.id 0 tag.toNat 1 (beBytes 4 st ++ beBytes 4 x.id ++ nm ++ gcmTag x.kOut (packetNonce x.id 0)
        (packetHeader 0x80 x.id 0 tag.toNat 1 40 ++ beBytes 4 st ++ beBytes 4 x.id ++ nm) []) w :: s.sent) ∧
  (∀ (s : State) (l : Lane) (g : BitVec 8) (nonceS : BitVec 128) (tag len : BitVec 16) (tr : Transport) (vid : Option (BitVec 12)),
    s.reached tr = true → (tr = .doorbell → s.dbOpen g nonceS tag len = true) →
    s.answering (if g.toNat > 63 then 0 else g.toNat) = some l →
    (len ≠ 20 → ∃ t st w, exec (.sessionOpen g nonceS tag len tr vid) s = .next t ∧ t.sessions = s.sessions ∧
      t.sent = .reply tr false 0 0 tag.toNat 1 (beBytes 4 st) w :: s.sent ∧ st % 2 ^ 20 = 0x14) ∧
    (∀ res, len = 20 → s.openRefused g.toNat tr vid = some res →
      ∃ t st w, exec (.sessionOpen g nonceS tag len tr vid) s = .next t ∧ t.sessions = s.sessions ∧
        t.sent = .reply tr false 0 0 tag.toNat 1
          (beBytes 4 st ++ if res = .busy ∧ 64 ≤ s.sessions.length then [] else List.replicate 36 0) w :: s.sent ∧
        st % 2 ^ 20 = res.code)) ∧
  (∀ (s : State) (i : BitVec 32) (x : Session), s.pwr.refclkLost = false → s.session? i.toNat = some x → x.established = false →
    ∃ t, exec (.sessionOpenTimeout i) s = .next t ∧ t.sessions = s.sessions.filter (fun y => y.id != x.id) ∧ t.regs = s.regs ∧ t.mem = s.mem) ∧
  (∀ (s : State) (i : BitVec 32) (x : Session), s.pwr.refclkLost = false → s.session? i.toNat = some x → x.established = true →
    ∃ t, exec (.sessionIdleTimeout i) s = .next t ∧ t.sessions = s.sessions.filter (fun y => y.id != x.id) ∧ t.regs = s.regs ∧ t.mem = s.mem) ∧
  (∀ (used : List Nat) (c : Nat), used.length < 0xFFFFFFFE → 1 ≤ c → c ≤ 0xFFFFFFFE →
    pickId used (used.length + 1) c ∉ used ∧ 1 ≤ pickId used (used.length + 1) c ∧ pickId used (used.length + 1) c ≤ 0xFFFFFFFE)

/-- Operations on the session and on the module's identity (R84, R85, R97, R112). -/
def Obligations.SessionOperations : Prop :=
  (∀ (s : State) (r : Req) (idle : BitVec 16) (x : Session) (l : Lane), Safety.Served s r 2 4 x l → x.established = false →
    (idle = 0 ∨ (10 ≤ idle.toNat ∧ idle.toNat ≤ 3600) →
      ∃ t y, exec (.sessionConfirm r idle) s = .next t ∧ t.session? x.id = some y ∧ y.established = true ∧
        y.idle = (if idle = 0 then 60 else idle.toNat) ∧ y.replies = x.replies + 1 ∧ t.regs = s.regs ∧ t.mem = s.mem) ∧
    (idle ≠ 0 → idle.toNat < 10 ∨ 3600 < idle.toNat →
      exec (.sessionConfirm r idle) s = .next (Safety.replied (Safety.took s r x) s r x l 2 .range []))) ∧
  (∀ (s : State) (r : Req) (x : Session) (l : Lane), Safety.Served s r 3 0 x l →
    (s.flights.all (fun f => f.session != x.id) = true →
      ∃ t st w, exec (.sessionClose r) s = .next t ∧ t.sessions = s.sessions.filter (fun y => y.id != x.id) ∧
        t.sent = .reply r.transport true x.id (x.replies + 1) r.tag.toNat 3 (beBytes 4 st) w :: s.sent ∧ st % 2 ^ 20 = 0 ∧
        t.regs = s.regs ∧ t.mem = s.mem) ∧
    (∀ f ∈ s.flights, f.session = x.id → f.opcode ≠ 3 →
      ∃ t y, exec (.sessionClose r) s = .next t ∧ t.session? x.id = some y ∧ y.closing = true ∧ t.sent = s.sent ∧ t.regs = s.regs ∧
        t.mem = s.mem)) ∧
  (∀ (s : State) (r : Req) (x : Session) (l : Lane), Safety.Served s r 4 0 x l →
    exec (.nop r 4) s = .next (Safety.replied (Safety.took s r x) s r x l 4 .ok (beBytes 4 s.tickNo))) ∧
  (∀ (s : State) (r : Req) (op : BitVec 16) (x : Session) (l : Lane), Safety.Heard s r op.toNat x l → r.seq.toNat < seqMax →
    op.toNat ∉ opcodes → (s.flights.filter (fun f => f.session == x.id)).length < 256 → s.flights.length < 2048 →
    s.flights.all (fun f => !(f.session == x.id && f.tag == r.tag.toNat)) = true →
    exec (.nop r op) s = .next (Safety.replied (Safety.took s r x) s r x l op.toNat .badOpcode [])) ∧
  (∀ (s : State) (r : Req) (x : Session) (l : Lane), Safety.Heard s r 4 x l → r.seq.toNat = seqMax →
    (Safety.took s r x).early (x.accepted r.seq.toNat s.now) r.tag.toNat 4 r.length.toNat 0 = none →
    ∃ t, exec (.nop r 4) s = .next t ∧ t.session? x.id = none ∧ t.sent = (Safety.replied (Safety.took s r x) s r x l 4 .ok (beBytes 4 s.tickNo)).sent) ∧
  (∀ (s : State) (r : Req) (x : Session) (l : Lane), Safety.Served s r 0x10 0 x l →
    exec (.identify r) s = .next (Safety.replied (Safety.took s r x) s r x l 0x10 .ok
      (beBytes 4 (s.rd 0).toNat ++ beBytes 4 (s.rd 4).toNat ++ beBytes 4 (s.rd 8).toNat ++ beBytes 4 (s.rd 0xC).toNat ++
        beBytes 4 (s.rd 0x20).toNat ++ beBytes 4 ((s.rd 0x24).toNat % 0x10000)))) ∧
  (∀ (s : State) (i : BitVec 32) (tag : BitVec 16) (f : Flight) (x : Session) (l : Lane),
    s.flights.find? (fun f => f.session == i.toNat && f.tag == tag.toNat) = some f → s.session? i.toNat = some x →
    s.answering x.gallery = some l → x.closing = false → x.replies + 1 < seqMax →
    ∃ t st w, exec (.operationTimeout i tag) s = .next t ∧ t.flights = s.flights.erase f ∧
      t.sent = .reply f.transport true x.id (x.replies + 1) tag.toNat f.opcode (beBytes 4 st) w :: s.sent ∧ st % 2 ^ 20 = 0x1D ∧ t.regs = s.regs)

/-- Reading and acknowledging events; the end of a window (R104, R106, R107, R549). -/
def Obligations.EventOperations : Prop :=
  (∀ (s : State) (r : Req) (start : BitVec 32) (max opt : BitVec 8) (x : Session) (l : Lane), Safety.Served s r 0x30 8 x l →
    (1 ≤ max.toNat → max.toNat ≤ 64 →
      let got := (s.events.filter (fun e => e.visible x.gallery && seqAtOrAfter e.seq start.toNat &&
        (!opt.getLsbD 0 || e.unmarked x.gallery))).take max.toNat
      ∃ next gap, exec (.eventRead r start max opt) s = .next (Safety.replied (Safety.took s r x) s r x l 0x30 .ok
        (beBytes 4 next ++ beBytes 1 got.length ++ beBytes 1 gap ++ [0, 0] ++ (got.map EvEntry.bytes).flatten))) ∧
    (max.toNat = 0 ∨ 64 < max.toNat →
      exec (.eventRead r start max opt) s = .next (Safety.replied (Safety.took s r x) s r x l 0x30 .range []))) ∧
  (∀ (s : State) (r : Req) (seqs : List (BitVec 32)) (x : Session) (l : Lane), Safety.Served s r 0x31 (4 + 4 * seqs.length) x l →
    1 ≤ seqs.length → seqs.length ≤ 64 →
    ∃ t, exec (.eventAck r (BitVec.ofNat 8 seqs.length) seqs) s = .next t ∧ t.regs = s.regs ∧ t.mem = s.mem ∧
      t.events = s.events.map (fun e => if seqs.any (fun q => q.toNat == e.seq) && (x.gallery == 0 || e.gallery == x.gallery) then
        (if x.gallery = 0 then { e with ackOp := true, ackOwner := e.ackOwner || e.gallery == 0 } else { e with ackOwner := true }) else e)) ∧
  (∀ (s : State) (r : Req) (count : BitVec 8) (seqs : List (BitVec 32)) (x : Session) (l : Lane),
    Safety.Served s r 0x31 r.length.toNat x l → count.toNat = 0 ∨ 64 < count.toNat →
    exec (.eventAck r count seqs) s = .next (Safety.replied (Safety.took s r x) s r x l 0x31 .range [])) ∧
  (∀ (s : State) (source : Fin 640) (obj : Nat) (w : RateWin), s.pwr.refclkLost = false →
    s.rates.find? (fun w => w.source == source.val && w.obj == obj) = some w → source.val ≠ 508 →
    ∃ t, exec (.rateLimitWindowEnd source obj) s = .next t ∧ (w.counts = true → Safety.Raised source.val w.gallery w.urgent w.word t) ∧
      (w.counts = false → t.events = s.events) ∧
      t.rates.all (fun v => !(v.source == source.val && v.obj == obj)) = true ∧ t.sessions = s.sessions ∧ t.mem = s.mem)

/-- Unimplemented registers, and blocks in reset (R15). -/
def Obligations.RegisterAbsent : Prop :=
  ∀ (s : State) (r : Req) (addr w : BitVec 32) (x : Session) (l : Lane), addr.toNat % 4 = 0 →
    isFlowWin addr.toNat = false → isRetWin addr.toNat = false → isCellWin addr.toNat = false → s.rd 0x11000 = 0 →
    let absent := regRow? (if isAlias addr.toNat then addr.toNat - 0x200000 else addr.toNat) = none
    let blocked := if isAlias addr.toNat then s.inReset l.other.dom.bit = true else s.regBlocked addr.toNat = true
    let res := if absent then Res.noSuchObject else .blockInReset
    (absent ∨ blocked) → cisTouched addr.toNat 1 = false →
    (Safety.Served s r 0x12 (lenRegWrite 1) x l →
      exec (.regWrite r addr 1 [w]) s = .next (Safety.replied (Safety.took s r x) s r x l 0x12 res [])) ∧
    (Safety.Served s r 0x11 8 x l →
      exec (.regRead r addr 1) s = .next (Safety.replied (Safety.took s r x) s r x l 0x11 res [0, 0, 0, 0]))

/-- The access codes RW, W1C, W1S and RO (R12, R13). -/
def Obligations.AccessCodes : Prop :=
  ∀ (a old v i : Nat) (row : RegRow), regRow? a = some row → i < 32 →
    let rw := (rwMask a row).testBit i
    let c := row.w1c.testBit i
    let st := row.w1s.testBit i
    (rw = true → c = false ∧ st = false) ∧ (c = true → st = false) ∧
    (rw = true → (regNext a old v).testBit i = v.testBit i) ∧
    (c = true → (regNext a old v).testBit i = (old.testBit i && !v.testBit i)) ∧
    (st = true → (regNext a old v).testBit i = (old.testBit i || v.testBit i)) ∧
    (rw = false → c = false → st = false → (regNext a old v).testBit i = old.testBit i)

/-- Reading and writing registers (R12, R17, R39, R98). -/
def Obligations.RegisterOperations : Prop :=
  (∀ (s : State) (r : Req) (addr : BitVec 32) (count : BitVec 16) (x : Session) (l : Lane), Safety.Served s r 0x11 8 x l →
    (addr.toNat % 4 = 0 → 1 ≤ count.toNat → count.toNat ≤ 256 →
      ∃ u res body, exec (.regRead r addr count) s = .next (Safety.replied u s r x l 0x11 res body) ∧ body.length = 4 * count.toNat ∧
        u.regs = s.regs ∧ u.mem = s.mem ∧ u.sessions = (Safety.took s r x).sessions) ∧
    (addr.toNat % 4 ≠ 0 → 1 ≤ count.toNat → count.toNat ≤ 256 →
      exec (.regRead r addr count) s = .next (Safety.replied (Safety.took s r x) s r x l 0x11 .range (List.replicate (4 * count.toNat) 0))) ∧
    (count.toNat = 0 ∨ 256 < count.toNat →
      exec (.regRead r addr count) s = .next (Safety.replied (Safety.took s r x) s r x l 0x11 .range [])) ∧
    (addr.toNat % 4 = 0 → s.regJudge l addr.toNat = .ok → s.regOpen (regPlace l addr.toNat).1 (regPlace l addr.toNat).2 = false →
      ∃ u, exec (.regRead r addr 1) s = .next (Safety.replied u s r x l 0x11 .ok
        (leBytes 4 ((Safety.took s r x).regShow (regPlace l addr.toNat).1 (regPlace l addr.toNat).2))) ∧ u.regs = s.regs ∧ u.mem = s.mem)) ∧
  (∀ (s : State) (r : Req) (addr w : BitVec 32) (x : Session) (l : Lane), Safety.Served s r 0x12 (lenRegWrite 1) x l → s.rd 0x11000 = 0 →
    let u := Safety.took s r x
    (addr.toNat % 4 ≠ 0 → exec (.regWrite r addr 1 [w]) s = .next (Safety.replied u s r x l 0x12 .range [])) ∧
    (addr.toNat % 4 = 0 → isFlowWin addr.toNat = false → isRetWin addr.toNat = false → isCellWin addr.toNat = false →
      cisTouched addr.toNat 1 = false → u.regJudge l addr.toNat = .ok →
      (isAlias addr.toNat = true → exec (.regWrite r addr 1 [w]) s = .next (Safety.replied u s r x l 0x12 .range [])) ∧
      (∀ e, isAlias addr.toNat = false → u.regDeny l addr.toNat w.toNat = some e →
        exec (.regWrite r addr 1 [w]) s = .next (Safety.replied u s r x l 0x12 e [])) ∧
      (isAlias addr.toNat = false → u.regDeny l addr.toNat w.toNat = none → regKey l addr.toNat ≠ 0x11000 →
        u.regDo l addr.toNat w.toNat = (u.regSet l addr.toNat w.toNat, .ok) →
        exec (.regWrite r addr 1 [w]) s = .next (Safety.replied (u.regSet l addr.toNat w.toNat) s r x l 0x12 .ok [])))) ∧
  (∀ (s : State) (r : Req) (addr value mask : BitVec 32) (x : Session) (l : Lane), Safety.Served s r 0x13 12 x l → s.rd 0x11000 = 0 →
    (addr.toNat % 4 ≠ 0 → exec (.regModify r addr mask value) s =
      .next (Safety.replied (Safety.took s r x) s r x l 0x13 .range [])) ∧
    (addr.toNat % 4 = 0 → isFlowWin addr.toNat = false → isRetWin addr.toNat = false → isCellWin addr.toNat = false →
      cisTouched addr.toNat 1 = false →
      let u := (Safety.took s r x).regRead l addr.toNat
      let old := (Safety.took s r x).regShow l addr.toNat
      let new := ((BitVec.ofNat 32 old &&& ~~~mask) ||| (value &&& mask)).toNat
      Safety.Writable u l addr.toNat new → (Safety.took s r x).regOpen l addr.toNat = false → regKey l addr.toNat ≠ 0x11000 →
      u.regDo l addr.toNat new = (u.regSet l addr.toNat new, .ok) →
      exec (.regModify r addr mask value) s = .next (Safety.replied (u.regSet l addr.toNat new) s r x l 0x13 .ok (leBytes 4 old)))) ∧
  (∀ (s : State) (r : Req) (x : Session) (l : Lane), Safety.Served s r 0x11 8 x l →
    ∃ u, exec (.rlRegisterRead r 0x18) s = .next (Safety.replied u s r x l 0x11 .ok (leBytes 4 (s.uptime % 2 ^ 32))) ∧
      nat0 u.rl 0x1C = s.uptime / 2 ^ 32 % 2 ^ 32 ∧ u.regs = s.regs ∧ u.mem = s.mem)

/-- The instants of a power-on, and the loss of power (R33–R36, R201). -/
def Obligations.PowerSequence : Prop :=
  (∀ s : State, s.pwr.mainPower = false →
    ∃ t, exec .mainPowerValidAsserted s = .next t ∧ t.pwr.mainPower = true ∧ (s.pwr.aonOut = false → t.pwr.t0 = s.now) ∧
      t.pwr.aonOut = s.pwr.aonOut ∧ t.rtc.onCell = false ∧ t.fget 0 RTC_LAST_RETURN = t.rtc.secs % 2 ^ 32 ∧
      (s.rtc.lost = false → t.rtc.secs = s.rtc.secs ∧ (∀ k, k ≠ RTC_LAST_RETURN.off → t.rd k = s.rd k)) ∧
      (s.rtc.lost = true → t.rtc.secs = 0 ∧ t.fbit 0 RTC_STATUS_OSF = true) ∧ t.mem = s.mem ∧ t.events = s.events ∧ t.mode = s.mode) ∧
  (∀ (s : State) (slot : BitVec 8), s.pwr.mainPower = true → s.pwr.aonOut = false →
    ∃ t, exec (.refclkStable slot) s = .next t ∧ t.pwr.aonOut = true ∧ t.pwr.step = 0 ∧ t.pwr.t1 = s.now ∧ t.aon = 0 ∧
      t.fget 0 SYS_SLOT_SLOT_ID = slot.toNat ∧ t.fget 0 FLOW_CYCLES = (s.fget 0 FLOW_CYCLES + 1) % 2 ^ 32 ∧
      t.fget (laneKey .a 0) LUM_EPOCH = t.fget (laneKey .b 0) LUM_EPOCH ∧ t.fget (laneKey .a 0) LUM_EPOCH ≠ 0 ∧ t.mem = s.mem ∧
      t.events = s.events ∧
      (∀ k, k ∉ [0x20, FLOW_CYCLES.off, laneKey .a LUM_EPOCH.off, laneKey .b LUM_EPOCH.off] → t.rd k = s.rd k)) ∧
  (∀ s : State, s.pwr.aonOut = true → s.pwr.compared = false →
    (∃ t, exec (.headgateStartCompareDone true) s = .next t ∧ t.pwr.compared = true ∧ t.pwr.agreed = true ∧ t.inReset 1 = false ∧
      (∀ d, d ≠ 1 → t.inReset d = s.inReset d) ∧ t.mem = s.mem ∧ t.mode = s.mode) ∧
    (∃ t, exec (.headgateStartCompareDone false) s = .next t ∧ t.pwr.compared = true ∧ t.pwr.agreed = false ∧ t.mode = .hold ∧
      t.hg.holdCause = 1 ∧ t.hg.hg = .holdWait ∧ ∃ e ∈ t.events, e.source = 6 ∧ e.gallery = 0 ∧ e.urgent = true ∧ e.data / 0x1000000 = 1)) ∧
  (∀ s : State, s.pwr.aonOut = true → s.pwr.refclkLost = false →
    ∃ t, exec .pllLocked s = .next t ∧ t.fbit 0 CLK_STATUS_PLL_LOCK = true ∧ t.pwr.fails = 0 ∧ t.events = s.events ∧ t.mem = s.mem ∧
      (∀ k, k ≠ 0x18000 → t.rd k = s.rd k)) ∧
  (∀ (s : State) (reads : PowerReads), s.pwr.aonOut = true → s.pwr.agreed = true → s.pwr.refclkLost = false →
    s.fbit 0 CLK_STATUS_PLL_LOCK = true →
    (∀ d, releaseOrder s.pwr.step = some d →
      ∃ t, exec (.domainReleaseStep reads) s = .next t ∧ t.pwr.step = s.pwr.step + 1 ∧ t.inReset d.bit = false ∧
        (∀ i, i ≠ d.bit → t.inReset i = s.inReset i) ∧ (t.dom d).phase = .idle ∧ t.events = s.events ∧ t.mem = s.mem) ∧
    (s.pwr.step = 4 → s.mode ≠ .safe → s.mode ≠ .hold →
      ∃ t, exec (.domainReleaseStep reads) s = .next t ∧ t.pwr.step = 5 ∧ t.mode = s.mode ∧
        (∀ l, s.lstate l = .reset → t.lstate l = .starting ∧ t.inReset l.dom.bit = false) ∧
        (∀ l, s.lstate l ≠ .reset → t.lstate l = s.lstate l) ∧
        (s.pwr.cause = .relock → ∃ e ∈ t.events, e.source = 1 ∧ e.gallery = 0 ∧ e.urgent = true ∧ e.data = s.fget 0 CLK_UNLOCK_CNT_COUNT) ∧
        (s.pwr.refclkDue = true → ∃ e ∈ t.events, e.source = 2 ∧ e.gallery = 0 ∧ e.urgent = true))) ∧
  (∀ (s : State) (torn : List FlashPage),
    let gone : State → Prop := fun t => t.pwr = State.reset.pwr ∧ t.mode = .boot ∧ t.sessions = [] ∧ t.events = [] ∧
      t.forces = [] ∧ t.rtc.onCell = true ∧ t.pending = s.pending ∧ (∀ k, retKey ≤ k → t.mget k = s.mget k) ∧
      (∀ k, keptReg k = false → k ∉ [0x11018, 0x90180, 0x9018C, 0x90190, 0xA0004, 0xA0020, 0x24004] → t.rd k = regReset k)
    (s.pwr.mainPower = true → s.pwr.step ≠ 5 → ∃ t, exec .mainPowerLostBeforeT8 s = .next t ∧ gone t) ∧
    (∃ t, exec (.holdupLost torn) s = .next t ∧ gone t ∧ t.upd.torn = s.upd.torn ++ torn))

/-- Loss of lock and of REFCLK (R28–R31). -/
def Obligations.ClockMonitors : Prop :=
  (∀ s : State, s.pwr.aonOut = true → s.pwr.refclkLost = false → s.fbit 0 CLK_STATUS_PLL_LOCK = true →
    ((s.pwr.losses.filter (fun t => s.now < t + 60000000000)).length < 2 →
      ∃ t, exec .pllLossOfLock s = .next t ∧ t.fbit 0 CLK_STATUS_PLL_LOCK = false ∧ t.fbit 0 CLK_STATUS_UNLOCK_SEEN = true ∧
        t.fget 0 CLK_UNLOCK_CNT_COUNT = min (s.fget 0 CLK_UNLOCK_CNT_COUNT + 1) (2 ^ CLK_UNLOCK_CNT_COUNT.width - 1) ∧
        (∀ d, 2 ≤ d → d ≤ 5 → t.inReset d = true) ∧ (∀ l, s.lstate l ≠ .failed → s.lstate l ≠ .retired → t.lstate l = .reset) ∧
        t.sessions = [] ∧ t.pwr.step = 0 ∧ t.pwr.fails = 0 ∧ s.now ∈ t.pwr.losses ∧ t.mode = s.mode) ∧
    (2 ≤ (s.pwr.losses.filter (fun t => s.now < t + 60000000000)).length → s.mode ≠ .safe →
      ∃ t, exec .pllLossOfLock s = .next t ∧ t.mode = .safe ∧ t.fget 0 HG_SAFE_CAUSE = 3)) ∧
  (∀ s : State, s.pwr.aonOut = true → s.pwr.refclkLost = false → s.fbit 0 CLK_STATUS_PLL_LOCK = false →
    (s.pwr.fails < 2 → exec .pllLockAttemptTimeout s = .next { s with pwr := { s.pwr with fails := s.pwr.fails + 1 } }) ∧
    (2 ≤ s.pwr.fails → s.mode ≠ .safe →
      ∃ t, exec .pllLockAttemptTimeout s = .next t ∧ t.mode = .safe ∧ t.fget 0 HG_SAFE_CAUSE = 3 ∧ t.pwr.fails = s.pwr.fails + 1)) ∧
  (∀ s : State, s.pwr.aonOut = true → s.pwr.refclkLost = false →
    ∃ t, exec .refclkLost s = .next t ∧ t.pwr.refclkLost = true ∧ t.pwr.lostFor = 0 ∧ t.pwr.refclkDue = true ∧ t.pwr.step = 0 ∧
      t.fbit 0 CLK_STATUS_PLL_LOCK = false ∧ (∀ d, 2 ≤ d → d ≤ 5 → t.inReset d = true) ∧
      (∀ l, s.lstate l ≠ .failed → s.lstate l ≠ .retired → t.lstate l = .reset) ∧ t.sessions = [] ∧ t.mode = s.mode) ∧
  (∀ s : State, s.pwr.refclkLost = true →
    ∃ t, exec .refclkReturned s = .next t ∧ t.pwr.refclkLost = false ∧ t.pwr.fails = 0 ∧ t.fbit 0 CLK_STATUS_REFCLK_LOST_SEEN = true ∧
      t.fget 0 CLK_REFLOST_TIME = min ((s.pwr.lostFor + 20075) * 32768 / 1000000000) 0xFFFFFFFF ∧ t.events = s.events ∧ t.mem = s.mem ∧
      (∀ k, k ≠ 0x18000 → k ≠ 0x1800C → t.rd k = s.rd k))

/-- The input switches, the buses, the fans and the derating (R46, R47, R51, R70, R71). -/
def Obligations.PowerEntry : Prop :=
  (∀ s : State, s.pwr.refclkLost = false →
    ∃ t, exec .mateNLowFiltered s = .next t ∧ t.fbit 0 ALLOC_ENTRY_STATUS_MATED = true ∧ Safety.OnlyRegs [0x90000] s t) ∧
  (∀ (s : State) (bus : Bus) (mv : BitVec 16), s.pwr.refclkLost = false → s.busClosed bus = true →
    ∃ u, exec (.busPresent bus mv) s = .next u.ceiling ∧ u.fget 0 (busVoltF bus) = mv.toNat ∧ u.fget 0 (busPresentF bus) = 1 ∧
      Safety.OnlyRegs [0x90000, (busVoltF bus).off] s u) ∧
  (∀ (s : State) (bus : Bus) (mv : BitVec 16), s.busPresent bus = true →
    ∃ u, exec (.busLost bus mv) s = .next u.ceiling ∧ u.fget 0 (busPresentF bus) = 0 ∧ u.fget 0 (busLostSeenF bus) = 1 ∧
      u.fget 0 (busVoltF bus) = mv.toNat ∧ Safety.Raised (32 + busNum bus) 0 true mv.toNat u ∧
      Safety.OnlyRegs [0x90000, (busVoltF bus).off] s u) ∧
  (∀ (s : State) (bus : Bus) (mv : BitVec 16),
    ∃ u, exec (.busOvervoltage bus mv) s = .next u.ceiling ∧ u.fget 0 (busPresentF bus) = 0 ∧ u.fget 0 (busOvF bus) = 1 ∧
      u.fget 0 (busOvSeenF bus) = 1 ∧ u.fget 0 (busVoltF bus) = mv.toNat ∧ Safety.Raised (34 + busNum bus) 0 true mv.toNat u ∧
      Safety.OnlyRegs [0x90000, (busVoltF bus).off] s u) ∧
  (∀ (s : State) (bus : Bus), s.pwr.refclkLost = false →
    ∃ t, exec (.busOvervoltageCleared bus) s = .next t ∧ t.fget 0 (busOvF bus) = 0 ∧ t.fget 0 (busPresentF bus) = s.fget 0 (busPresentF bus) ∧
      Safety.OnlyRegs [0x90000] s t) ∧
  (∀ (s : State) (bus : Bus),
    ∃ u, exec (.busReversed bus) s = .next u.ceiling ∧ u.fget 0 (busPresentF bus) = 0 ∧ u.fget 0 (busRevF bus) = 1 ∧
      Safety.Raised (36 + busNum bus) 0 true 0 u ∧ Safety.OnlyRegs [0x90000] s u) ∧
  (∀ (s : State) (bus : Bus), s.pwr.refclkLost = false →
    ∃ t, exec (.busReversalCleared bus) s = .next t ∧ t.fget 0 (busRevF bus) = 0 ∧ t.fget 0 (busPresentF bus) = s.fget 0 (busPresentF bus) ∧
      Safety.OnlyRegs [0x90000] s t) ∧
  (∀ (s : State) (fan : Fin 4), s.pwr.refclkLost = false → (s.fget 0 ALLOC_FAN_STATUS_FAN_OK).testBit fan.val = true →
    ∃ t, exec (.fanFail fan) s = .next t ∧ t.fget 0 ALLOC_FAN_STATUS_FAN_OK = s.fget 0 ALLOC_FAN_STATUS_FAN_OK - 2 ^ fan.val ∧
      Safety.Raised 39 0 true (s.fget 0 ALLOC_FAN_STATUS_FAN_OK - 2 ^ fan.val) t ∧ Safety.OnlyRegs [ALLOC_FAN_STATUS_FAN_OK.off] s t) ∧
  (∀ (s : State) (inlet : BitVec 16), s.pwr.refclkLost = false →
    let n := deratePercent (toSigned 16 inlet.toNat) ((List.range 4).filter (fun i => !(s.fget 0 ALLOC_FAN_STATUS_FAN_OK).testBit i)).length
    let fire := n < s.fget 0 ALLOC_THERM_DERATE_PERCENT ∧ n < 100 ∧ (s.alloc.derateRef = 100 ∨ n + 10 ≤ s.alloc.derateRef)
    ∃ t, exec (.thermalDerateChange inlet) s = .next t ∧ t.fget 0 ALLOC_THERM_INLET = inlet.toNat ∧
      t.fget 0 ALLOC_THERM_DERATE_PERCENT = n ∧ t.mem = s.mem ∧ (fire → Safety.Raised 38 0 true n t) ∧ (¬ fire → t.events = s.events) ∧
      (∀ k, k ≠ ALLOC_THERM_INLET.off → k ≠ ALLOC_THERM_DERATE_PERCENT.off → k ≠ 0x40000 → t.rd k = s.rd k)) ∧
  (∀ s : State,
    (s.busPresent .a = false → s.busPresent .b = false → s.ceiling = s) ∧
    (∀ mv, ((s.busPresent .a = true ∧ s.busPresent .b = true ∧ mv = min (s.busMv .a) (s.busMv .b)) ∨
        (s.busPresent .a = true ∧ s.busPresent .b = false ∧ mv = s.busMv .a) ∨ (s.busPresent .a = false ∧ s.busPresent .b = true ∧ mv = s.busMv .b)) →
      s.ceiling.alloc.ceil = ceilCode mv ∧ (∀ k, 0x90000 ≤ k → s.ceiling.rd k = s.rd k) ∧ s.ceiling.events = s.events ∧ s.ceiling.mem = s.mem))

/-- Power failure, the ride, the save, and the retained set (R46, R71, R197–R202, R302). -/
def Obligations.PowerFailure : Prop :=
  (∀ s : State, s.inReset 1 = false → s.fbit 0 ALLOC_ENTRY_STATUS_PFW = false →
    ∃ t, exec .powerFailWarning s = .next t ∧ t = s.powerFail 1 ∧ t.fbit 0 ALLOC_ENTRY_STATUS_PFW = true ∧
      t.fbit 0 ALLOC_ENTRY_STATUS_PFW_SEEN = true ∧ t.alloc.saving = true ∧ t.fget 0 ALLOC_FAN_STATUS_DUTY = 0 ∧ t.mode = s.mode) ∧
  (∀ s : State, ∃ t u, exec .mateNHigh s = .next t ∧ t.fbit 0 ALLOC_ENTRY_STATUS_MATED = false ∧ t.busPresent .a = false ∧
    t.busPresent .b = false ∧ Safety.OnlyRegs [0x90000] s u ∧
    (s.inReset 1 = false → s.fbit 0 ALLOC_ENTRY_STATUS_PFW = false → t = u.powerFail 2 ∧ t.fbit 0 ALLOC_ENTRY_STATUS_PFW = true) ∧
    (s.inReset 1 = true ∨ s.fbit 0 ALLOC_ENTRY_STATUS_PFW = true → t = u)) ∧
  (∀ s : State, s.pwr.refclkLost = false → s.alloc.riding = true →
    ∃ t, exec .rideEnd s = .next t ∧ t.alloc.riding = false ∧
      t.fget 0 PFW_LAST_RIDE_DURATION = min ((s.now - s.alloc.pfwAt) / 1000000) 0xFFFF) ∧
  (∀ s : State, s.pwr.refclkLost = false → s.fbit 0 ALLOC_ENTRY_STATUS_PFW = true → (s.busPresent .a = true ∨ s.busPresent .b = true) →
    ∃ t, exec .powerFailWarningCleared s = .next t ∧ t.fbit 0 ALLOC_ENTRY_STATUS_PFW = false ∧ t.alloc.waived = true ∧ t.alloc.phyOff = [] ∧
      t.fget 0 ALLOC_FAN_STATUS_DUTY = 0xFF ∧ ∃ e ∈ t.events, e.source = 41 ∧ e.gallery = 0 ∧ e.urgent = true) ∧
  (∀ (s : State) (us : BitVec 16) (ok : Bool), s.pwr.refclkLost = false → s.alloc.saving = true →
    ∃ t, exec (.pfwSaveComplete us ok) s = .next t ∧ t.alloc.saving = false ∧ t.fget 0 PFW_LAST_SAVE_DURATION = us.toNat ∧
      t.fbit 0 PFW_LAST_SAVE_SAVE_OK = ok ∧ (2000 < us.toNat → ok = false → Safety.Raised 42 0 true us.toNat t)) ∧
  (∀ (s : State) (l : Lane), s.runsCycles l = true → s.fbit 0 ALLOC_ENTRY_STATUS_PFW = false →
    (s.cyc l).stage.cycle ≠ s.fget (cycB l) CYC_RETAIN_CYCLE →
    ∃ t c, exec (.retainSetCommit l) s = .next t ∧ t.retSet = some c ∧ t.retSetAt = s.now ∧ c.cycle = (s.retainSet l).cycle ∧
      c.layout = (s.image.map (fun i => i.layout.toNat)).getD 0 ∧ c.bad = false ∧ t.fget (cycB l) CYC_RETAIN_CYCLE = c.cycle % 2 ^ 32 ∧
      t.events = s.events) ∧
  (∀ s : State, s.pwr.aonOut = true → s.pwr.refclkLost = false → s.mode ≠ .safe →
    ∃ t, exec .hotspotOvertemp s = .next t ∧ t.mode = .safe ∧ t.fget 0 HG_SAFE_CAUSE = 4)

/-- Shed order (R184, R185). -/
def Obligations.ShedOrder : Prop :=
  ∀ s : State,
    (s.shedList).Perm ((List.range 64).filter s.powered) ∧
    (s.shedList).Pairwise (fun p q => s.shedBefore q p = false) ∧
    (∀ (b : Nat) (l : List Nat) (r d k : Nat), ∃ n, n ≤ l.length ∧
      shedLoop b l r d s k = ((l.take n).foldl (fun u p => u.shedPort p) s, k + n) ∧
      (r ≤ b → 100 * d ≤ 95 * b → n = 0) ∧ (l ≠ [] → ¬ (r ≤ b ∧ 100 * d ≤ 95 * b) → 0 < n)) ∧
    (∀ p, s.pst p .a ≠ stOff → s.pst p .a ≠ stSafeOff →
      ((s.shedPort p).portX p).queuedAt = s.now ∧ ((s.shedPort p).portX p).wasShed = true)

/-- The allocator tick, the dip, and the allocator's waits (R180, R184, R186, R187, R191, R204). -/
def Obligations.AllocatorTick : Prop :=
  (∀ s : State, s.fbit 0 ALLOC_ENTRY_STATUS_PFW = false →
    let t := s.allocDip
    let r := portSum (fun p => if s.holdsBudget p then s.budgetOf p else 0)
    let d := portSum s.drawOf
    t.fget 0 ALLOC_B_IN = s.bIn % 2 ^ 32 ∧ t.fget 0 ALLOC_B_PORTS = s.bPorts % 2 ^ 32 ∧
      t.fget 0 ALLOC_RESERVED = min r (2 ^ 32 - 1) ∧ t.fget 0 ALLOC_DRAW = min d (2 ^ 32 - 1) ∧
      (t.fbit 0 ALLOC_STATUS_DIP = true ↔ s.bPorts % 2 ^ 32 < r ∨ s.bPorts % 2 ^ 32 < d) ∧
      (s.fbit 0 ALLOC_STATUS_DIP = false → t.fbit 0 ALLOC_STATUS_DIP = true → t.alloc.dipStart = s.now ∧ ∃ e ∈ t.events, e.source = 45) ∧
      t.mem = s.mem) ∧
  (∀ (s : State) (m : EntryMeas) (ports : List PortMeas), s.seqRuns = true →
    exec (.allocTick m ports) s = .next (
      let u0 := (({ s with alloc := { s.alloc with tickAt := s.now } } : State).entryMeas m)
      let u := (ports.foldl (fun u q => u.portMeas q) u0).allocDip
      let v := if u.fbit 0 ALLOC_STATUS_DIP && !u.fbit 0 ALLOC_ENTRY_STATUS_PFW then
          match u.mustShed m.atLimit with
          | some c => u.allocShed c
          | none => u
        else u
      let w := if v.fbit 0 ALLOC_STATUS_SHED_LAST then v else v.allocServe
      let g := w.chargeLimit m.self.toNat
      (w.fset 0 SLU_CHG_LIMIT g).fsetB 0 SLU_STATUS_CHARGING
        (decide (g ≠ 0) && !w.fbit 0 SLU_STATUS_FULL && !w.fbit 0 SLU_STATUS_DISCHARGING))) ∧
  (∀ (s : State) (m : EntryMeas) (ports : List PortMeas), s.seqRuns = false → exec (.allocTick m ports) s = .next s) ∧
  (∀ (s : State) (cause : Fin 4), s.seqRuns = true → s.fbit 0 ALLOC_STATUS_DIP = true → s.fbit 0 ALLOC_ENTRY_STATUS_PFW = false →
    ∃ t, exec (.dipRideExpired cause) s = .next t ∧ t = s.allocShed (max cause.val 1) ∧ t.fbit 0 ALLOC_STATUS_DIP = false ∧
      t.alloc.restoreAt = s.now + 5000000000) ∧
  (∀ (s : State) (port : PortNo), s.pwr.refclkLost = false →
    ((s.portX port.val).asked = none → ∃ t, exec (.earmarkExpired port) s = .next t ∧ (t.portX port.val).earmark = none ∧
      (∀ q, q ≠ port.val → t.portX q = s.portX q) ∧ t.regs = s.regs ∧ t.mem = s.mem ∧ t.events = s.events) ∧
    (∀ at_, (s.portX port.val).asked = some at_ → exec (.earmarkExpired port) s = .next s)) ∧
  (∀ s : State, s.seqRuns = true → s.fbit 0 ALLOC_STATUS_DIP = false →
    ∃ t, exec .shedRestoreWaitExpired s = .next t ∧ t.restoreOk = true ∧
      t = ({ s with alloc := { s.alloc with restoreAt := min s.alloc.restoreAt s.now } } : State).allocServe) ∧
  (∀ (s : State) (r : Req) (x : Session) (l : Lane), Safety.Sets s r x l 0x90130 1 →
    ∃ t, exec (.allocRestore r) s = .next t ∧ t.alloc.waived = true ∧ t.regs = s.regs ∧ t.mem = s.mem ∧ t.events = s.events)

/-- The sluice's events (R190–R196). -/
def Obligations.Sluice : Prop :=
  (∀ s : State, 0 < s.ePeak ∨ s.fbit 0 ALLOC_ENTRY_STATUS_PFW = true → ∃ t, exec .sluiceDischargeStart s = .next t ∧
    t.fbit 0 SLU_STATUS_DISCHARGING = true ∧ t.fbit 0 SLU_STATUS_CHARGING = false ∧ Safety.OnlyRegs [0x90180] s t) ∧
  (∀ s : State, s.ePeak = 0 → s.fbit 0 ALLOC_ENTRY_STATUS_PFW = false → exec .sluiceDischargeStart s = .next s) ∧
  (∀ s : State, ∃ t, exec .sluiceDischargeStop s = .next t ∧ t.fbit 0 SLU_STATUS_DISCHARGING = false ∧ Safety.OnlyRegs [0x90180] s t) ∧
  (∀ s : State, s.pwr.refclkLost = false → ∃ t, exec .sluiceFull s = .next t ∧ t.fbit 0 SLU_STATUS_FULL = true ∧
    t.fbit 0 SLU_STATUS_CHARGING = false ∧ Safety.OnlyRegs [0x90180] s t) ∧
  (∀ s : State, s.pwr.refclkLost = false → ∃ t, exec .sluiceChargeResume s = .next t ∧ t.fbit 0 SLU_STATUS_FULL = false ∧
    t.fbit 0 SLU_STATUS_CHARGING = decide (s.fget 0 SLU_CHG_LIMIT ≠ 0) ∧ Safety.OnlyRegs [0x90180] s t) ∧
  (∀ s : State, s.pwr.refclkLost = false → ∃ t, exec .reserveOkSet s = .next t ∧ t.fbit 0 SLU_STATUS_RESERVE_OK = true ∧ t.mayGrant = true ∧
    t.alloc.everReserve = true ∧ t.alloc.noReserve = false ∧ 1 ∉ t.hg.degOther ∧ t.mem = s.mem ∧ t.events = s.events ∧
    (∀ k, k ≠ 0x90180 → t.rd k = s.rd k)) ∧
  (∀ s : State, s.pwr.refclkLost = false →
    ∃ t, exec .reserveLost s = .next t ∧ t.fbit 0 SLU_STATUS_RESERVE_OK = false ∧ Safety.OnlyRegs [0x90180] s t ∧
      (s.fbit 0 ALLOC_ENTRY_STATUS_PFW = false → t.fbit 0 SLU_STATUS_DISCHARGING = false ∧
        (s.fbit 0 SLU_STATUS_RESERVE_OK = true → Safety.Raised 46 0 true (s.fget 0 SLU_BANK_VOLTAGE) t)) ∧
      (s.fbit 0 ALLOC_ENTRY_STATUS_PFW = true ∨ s.fbit 0 SLU_STATUS_RESERVE_OK = false → t.events = s.events)) ∧
  (∀ s : State, s.pwr.refclkLost = false → s.alloc.everReserve = false → s.alloc.noReserve = false → s.alloc.config = true →
    ∃ t, exec .reserveGrantTimeout s = .next t ∧ t.mayGrant = true ∧ 1 ∈ t.hg.degOther ∧
      Safety.Raised 49 0 true (s.fget 0 SLU_BANK_VOLTAGE) t ∧ (∀ k, k ≠ 0x40000 → t.rd k = s.rd k) ∧ t.mem = s.mem) ∧
  (∀ (s : State) (c : BitVec 16), s.pwr.refclkLost = false →
    let old := s.fget 0 SLU_CAP_C
    let last := (c.toNat :: s.alloc.caps).take 3
    let takes := 100 * (max c.toNat old - min c.toNat old) ≤ 10 * old ∨ (last.length = 3 ∧ last.all (fun a => last.all (fun b => within 3 a b)) = true)
    (takes → ∃ t, exec (.sluiceCapMeasured c) s = .next t ∧ t.fget 0 SLU_CAP_C = c.toNat ∧ t.fget 0 SLU_LEVELS_V_RESERVE = vReserve c.toNat ∧
      t.alloc.caps = [] ∧ t.mem = s.mem) ∧
    (¬ takes → exec (.sluiceCapMeasured c) s = .next { s with alloc := { s.alloc with caps := last.take 2 } })) ∧
  (∀ (s : State) (temp : BitVec 16), s.pwr.refclkLost = false →
    let hot := decide (temp.toInt > 5500)
    let v := if hot then 30000 else 32400
    ∃ t, exec (.sluiceHot temp) s = .next t ∧ t.fbit 0 SLU_STATUS_HOT = hot ∧ t.alloc.hot = hot ∧
      t.fget 0 SLU_LEVELS_V_MAX = (s.alloc.cellVmax.map (fun m => min v m)).getD v ∧
      (hot = true → s.fbit 0 SLU_STATUS_HOT = false → ∃ e ∈ t.events, e.source = 48 ∧ e.gallery = 0 ∧ e.urgent = true)) ∧
  (∀ (s : State) (present : Bool) (vmax : BitVec 16), s.pwr.refclkLost = false →
    let v := if s.alloc.hot then 30000 else 32400
    ∃ t, exec (.sluiceCellFault present vmax) s = .next t ∧ t.fbit 0 SLU_STATUS_CELL_FAULT = present ∧
      t.fget 0 SLU_LEVELS_V_MAX = (if present then min v vmax.toNat else v) ∧
      (present = true → s.fbit 0 SLU_STATUS_CELL_FAULT = false → ∃ e ∈ t.events, e.source = 48 ∧ e.gallery = 0 ∧ e.urgent = true))

/-- Detection to ON, and a port switched off, on and restarted (R143–R151, R156, R176). -/
def Obligations.PortPowerUp : Prop :=
  (∀ (s : State) (port : PortNo) (a b : Signature), s.seqRuns = true → (s.pst port.val .a = stDetect ∨ s.pst port.val .b = stDetect) →
    let bad : Prop := (s.pst port.val .a = stDetect ∧ 2800 ≤ a.open_.toNat) ∨ (s.pst port.val .b = stDetect ∧ 2800 ≤ b.open_.toNat)
    let good : Signature → Prop := fun g => 19000 ≤ g.ohms.toNat ∧ g.ohms.toNat ≤ 26500 ∧ g.pf.toNat ≤ 150000
    ∃ t, exec (.portDetectPass port a b) s = .next t ∧ t.mem = s.mem ∧
      (¬ bad → t.regs = s.regs ∧ t.events = s.events ∧ (t.portX port.val).backfeed = false ∧
        ((t.portX port.val).sigA = true ↔ s.pst port.val .a = stDetect ∧ good a) ∧
        ((t.portX port.val).sigB = true ↔ s.pst port.val .b = stDetect ∧ good b)) ∧
      (bad → t.fget (portB port.val) PORT_STATUS_REASON = 7 ∧ (t.fget (portB port.val) PORT_FAULT_SEEN).testBit 5 = true ∧
        (t.portX port.val).backfeed = true ∧ (t.portX port.val).sigA = false ∧ (t.portX port.val).sigB = false ∧
        ((s.portX port.val).backfeed = true → t.events = s.events) ∧
        ((s.portX port.val).backfeed = false → Safety.Raised (portEv port.val 0) (s.portOwner port.val) true (7 * 0x1000000 +
          s.pst port.val .a * 0x100000 + s.pst port.val .b * 0x10000 + min (s.fget (portB port.val) PORT_POWER / 100) 0xFFFF) t) ∧
        (∀ k, k ∉ [portB port.val + 0x8, portB port.val + 0x2C, 0x40000] → t.rd k = s.rd k))) ∧
  (∀ (s : State) (port : PortNo), s.seqRuns = true → s.pst port.val .a = stDetect → s.pst port.val .b = stDetect →
    let a := (s.portX port.val).sigA
    let b := (s.portX port.val).sigB
    (a = true → b = true →
      ∃ t, exec (.portConnectionCheckDone port true) s = .next t ∧ t.pst port.val .a = stClassify ∧ t.pst port.val .b = stClassify ∧
        t.fget (portB port.val) PORT_STATUS_SIG = 1 ∧ Safety.OnlyRegs [portB port.val + 0x8] s t) ∧
    (∀ single : Bool, (a = true ∨ b = true) → (single = false ∨ a = false ∨ b = false) →
      ∃ t, exec (.portConnectionCheckDone port single) s = .next t ∧ t.pst port.val .a = (if a then stClassify else stOff) ∧
        t.pst port.val .b = (if b then stClassify else stOff) ∧ t.dual port.val = true ∧
        Safety.OnlyRegs [portB port.val + 0x8] s { t with ports := s.ports })) ∧
  (∀ (s : State) (port : PortNo) (single : Bool), s.seqRuns = true → s.dual port.val = true →
    (s.pst port.val .a = stDetect → s.pst port.val .b ≠ stDetect → (s.portX port.val).sigA = true → (s.portX port.val).sigB = false →
      ∃ t, exec (.portConnectionCheckDone port single) s = .next t ∧ t.pst port.val .a = stClassify ∧
        t.pst port.val .b = s.pst port.val .b ∧ Safety.OnlyRegs [portB port.val + 0x8] s t) ∧
    (s.pst port.val .b = stDetect → s.pst port.val .a ≠ stDetect → (s.portX port.val).sigB = true → (s.portX port.val).sigA = false →
      ∃ t, exec (.portConnectionCheckDone port single) s = .next t ∧ t.pst port.val .b = stClassify ∧
        t.pst port.val .a = s.pst port.val .a ∧ Safety.OnlyRegs [portB port.val + 0x8] s t)) ∧
  (∀ (s : State) (port : PortNo) (ca cb : Option (Fin 16)) (auto : Bool), s.seqRuns = true →
    let m := s.fget (portB port.val) PORT_CTRL_CLASS_MAX
    (∀ c : Fin 16, ca = some c → c.val ≤ 8 → s.dual port.val = false → s.pst port.val .a = stClassify → s.pst port.val .b = stClassify →
      ∃ t, exec (.portClassifyDone port ca cb auto) s = .next t ∧ t.fget (portB port.val) PORT_STATUS_CLASS = classGranted false m c.val ∧
        (t.portX port.val).asked = some s.now ∧ (t.portX port.val).claimA = classPower false (classGranted false m c.val) ∧
        (t.portX port.val).granted = false ∧ t.pst port.val .a = stClassify ∧ t.pst port.val .b = stClassify ∧ t.events = s.events ∧
        t.mem = s.mem ∧ (∀ k, k ≠ portB port.val + 0x8 → k ≠ portB port.val + 0x38 → t.rd k = s.rd k)) ∧
    ((∀ c : Fin 16, ca = some c → 8 < c.val) → s.dual port.val = false → s.pst port.val .a = stClassify → s.pst port.val .b = stClassify →
      exec (.portClassifyDone port ca cb auto) s = .next ((((s.fset (portB port.val) PORT_STATUS_AUTOCLASS 0).fset (portB port.val)
        PORT_AUTOCLASS 0)).removeFault port.val .a 6 0)) ∧
    (∀ (ps : PairSet) (c : Fin 16), (if ps = .a then ca else cb) = some c → 1 ≤ c.val → c.val ≤ 5 → s.dual port.val = true →
      s.pst port.val ps = stClassify →
      ∃ t, exec (.portClassifyDone port ca cb auto) s = .next t ∧ t.cls port.val ps = classGranted true m c.val ∧
        (t.portX port.val).asked = some s.now ∧ (t.portX port.val).claim ps = classPower true (classGranted true m c.val) ∧
        (t.portX port.val).granted = false ∧ t.pst port.val ps = stClassify ∧ t.mem = s.mem)) ∧
  (∀ (s : State) (port : PortNo), s.seqRuns = true →
    let x := s.portX port.val
    (s.dual port.val = false → s.pst port.val .a = stClassify →
      (x.granted = true → ∃ t, exec (.portGrantReceived port) s = .next t ∧ t.pst port.val .a = stInrush ∧ t.pst port.val .b = stInrush ∧
        (t.portX port.val).t4 = s.now ∧ (t.portX port.val).granted = false ∧ t.events = s.events ∧ t.mem = s.mem ∧
        (s.pst port.val .b = stClassify → (t.portX port.val).nowA = t.codeLimit port.val (s.fget (portB port.val) PORT_VSET) ∧
          (t.portX port.val).nowB = (t.portX port.val).nowA)) ∧
      (x.granted = false → ∃ t, exec (.portGrantTimeout port) s = .next t ∧ t.pst port.val .a = stPending ∧
        t.pst port.val .b = stPending ∧ (t.portX port.val).queuedAt = s.now ∧ (t.portX port.val).asked = none ∧ t.events = s.events ∧
        t.mem = s.mem)) ∧
    (s.dual port.val = true → (s.pst port.val .a = stClassify ∨ s.pst port.val .b = stClassify) →
      (x.granted = true → ∃ t, exec (.portGrantReceived port) s = .next t ∧ (t.portX port.val).t4 = s.now ∧
        (∀ q, t.pst port.val q = if s.pst port.val q = stClassify then stInrush else s.pst port.val q) ∧ t.events = s.events) ∧
      (x.granted = false → ∃ t, exec (.portGrantTimeout port) s = .next t ∧ (t.portX port.val).queuedAt = s.now ∧
        (∀ q, t.pst port.val q = if s.pst port.val q = stClassify then stPending else s.pst port.val q) ∧ t.events = s.events))) ∧
  (∀ (s : State) (port : PortNo) (ps : PairSet), s.seqRuns = true → s.pst port.val ps = stInrush →
    let b := portB port.val
    (∃ t, exec (.portInrushComplete port ps) s = .next t ∧ t.pst port.val ps = stOn ∧ (t.portX port.val).onAt = s.now ∧ t.mem = s.mem ∧
      (s.dual port.val = false → t.pst port.val .a = stOn ∧ t.pst port.val .b = stOn) ∧
      (s.dual port.val = true → ∀ q, q ≠ ps → t.pst port.val q = s.pst port.val q) ∧
      ((s.portX port.val).lastOn ≠ some (s.fget b PORT_STATUS_SIG, s.fget b PORT_STATUS_CLASS, s.fget b PORT_STATUS_CLASS_B) →
        ∃ e ∈ t.events, e.source = portEv port.val 1 ∧ e.gallery = s.portOwner port.val ∧ e.ackOwner = false ∧ e.ackOp = false) ∧
      ((s.portX port.val).lastOn = some (s.fget b PORT_STATUS_SIG, s.fget b PORT_STATUS_CLASS, s.fget b PORT_STATUS_CLASS_B) →
        t.events = s.events)) ∧
    exec (.portInrushTimeout port ps) s = .next (s.removeFault port.val ps 5 0)) ∧
  (∀ (s : State) (port : PortNo) (peak : BitVec 32), s.seqRuns = true → s.portOn port.val = true → (s.portX port.val).autoReq = true →
    s.dual port.val = false →
    let w := min (peak.toNat + 1750) (classPower false (s.cls port.val .a))
    ∃ t, exec (.autoclassWindowEnd port peak) s = .next t ∧ t.fget (portB port.val) PORT_AUTOCLASS = w ∧
      t.fbit (portB port.val) PORT_STATUS_AUTOCLASS = true ∧ (t.portX port.val).claimA = w ∧ (t.portX port.val).autoReq = false ∧
      t.mem = s.mem ∧ ∃ e ∈ t.events, e.source = portEv port.val 1 ∧ e.gallery = s.portOwner port.val) ∧
  (∀ (s : State) (port : PortNo) (ps : PairSet), s.seqRuns = true → s.pst port.val ps = stBackoff → s.mode ≠ .safe →
    (s.recentFaults port.val < 5 ∨ s.fbit (portB port.val) PORT_CMD_RESTART = true) →
    ∃ t, exec (.portBackoffExpired port ps) s = .next t ∧ t.pst port.val ps = stDetect ∧ t.fbit (portB port.val) PORT_CMD_RESTART = false ∧
      t.events = s.events ∧ t.mem = s.mem) ∧
  (∀ (s : State) (r : Req) (port : PortNo) (x : Session) (l : Lane), Safety.Sets s r x l (portB port.val + 0x34) 1 →
    ∃ t, exec (.portRestart r port) s = .next t ∧ t.regs = (s.portRestart port.val).regs ∧ t.ports = (s.portRestart port.val).ports) ∧
  (∀ (s : State) (port : PortNo), let t := s.portRestart port.val
    ((∀ q, s.pst port.val q ≠ stLockout ∧ s.pst port.val q ≠ stPending ∧ s.pst port.val q ≠ stBackoff) →
      t = s.fset (portB port.val) PORT_CMD_RESTART 0) ∧
    (s.dual port.val = false → s.pst port.val .a = s.pst port.val .b → s.mode ≠ .safe →
      (s.pst port.val .a = stLockout ∨ s.pst port.val .a = stPending) →
      t.pst port.val .a = stDetect ∧ t.pst port.val .b = stDetect ∧ t.fbit (portB port.val) PORT_CMD_RESTART = false) ∧
    (s.pst port.val .a = stBackoff → s.pst port.val .b = stBackoff → t = s.fset (portB port.val) PORT_CMD_RESTART 1) ∧
    (s.mode = .safe → (∃ q, s.pst port.val q = stLockout ∨ s.pst port.val q = stPending ∨ s.pst port.val q = stBackoff) →
      t = s.fset (portB port.val) PORT_CMD_RESTART 1)) ∧
  (∀ (s : State) (r : Req) (port : PortNo) (w : BitVec 32) (x : Session) (l : Lane), Safety.Writes s r x l (portB port.val) w.toNat →
    (w.getLsbD 0 = false → s.pst port.val .a ≠ stOff → s.pst port.val .a ≠ stSafeOff →
      ∃ t, exec (.portCtrlWrite r port false w) s = .next t ∧ t.pst port.val .a = stOff ∧ t.pst port.val .b = stOff ∧
        t.powered port.val = false ∧ (s.powered port.val = true → t.fget (portB port.val) PORT_STATUS_REASON = 1)) ∧
    (w.getLsbD 0 = true → s.fbit (portB port.val) PORT_STATUS_REQ = true → s.alloc.config = true → s.mode ≠ .safe → s.seqRuns = true →
      s.fget (portB port.val) PORT_MCODE_STAGED ≠ 0 → s.pst port.val .a = stOff → s.pst port.val .b = stOff →
      ∃ t, exec (.portCtrlWrite r port false w) s = .next t ∧ t.pst port.val .a = stDetect ∧ t.pst port.val .b = stDetect))

/-- Removals by the sequencer (R153–R158), and the weir (R159–R163). -/
def Obligations.PortRemoval : Prop :=
  (∀ (s : State) (port : PortNo) (ps : PairSet), s.seqRuns = true →
    (s.pst port.val ps = stOn → exec (.portMpsLost port ps) s = .next (s.removeFault port.val ps 2 0)) ∧
    (s.psPowered port.val ps = true →
      exec (.portOverload port ps) s = .next (s.removeFault port.val ps 3 0) ∧
      (∀ e : BitVec 32, exec (.portShort port ps e) s = .next ((s.weirAdd port.val e.toNat).removeFault port.val ps 4 0)) ∧
      exec (.portRegFault port ps) s = .next (s.removeFault port.val ps 10 0))) ∧
  (∀ (s : State) (port : PortNo) (ps : PairSet) (r trip : Nat), r ∈ [2, 3, 4, 5, 6, 10] →
    let t := s.removeFault port.val ps r trip
    let b := portB port.val
    let st := if countedReason r && s.fbit b PORT_CTRL_LOCKOUT_EN && decide (4 ≤ s.recentFaults port.val) then stLockout else stBackoff
    t.pst port.val ps = st ∧ t.fget b PORT_STATUS_REASON = r ∧ (t.fget b PORT_FAULT_SEEN).testBit (r - 2) = true ∧
      t.holdOver port.val = false ∧ t.mem = s.mem ∧ t.now = s.now ∧
      t.fget b PORT_FAULT_CNT_TOTAL = (if countedReason r then min (s.fget b PORT_FAULT_CNT_TOTAL + 1) 0xFFFF else s.fget b PORT_FAULT_CNT_TOTAL) ∧
      Safety.Raised (portEv port.val 0) (s.portOwner port.val) (r != 2) (r * 0x1000000 + s.pst port.val .a * 0x100000 +
        s.pst port.val .b * 0x10000 + min (s.fget b PORT_POWER / 100) 0xFFFF) t ∧
      (s.dual port.val = false → t.pst port.val .a = st ∧ t.pst port.val .b = st) ∧
      (s.dual port.val = true → ∀ q, q ≠ ps → t.pst port.val q = s.pst port.val q) ∧
      (t.powered port.val = false → t.fget b PORT_GRANT = 0)) ∧
  (∀ (s : State) (port : PortNo) (ps : PairSet), s.psPowered port.val ps = true →
    ∃ t, exec (.weirClampEngage port ps) s = .next t ∧ t.fbit (portB port.val) PORT_STATUS_WEIR_LIMIT = true ∧
      (t.portX port.val).faultEvent = true ∧ (if ps = .a then (t.portX port.val).clampA else (t.portX port.val).clampB) = true ∧
      (t.portX port.val).energy = (if (s.portX port.val).faultEvent then (s.portX port.val).energy else s.capEnergy port.val) ∧
      t.fbit (portB port.val) PORT_STATUS_LIMIT = (t.atIlim port.val .a || t.atIlim port.val .b) ∧
      t.events = s.events ∧ t.mem = s.mem ∧ (∀ k, k ≠ portB port.val + 0x8 → t.rd k = s.rd k)) ∧
  (∀ (s : State) (port : PortNo) (ps : PairSet) (e : BitVec 32), let x := s.portX port.val
    (x.clampA = true ∨ x.clampB = true) →
    ∃ t, exec (.weirClampRelease port ps e) s = .next t ∧ (t.portX port.val).clampA = (x.clampA && ps != .a) ∧
      (t.portX port.val).clampB = (x.clampB && ps != .b) ∧
      t.fbit (portB port.val) PORT_STATUS_WEIR_LIMIT = ((x.clampA && ps != .a) || (x.clampB && ps != .b)) ∧
      (t.portX port.val).energy = (if x.faultEvent then x.energy + e.toNat else x.energy) ∧
      (t.portX port.val).faultEvent = x.faultEvent ∧ t.events = s.events ∧ t.mem = s.mem ∧
      (∀ k, k ≠ portB port.val + 0x8 → t.rd k = s.rd k)) ∧
  (∀ (s : State) (port : PortNo) (e : BitVec 32), s.powered port.val = true → (s.portX port.val).faultEvent = true →
    ∃ t, exec (.weirEnergyTrip port e) s = .next t ∧ t.powered port.val = false ∧ t.fget (portB port.val) PORT_STATUS_REASON = 8 ∧
      t.fget (portB port.val) PORT_WEIR_TRIPS = min (s.fget (portB port.val) PORT_WEIR_TRIPS + 1) 0xFFFF ∧
      (t.portX port.val).refused = true ∧ t.holdOver port.val = false ∧ t.mem = s.mem ∧
      Safety.Raised (portEv port.val 2) (s.portOwner port.val) true
        (0x1000000 + min (((s.weirAdd port.val e.toNat).portX port.val).energy / 1000) 0xFFFF) t) ∧
  (∀ (s : State) (port : PortNo), s.powered port.val = true →
    ∃ t, exec (.weir3sTrip port) s = .next t ∧ t.powered port.val = false ∧ t.fget (portB port.val) PORT_STATUS_REASON = 9 ∧
      t.fget (portB port.val) PORT_WEIR_TRIPS = min (s.fget (portB port.val) PORT_WEIR_TRIPS + 1) 0xFFFF ∧
      (t.portX port.val).refused = true ∧ t.holdOver port.val = false ∧ t.mem = s.mem ∧
      Safety.Raised (portEv port.val 2) (s.portOwner port.val) true (2 * 0x1000000 + min ((s.portX port.val).energy / 1000) 0xFFFF) t) ∧
  (∀ (s : State) (port : PortNo) (ps : PairSet), s.psPowered port.val ps = true →
    ∃ t, exec (.weirOvervoltage port ps) s = .next t ∧ t.psPowered port.val ps = false ∧
      (s.dual port.val = false → t.powered port.val = false) ∧
      (s.dual port.val = true → ∀ q, q ≠ ps → t.pst port.val q = s.pst port.val q) ∧
      t.fget (portB port.val) PORT_STATUS_REASON = 10 ∧
      t.fget (portB port.val) PORT_WEIR_TRIPS = min (s.fget (portB port.val) PORT_WEIR_TRIPS + 1) 0xFFFF ∧
      (t.portX port.val).refused = true ∧ t.holdOver port.val = false ∧ t.mem = s.mem ∧
      Safety.Raised (portEv port.val 2) (s.portOwner port.val) true (3 * 0x1000000 + min ((s.portX port.val).energy / 1000) 0xFFFF) t) ∧
  (∀ (s : State) (port : PortNo), let x := s.portX port.val
    x.faultEvent = true → x.clampA = false → x.clampB = false →
    ∃ t, exec (.weirFaultEventEnd port) s = .next t ∧ (t.portX port.val).faultEvent = false ∧ (t.portX port.val).energy = 0 ∧
      t.fget (portB port.val) PORT_WEIR_LAST_ENERGY = min (x.energy / 1000) 0xFFFF ∧
      t.fbit (portB port.val) PORT_STATUS_WEIR_LIMIT = false ∧ t.mem = s.mem ∧
      (100000 < x.energy → Safety.Raised (portEv port.val 2) (s.portOwner port.val) true (min (x.energy / 1000) 0xFFFF) t) ∧
      (x.energy ≤ 100000 → t.events = s.events)) ∧
  (∀ (s : State) (port : PortNo), exec (.weirRefusalEnd port) s =
    .next (s.setPortX port.val { s.portX port.val with refused := false }))

/-- The cable measurement and the ramp (R164–R170). -/
def Obligations.CableAndRamp : Prop :=
  let able : State → Nat → Prop := fun s p => s.portOn p = true ∧
    5000 ≤ s.fget (portB p) PORT_POWER - s.fget (portB p) PORT_PD_END_CABLE_LOSS ∧ s.fbit (portB p) PORT_STATUS_LIMIT = false ∧
    s.fbit (portB p) PORT_STATUS_WEIR_LIMIT = false ∧ 100 * s.fget (portB p) PORT_POWER < 95 * s.fget (portB p) PORT_GRANT ∧
    s.fbit 0 ALLOC_ENTRY_STATUS_PFW = false
  let judged : State → Nat → State → Prop := fun s p t =>
    (able s p → s.ramped p = true → (t.portX p).measuring = true ∧ (∀ k, k ≠ portB p + 0x34 → t.rd k = s.rd k)) ∧
    (able s p → s.ramped p = false → (t.portX p).measDue = true ∧ (t.portX p).measuring = (s.portX p).measuring ∧
      (∀ k, k ≠ portB p + 0x34 → t.rd k = s.rd k)) ∧
    (¬ able s p → (t.portX p).measuring = false ∧ (t.portX p).measDue = false ∧ t.fbit (portB p) PORT_CMD_REMEASURE = false ∧
      t.fget (portB p) PORT_MEAS_SKIPPED = min (s.fget (portB p) PORT_MEAS_SKIPPED + 1) 255 ∧
      (∀ k, k ≠ portB p + 0x34 → k ≠ portB p + 0x40 → t.rd k = s.rd k)) ∧ t.events = s.events
  (∀ (s : State) (port : PortNo), s.seqRuns = true → s.powered port.val = true →
    (∃ t, exec (.loopRMeasureDue port) s = .next t ∧ judged s port.val t ∧ t.mem = s.mem) ∧
    (∃ t, exec (.loopRMeasureRetry port) s = .next t ∧ judged s port.val t ∧ t.mem = s.mem)) ∧
  (∀ (s : State) (r : Req) (port : PortNo) (x : Session) (l : Lane), Safety.Sets s r x l (portB port.val + 0x34) 2 →
    ∃ t, exec (.portRemeasure r port) s = .next t ∧ judged s port.val t ∧
      (able s port.val → t.fbit (portB port.val) PORT_CMD_REMEASURE = true)) ∧
  (∀ (s : State) (port : PortNo) (base sa sb : LoopSample), s.seqRuns = true → (s.portX port.val).measuring = true →
    s.loopResult port.val base sa sb = none →
    ∃ t, exec (.loopRMeasureComplete port base sa sb) s = .next t ∧ (t.portX port.val).measuring = false ∧
      (t.portX port.val).badRun = (if 2 ≤ (s.portX port.val).badRun then 0 else (s.portX port.val).badRun + 1) ∧
      (2 ≤ (s.portX port.val).badRun → ∃ e ∈ t.events, e.source = portEv port.val 3 ∧ e.gallery = s.portOwner port.val ∧
        e.data / 0x1000000 = 5) ∧
      ((s.portX port.val).badRun < 2 → t.events = s.events) ∧ t.fbit (portB port.val) PORT_CMD_REMEASURE = false ∧
      Safety.OnlyRegs [portB port.val + 0x34] s { t with ports := s.ports }) ∧
  (∀ (s : State) (port : PortNo) (base sa sb : LoopSample) (r : LoopResult), s.seqRuns = true → (s.portX port.val).measuring = true →
    s.loopResult port.val base sa sb = some r →
    let b := portB port.val
    let oldA := s.fget b PORT_LOOP_R_LOOP_A
    let oldB := s.fget b PORT_LOOP_R_LOOP_B
    let ra := r.ra.getD oldA
    let rb := r.rb.getD oldB
    let steps := ((max ra rb - min ra rb) * r.i0.toNat / 2 + 12500000) / 25000000
    ∃ t, exec (.loopRMeasureComplete port base sa sb) s = .next t ∧ (t.portX port.val).measuring = false ∧
      (t.portX port.val).valid = true ∧ (t.portX port.val).measAt = some s.now ∧ (t.portX port.val).badRun = 0 ∧
      t.fget b PORT_LOOP_R_LOOP_A = ra % 2 ^ 16 ∧ t.fget b PORT_LOOP_R_LOOP_B = rb % 2 ^ 16 ∧
      (t.portX port.val).trimA = (if ra < rb then min steps 12 else 0) ∧ (t.portX port.val).trimB = (if rb < ra then min steps 12 else 0) ∧
      (s.fbit b PORT_CTRL_VMODE = true → t.fget b PORT_VOUT_V_TARGET = min (min 280 (s.fget b PORT_VSET_VMAX)) s.alloc.ceil) ∧
      t.fbit b PORT_CMD_REMEASURE = false ∧ t.mem = s.mem ∧
      ((∃ v, (r.ra = some v ∨ r.rb = some v) ∧ 12500 < v) ∨ (∃ v, r.ra = some v ∧ loopMoved oldA v = true) ∨
          (∃ v, r.rb = some v ∧ loopMoved oldB v = true) ∨ r.vpd < 42000 →
        ∃ e ∈ t.events, e.source = portEv port.val 3 ∧ e.gallery = s.portOwner port.val)) ∧
  (∀ (s : State) (port : PortNo), s.seqRuns = true → (s.portX port.val).measuring = false → s.powered port.val = true →
    ∃ t, exec (.voltageRampStep port) s = .next t ∧ (t.portX port.val).nowA = rampStep (s.portX port.val).nowA (s.goals port.val).1 ∧
      (t.portX port.val).nowB = rampStep (s.portX port.val).nowB (s.goals port.val).2 ∧ t.events = s.events ∧ t.mem = s.mem) ∧
  (∀ v g : Nat, max (rampStep v g) v - min (rampStep v g) v ≤ 1 ∧ Nat.repeat (fun u => rampStep u g) (max v g - min v g) v = g)

/-- Luminaire frames and instants (R208, R213–R219, R238). -/
def Obligations.LuminaireLink : Prop :=
  (∀ (s : State) (port : PortNo) (l : Lane), s.lumLane port.val = some l → s.lumLive l = true → s.ethReady = true →
    let p := port.val
    (∀ (src : BitVec 48) (linkLocal : Bool) (seq : BitVec 64) (tag : BitVec 16) (nodes : BitVec 8) (cold : Bool) (vendor : BitVec 32),
      let good : Prop := s.portOn p = true ∧ linkLocal = true ∧ seq = 0 ∧ 1 ≤ nodes.toNat ∧ nodes.toNat ≤ 4 ∧ s.dstate l p ≠ dsNone
      let k := min nodes.toNat (s.fget (lumP l p) LUM_PORT_STATE_MAX_NODES)
      (good → ∃ t, exec (.lumHello port src linkLocal seq tag nodes cold vendor) s = .next t ∧ t.lumMac l p = src.toNat ∧
        t.fget (lumP l p) LUM_PORT_STATE_OFFERED = nodes.toNat ∧ t.fget (lumP l p) LUM_PORT_VENDOR = vendor.toNat ∧
        t.accept l p = k ∧ t.dstate l p = (if k = 0 then dsPlain else dsConfig) ∧
        (s.lumMac l p ≠ 0 → s.lumMac l p ≠ src.toNat → t.fbit (lumP l p) LUM_PORT_STATE_REPLACED = true) ∧
        (s.lumMac l p = src.toNat → cold = true →
          t.fget (lumP l p) LUM_PORT_STATE_RESTARTS = min (s.fget (lumP l p) LUM_PORT_STATE_RESTARTS + 1) 0x7FFF) ∧
        nat0 (t.lum l).todo p = (if k = 0 then 0 else 2 ^ k - 1) ∧
        t.fget (laneKey l 0) LUM_RX_CNT = (s.fget (laneKey l 0) LUM_RX_CNT + 1) % 2 ^ 32 ∧
        (s.fbit (laneKey l 0) LUM_CTRL_EN = true →
          t.fget (laneKey l 0) LUM_TX_CNT = (s.fget (laneKey l 0) LUM_TX_CNT + 1 + k) % 2 ^ 32) ∧ t.mem = s.mem) ∧
      (¬ good → exec (.lumHello port src linkLocal seq tag nodes cold vendor) s = .next (s.finc (laneKey l 0) LUM_BAD_CNT))) ∧
    (∀ (src : BitVec 48) (node : Fin 4) (result : BitVec 16), s.portOn p = true → s.lumMac l p = src.toNat → s.dstate l p ≠ dsNone →
      let left := nat0 (s.lum l).todo p - (if (nat0 (s.lum l).todo p).testBit node.val then 2 ^ node.val else 0)
      (result = 0 → ∃ t, exec (.lumConfigReply port src node result) s = .next t ∧ nat0 (t.lum l).todo p = left ∧
        t.dstate l p = (if left = 0 ∧ s.dstate l p = dsConfig then dsLinked else s.dstate l p) ∧ t.mem = s.mem ∧ t.events = s.events) ∧
      (result ≠ 0 → exec (.lumConfigReply port src node result) s =
        .next (s.fset (laneKey l 0) LUM_RX_CNT (s.fget (laneKey l 0) LUM_RX_CNT + 1)))) ∧
    (∃ t, exec (.lumConfigResend port) s = .next t ∧ (t.lum l).todo = (s.lum l).todo ∧ t.dstate l p = s.dstate l p ∧
      (s.lumMay l = true → t.fget (laneKey l 0) LUM_TX_CNT = (s.fget (laneKey l 0) LUM_TX_CNT +
        ((List.range 4).filter (fun k => (nat0 (s.lum l).todo p).testBit k)).length) % 2 ^ 32) ∧ (s.lumMay l = false → t = s)) ∧
    (∀ (src : BitVec 48) (seq : BitVec 64) (tag result : BitVec 16) (entries : List LumStatus), s.portOn p = true →
      s.lumMac l p = src.toNat → s.dstate l p ≠ dsNone →
      let c := nat0 (s.lum l).sent p
      let good : Prop := seq.toNat = s.fget (laneKey l 0) LUM_EPOCH * 0x100000000 + s.fget (laneKey l 0) LUM_COUNT ∧
        tag.toNat = s.fget (laneKey l 0) LUM_COUNT % 0x10000 ∧ result = 0 ∧ entries.length = c
      (c = 0 → exec (.lumLevelReply port src seq tag result entries) s = .next (s.finc (laneKey l 0) LUM_LATE_CNT)) ∧
      (c ≠ 0 → good → ∃ t, exec (.lumLevelReply port src seq tag result entries) s = .next t ∧ (p, entries) ∈ (t.lum l).got ∧
        t.dstate l p = (if s.dstate l p = dsLost then dsLinked else s.dstate l p) ∧ t.events = s.events ∧ t.mem = s.mem) ∧
      (c ≠ 0 → ¬ good → exec (.lumLevelReply port src seq tag result entries) s = .next s))) ∧
  (∀ (s : State) (lane : Lane), ∃ t, exec (.lumBadDatagram lane) s = .next t ∧
    t.fget (laneKey lane 0) LUM_BAD_CNT = min (s.fget (laneKey lane 0) LUM_BAD_CNT + 1) (2 ^ 32 - 1) ∧
    Safety.OnlyRegs [laneKey lane 0 + LUM_BAD_CNT.off] s t) ∧
  (∀ (s : State) (port : PortNo) (l : Lane), s.lumLane port.val = some l →
    (s.dstate l port.val = dsWaitHello → ∃ t, exec (.lumHelloTimeout port) s = .next t ∧ t.dstate l port.val = dsPlain ∧
      Safety.OnlyRegs [lumP l port.val] s t) ∧
    (∃ t, exec (.lumLateReply port) s = .next t ∧
      t.fget (laneKey l 0) LUM_LATE_CNT = min (s.fget (laneKey l 0) LUM_LATE_CNT + 1) (2 ^ 32 - 1) ∧
      Safety.OnlyRegs [laneKey l 0 + LUM_LATE_CNT.off] s t)) ∧
  (∀ s : State, ∃ t, exec .lightTick s = .next t ∧ t.mem = s.mem ∧ ∀ l : Lane,
    let n := if s.mode = .hold then s.tickNo else (s.cyc l).n
    (s.lumLive l = true → n % (s.lum l).div = 0 → t.fget (laneKey l 0) LUM_COUNT = n % 2 ^ 32 ∧
      ∀ p, p < 64 → nat0 (t.lum l).sent p =
        (if s.lumLane p = some l ∧ (s.dstate l p = dsLinked ∨ s.dstate l p = dsLost) then s.accept l p else 0)) ∧
    (¬ (s.lumLive l = true ∧ n % (s.lum l).div = 0) → t.lum l = s.lum l)) ∧
  (∀ s : State, ∃ t, exec .lumReplyWindowClose s = .next t ∧ t.mem = s.mem ∧ t.events = s.events ∧ ∀ l : Lane,
    (s.lumLive l = false → t.lum l = s.lum l) ∧
    (s.lumLive l = true → (t.lum l).shut = true ∧ ∀ p, p < 64 → nat0 (s.lum l).sent p ≠ 0 →
      nat0 (t.lum l).sent p = 0 ∧
      ((∃ g ∈ (s.lum l).got, g.1 = p) → nat0 (t.lum l).miss p = 0 ∧ t.dstate l p = s.dstate l p) ∧
      ((∀ g ∈ (s.lum l).got, g.1 ≠ p) → nat0 (t.lum l).miss p = min (nat0 (s.lum l).miss p + 1) 5 ∧
        t.dstate l p = (if 4 ≤ nat0 (s.lum l).miss p ∧ s.dstate l p = dsLinked then dsLost else s.dstate l p)))) ∧
  (∀ (s : State) (r : Req) (node : BitVec 8) (seconds : BitVec 16) (x : Session) (l : Lane),
    Safety.Writes s r x l 0x1B003C (seconds.toNat * 0x10000 + node.toNat) →
    let taken : Prop := node.toNat % 4 < s.accept l (node.toNat / 4) ∧ (s.dstate l (node.toNat / 4) = dsConfig ∨
      s.dstate l (node.toNat / 4) = dsLinked ∨ s.dstate l (node.toNat / 4) = dsLost)
    ∃ t, exec (.lumIdentify r node seconds) s = .next t ∧ t.lum l = s.lum l ∧
      (taken → s.lumMay l = true → t.fget (laneKey l 0) LUM_TX_CNT = (s.fget (laneKey l 0) LUM_TX_CNT + 1) % 2 ^ 32) ∧
      (¬ taken → t.regs = s.regs))

/-- The light cycle and the hold time (R216). -/
def Obligations.LightCycle : Prop :=
  ∀ div t hold : Nat, 1 ≤ t → t ≤ 10000 →
    let d := lightDiv div t
    5000 ≤ d * t ∧ d * t ≤ 1000000 ∧
    (5000 ≤ max div 1 * t → max div 1 * t ≤ 1000000 → d = max div 1) ∧
    (max div 1 * t < 5000 → (d - 1) * t < 5000) ∧ (1000000 < max div 1 * t → 1000000 < (d + 1) * t) ∧
    1500 ≤ holdTime hold d t ∧ holdTime hold d t ≤ 60000 ∧ 10 * d * t / 1000 ≤ holdTime hold d t

/-- Where the switch can send a frame (R137, R207, R242–R245). -/
def Obligations.VlanIsolation : Prop :=
  ∀ (s : State) (k v e : Nat) (d u : List Byte), s.frameVid k d = some v → e ∈ s.egress k v u →
    (isUplink e = true → s.upVid e v = true) ∧
    (isJack e = true → s.vidGal v = some (s.portOwner (e - 1)) ∧ s.galEn (s.portOwner (e - 1)) = true ∧
      s.galVid (s.portOwner (e - 1)) = v) ∧
    (isJack k = true → e ≠ k ∧ v = s.galVid (s.portOwner (k - 1))) ∧
    (isUplink k = true → isUplink e = false) ∧
    (packetNum u 0 6 = s.lumMacAddr → s.lumMacAddr / 0x10000000000 % 2 = 0 →
      ∃ g l, s.vidGal v = some g ∧ s.grant g = some l ∧ e = laneK l) ∧
    (packetNum u 0 6 = s.mgmtMacAddr → s.mgmtMacAddr / 0x10000000000 % 2 = 0 → s.mgmtMacAddr ≠ s.lumMacAddr →
      isUplink k = true ∧ ∃ l, e = laneK l)

/-- Frames and pauses (R244, R247–R250, R254, R256, R260, R262, R264). -/
def Obligations.SwitchFrames : Prop :=
  let cntOf : State → Nat → Nat → Nat := fun s k i => s.fget (ethB k) ⟨ETH_PORT_CNT.off + 4 * i, 0, 32⟩
  (∀ (s : State) (port : EthPort) (f : Frame) (phy : PhySeen),
    let k := ethK port
    let n := f.bytes.length + 4
    let runs : Prop := s.ethReady = true ∧ s.ethLink k = true ∧ s.fbit (ethB k) ETH_PORT_CTRL_EN = true
    let s0 := ((s.phySeen k phy).cnt k 23 n).octets k n 0
    let s1 := if f.symErr then s0.cnt k 14 1 else s0
    (¬ runs → exec (.frameReceived port f phy) s = .next s) ∧
    (runs → s.mtu k < n →
      exec (.frameReceived port f phy) s = .next (if s.fbit (ethB k) ETH_PORT_CTRL_TRUNC_DROP then s1.cnt k 17 1
        else (s1.cnt k 17 1).frameFilter k (f.bytes.take (s.mtu k - 4)) (fun u => u.switchFrame k (s.mtu k) (f.bytes.take (s.mtu k - 4)) true))) ∧
    (runs → n ≤ s.mtu k →
      (f.fcsBad = true → exec (.frameReceived port f phy) s = .next (s1.cnt k (if n < 64 then 16 else 13) 1)) ∧
      (f.fcsBad = false → n < 64 → exec (.frameReceived port f phy) s = .next (s1.cnt k 15 1)) ∧
      (f.fcsBad = false → 64 ≤ n → exec (.frameReceived port f phy) s = .next
        ((s1.cntFrame k 0 n (packetNum f.bytes 0 6)).frameFilter k f.bytes (fun u => u.switchFrame k n f.bytes false))))) ∧
  (∀ (s : State) (k : Nat) (d : List Byte) (next : State → State),
    ((frameKind (untag d) = .plain ∨ frameKind (untag d) = .luminaire ∨ frameKind (untag d) = .solicit) →
      s.frameFilter k d next = next s) ∧
    (frameKind (untag d) = .pliak → s.frameFilter k d next = (if isJack k then s.cnt k 20 1 else next s)) ∧
    ((frameKind (untag d) = .ptpEvent ∨ frameKind (untag d) = .ptpGeneral) →
      (isJack k = true → s.frameFilter k d next = s.cnt k 20 1) ∧
      (isUplink k = true → let t := s.frameFilter k d next
        cntOf t k 21 = (cntOf s k 21 + 1) % 2 ^ 32 ∧
        ((s.ptpRuns = true ∧ packetNum (untag d) 14 1 % 16 = 2 ∧ s.fbit (ethB k) ETH_PORT_STATUS_LINK_UP = true) →
          t.sent = .ptp k 0xA :: .ptp k 3 :: s.sent) ∧
        (¬ (s.ptpRuns = true ∧ packetNum (untag d) 14 1 % 16 = 2 ∧ s.fbit (ethB k) ETH_PORT_STATUS_LINK_UP = true) →
          t = s.cnt k 21 1)))) ∧
  (∀ (s : State) (k : Nat) (phy : PhySeen), let t := s.phySeen k phy
    cntOf t k 47 = (cntOf s k 47 + phy.errors.toNat) % 2 ^ 32 ∧
    (s.lpiUsed k = true → cntOf t k 22 = (cntOf s k 22 + phy.lpi.toNat) % 2 ^ 32 ∧ t.fbit (ethB k) ETH_PORT_STATUS_LPI_RX = phy.inLpi) ∧
    (s.lpiUsed k = false → cntOf t k 22 = cntOf s k 22)) ∧
  (∀ (s : State) (port : EthPort), s.ethUp = true → s.ethLink (ethK port) = true →
    let k := ethK port
    let free : State → Prop := fun t => t.fbit (ethB k) ETH_PORT_STATUS_PAUSED = false ∧
      ((s.ethX k).changing = none → t.eth.queue = s.eth.queue.filter (fun q => q.egr != k))
    (∀ quanta : BitVec 16, isExternal k = true → ∃ t, exec (.pauseReceived port quanta) s = .next t ∧ t.mem = s.mem ∧
      cntOf t k 5 = (cntOf s k 5 + 1) % 2 ^ 32 ∧
      (s.fbit (ethB k) ETH_PORT_CTRL_RX_PAUSE_EN = false → t = s.cnt k 5 1) ∧
      (s.fbit (ethB k) ETH_PORT_CTRL_RX_PAUSE_EN = true → quanta = 0 → free t) ∧
      (s.fbit (ethB k) ETH_PORT_CTRL_RX_PAUSE_EN = true → quanta ≠ 0 → t.fbit (ethB k) ETH_PORT_STATUS_PAUSED = true ∧
        (t.ethX k).pausedAt = s.now ∧ (t.ethX k).quanta = quanta.toNat ∧ t.canSend k = false ∧ t.eth.queue = s.eth.queue)) ∧
    (∃ t, exec (.pauseQuantaExpired port) s = .next t ∧ t.mem = s.mem ∧ free t)) ∧
  (∀ (s : State) (port : EthPort), s.ethUp = true → s.fbit (ethB (ethK port)) ETH_PORT_STATUS_PAUSING = true →
    let k := ethK port
    (1024 * s.fget (ethB k) ETH_PORT_FLOW_LOW < s.ingressUse k → s.fbit (ethB k) ETH_PORT_CTRL_TX_PAUSE_EN = true →
      ∃ t, exec (.pauseRefresh port) s = .next t ∧ t.sent = .pause k (s.fget (ethB k) ETH_PORT_PAUSE_QUANTA) :: s.sent ∧
        cntOf t k 29 = (cntOf s k 29 + 1) % 2 ^ 32 ∧ t.fbit (ethB k) ETH_PORT_STATUS_PAUSING = true ∧ t.mem = s.mem) ∧
    (s.ingressUse k ≤ 1024 * s.fget (ethB k) ETH_PORT_FLOW_LOW →
      ∃ t, exec (.pauseSendLow port) s = .next t ∧ t.fbit (ethB k) ETH_PORT_STATUS_PAUSING = false ∧ t.mem = s.mem ∧
        t.sent = (if s.fbit (ethB k) ETH_PORT_CTRL_TX_PAUSE_EN then .pause k 0 :: s.sent else s.sent))) ∧
  (∀ (s : State) (port : EthPort) (queue : Fin 4), let k := ethK port
    (∀ q, s.eth.queue.find? (fun q => q.egr == k && q.queue == queue.val) = some q →
      ∃ t, exec (.egressQueueAgeDrop port queue) s = .next t ∧ t.eth.queue = s.eth.queue.erase q ∧ t.mem = s.mem ∧
        t.sent = s.sent ∧ cntOf t k 38 = (cntOf s k 38 + 1) % 2 ^ 32) ∧
    ((∀ q ∈ s.eth.queue, ¬ (q.egr = k ∧ q.queue = queue.val)) → exec (.egressQueueAgeDrop port queue) s = .next s)) ∧
  (∀ (s : State) (vid : BitVec 12) (mac : BitVec 48), ∃ t, exec (.addressAgedOut vid mac) s = .next t ∧
    (∀ e, e ∈ t.eth.macs ↔ e ∈ s.eth.macs ∧ ¬ (e.vid = vid.toNat ∧ e.mac = mac.toNat)) ∧
    t = { s with eth := { s.eth with macs := t.eth.macs } }) ∧
  (∀ (s : State) (r : Req) (port : EthPort) (x : Session) (l : Lane), Safety.Sets s r x l (ethB (ethK port) + 0x30) 1 →
    ∃ t, exec (.ethPortSnap r port) s = .next t ∧ t.events = s.events ∧
      (∀ i, i < 48 → t.rd (ethB (ethK port) + ETH_PORT_SNAPV.off + 4 * i) = s.rd (ethB (ethK port) + ETH_PORT_CNT.off + 4 * i)) ∧
      (∀ k, (∀ i, i < 48 → k ≠ ethB (ethK port) + ETH_PORT_SNAPV.off + 4 * i) → t.rd k = s.rd k))

/-- Link, rate, management and cage events (R240, R243, R244, R251, R252, R255, R263, R265). -/
def Obligations.SwitchLinks : Prop :=
  let cntOf : State → Nat → Nat → Nat := fun s k i => s.fget (ethB k) ⟨ETH_PORT_CNT.off + 4 * i, 0, 32⟩
  let down : State → Nat → State → Prop := fun s k t => t.fbit (ethB k) ETH_PORT_STATUS_LINK_UP = false ∧
    t.fget (ethB k) ETH_PORT_STATUS_SPEED = 0 ∧ t.fbit (ethB k) ETH_PORT_STATUS_LOWERED = false ∧ (t.ethX k).changing = none ∧
    t.eth.queue = s.eth.queue.filter (fun q => q.egr != k) ∧ cntOf t k 42 = (cntOf s k 42 + 1) % 2 ^ 32 ∧ t.mem = s.mem ∧
    (isUplink k = true → Safety.Raised (448 + (k - 65)) 0 true 0 t) ∧
    (isJack k = true → (∀ l, t.dstate l (k - 1) = dsNone ∧ t.accept l (k - 1) = 0) ∧
      (s.portOn (k - 1) = true → ∃ e ∈ t.events, e.source = 460 ∧ e.gallery = s.portOwner (k - 1)))
  (∀ (s : State) (port : EthPort) (speed : BitVec 3) (half mdix eee : Bool), s.inReset 2 = false → s.pwr.refclkLost = false →
    isExternal (ethK port) = true →
    let k := ethK port
    (s.linkMay k speed.toNat = true → isJack k = true → half = true →
      ∃ t, exec (.portLinkChange port true speed half mdix eee) s = .next t ∧ t.fbit (ethB k) ETH_PORT_STATUS_LINK_UP = false ∧
        t.fbit (ethB k) ETH_PORT_STATUS_DUPLEX_REFUSED = true ∧ (t.ethX k).refused = true ∧ t.mem = s.mem) ∧
    (s.linkMay k speed.toNat = true → (isJack k = false ∨ half = false) →
      ∃ t, exec (.portLinkChange port true speed half mdix eee) s = .next t ∧ t.fbit (ethB k) ETH_PORT_STATUS_LINK_UP = true ∧
        t.fget (ethB k) ETH_PORT_STATUS_SPEED = (if isJack k then speed.toNat else s.upSpeed k) ∧
        t.fbit (ethB k) ETH_PORT_STATUS_MDIX = (mdix && isJack k) ∧ (t.ethX k).barred = false ∧ t.mem = s.mem ∧
        (isUplink k = true → Safety.Raised (448 + (k - 65)) 0 false (0x1000000 + s.upSpeed k) t) ∧
        (isJack k = true → ∀ l, s.lumLane (k - 1) = some l → s.portOn (k - 1) = true → s.lumLive l = true →
          s.dstate l (k - 1) = dsNone → t.dstate l (k - 1) = dsWaitHello)) ∧
    (s.linkMay k speed.toNat = false → exec (.portLinkChange port true speed half mdix eee) s = .next s) ∧
    (s.fbit (ethB k) ETH_PORT_STATUS_LINK_UP = true → (s.ethX k).changing = none →
      ∃ t, exec (.portLinkChange port false speed half mdix eee) s = .next t ∧ down s k t)) ∧
  (∀ (s : State) (port : EthPort), exec (.duplexRetry port) s =
    .next (s.setEthX (ethK port) { s.ethX (ethK port) with refused := false })) ∧
  (∀ (s : State) (port : PortNo), s.ethUp = true → (s.ethX (port.val + 1)).changing = none →
    let k := port.val + 1
    (s.rateEnabled k = true → s.fbit (ethB k) ETH_PORT_STATUS_LINK_UP = true → s.fget (ethB k) ETH_PORT_STATUS_SPEED = 3 →
      (s.ethX k).barred = false → s.rateWindow = true → 60 ≤ (s.ethX k).quiet → s.rateBusy k = false →
      (∀ t, (s.ethX k).raisedAt = some t → t + 600000000000 ≤ s.now) →
      ∃ t, exec (.rateLowerDecision port) s = .next t ∧ (t.ethX k).changing = some 2 ∧ t.canSend k = false ∧ t.mem = s.mem) ∧
    (s.fbit (ethB k) ETH_PORT_STATUS_LOWERED = true → (s.rateBusy k = true ∨ 32768 < s.egressUse k) →
      ∃ t, exec (.rateRaiseDecision port) s = .next t ∧ (t.ethX k).changing = some 3 ∧ t.canSend k = false ∧ t.mem = s.mem)) ∧
  (∀ (s : State) (r : Req) (port : EthPort) (x : Session) (l : Lane), s.ethUp = true → isJack (ethK port) = true →
    let k := ethK port
    (Safety.Sets s r x l (ethB k + 4) 2 → s.fbit (ethB k) ETH_PORT_STATUS_LOWERED = true → (s.ethX k).changing = none →
      ∃ t, exec (.ethPortRaise r port) s = .next t ∧ (t.ethX k).changing = some 3) ∧
    (Safety.Sets s r x l (ethB k + 4) 1 → s.fbit (ethB k) ETH_PORT_STATUS_LINK_UP = true →
      ∃ t, exec (.ethPortRelink r port) s = .next t ∧ t.fbit (ethB k) ETH_PORT_STATUS_LINK_UP = false ∧
        t.fget (ethB k) ETH_PORT_STATUS_SPEED = 0)) ∧
  (∀ (s : State) (port : PortNo) (v : Nat), (s.ethX (port.val + 1)).changing = some v → v = 2 ∨ v = 3 →
    let k := port.val + 1
    (∃ t, exec (.rateChangeLinkUp port) s = .next t ∧ t.fbit (ethB k) ETH_PORT_STATUS_LINK_UP = true ∧
      t.fget (ethB k) ETH_PORT_STATUS_SPEED = v ∧ t.fbit (ethB k) ETH_PORT_STATUS_LOWERED = (v == 2) ∧ t.mem = s.mem ∧
      cntOf t k (if v = 2 then 43 else 44) = (cntOf s k (if v = 2 then 43 else 44) + 1) % 2 ^ 32 ∧
      (s.fbit (ethB k) ETH_PORT_STATUS_PAUSED = false → t.eth.queue = s.eth.queue.filter (fun q => q.egr != k)) ∧
      (v = 3 → (t.ethX k).changing = none ∧ (t.ethX k).raisedAt = some s.now) ∧
      (v = 2 → s.rateEnabled k = true → (t.ethX k).changing = none) ∧
      (v = 2 → s.rateEnabled k = false → s.ethUp = true → (t.ethX k).changing = some 3)) ∧
    (∃ t, exec (.rateChangeFailed port) s = .next t ∧ (t.ethX k).barred = true ∧ down s k t ∧
      (s.portOn port.val = true → Safety.Raised 461 0 true (k * 0x1000000 + (if v = 2 then 1 else 2)) t))) ∧
  (∀ (s : State) (uplink : Bus) (vid : Option (BitVec 12)) (ask : MgmtAsk), s.ethReady = true → s.ethLink (uplinkK uplink) = true →
    let k := uplinkK uplink
    let tag := (vid.getD 0).toNat
    let v := if tag = 0 then s.mgmtVid else tag
    let carried : Prop := s.upVid k v = true ∧ (tag = 0 → s.mgmtUntagged = true)
    (carried → exec (.mgmtInterfaceRequest uplink vid ask) s = .next (if s.mgmtHolds v ask then s.send (.mgmt k v ask) else s)) ∧
    (¬ carried → exec (.mgmtInterfaceRequest uplink vid ask) s = .next (s.cnt k 18 1))) ∧
  (∀ (s : State) (r : Req) (w : BitVec 32) (x : Session) (l : Lane),
    (Safety.Writes s r x l 0x100010 w.toNat →
      ∃ t, exec (.mgmtVidWrite r w) s = .next t ∧ t.mgmtVid = w.toNat % 0x1000 ∧ t.mgmtUntagged = w.getLsbD 12 ∧ t.events = s.events ∧
        (∀ k, k ≠ 0x100010 → t.rd k = s.rd k)) ∧
    (Safety.Served s r 0x12 12 x l → s.rd 0x11000 = 0 → (Safety.took s r x).regJudge l 0x100010 = .ok →
      (∃ g, g < 64 ∧ s.galEn g = true ∧ s.fget (galB g) HG_GAL_LIVE_VID = w.toNat % 0x1000) →
      exec (.mgmtVidWrite r w) s = .next (Safety.replied (Safety.took s r x) s r x l 0x12 .range []))) ∧
  (∀ (s : State) (cage : Bus) (level : BitVec 8) (kind : SfpKind), s.ethUp = true →
    let code := if 2 < level.toNat then 3 else if sfpServed kind = false then 4 else 1
    (s.fbit 0 (cageF cage ETH_CAGE_A_PRESENT) = false →
      ∃ t, exec (.sfpInserted cage level kind) s = .next t ∧ t.fbit 0 (cageF cage ETH_CAGE_A_PRESENT) = true ∧
        t.fget 0 (cageF cage ETH_CAGE_A_CODE) = code ∧ (t.cage cage).txDisable = (code != 1) ∧ (t.cage cage).on = (code != 3) ∧
        (code = 1 → t.fbit 0 (cageF cage ETH_CAGE_A_POWERED) = true) ∧ Safety.Raised (450 + busNum cage) 0 (code != 1) code t ∧
        Safety.OnlyRegs [(cageF cage ETH_CAGE_A_CODE).off] s { t with eth := s.eth }) ∧
    (s.fbit 0 (cageF cage ETH_CAGE_A_PRESENT) = true → exec (.sfpInserted cage level kind) s = .next s)) ∧
  (∀ (s : State) (cage : Bus), s.ethUp = true →
    ∃ t, exec (.sfpRemoved cage) s = .next t ∧ t.fbit 0 (cageF cage ETH_CAGE_A_PRESENT) = false ∧
      t.fbit 0 (cageF cage ETH_CAGE_A_POWERED) = false ∧ t.fbit (ethB (uplinkK cage)) ETH_PORT_STATUS_LINK_UP = false ∧
      t.cage cage = .empty ∧ Safety.Raised (450 + busNum cage) 0 false 2 t ∧ t.mem = s.mem) ∧
  (∀ (s : State) (cage : Bus) (txFault los : Bool) (ddm : BitVec 16), s.ethUp = true → s.fbit 0 (cageF cage ETH_CAGE_A_PRESENT) = true →
    let fresh : Prop := (txFault = true ∧ s.fbit 0 (cageF cage ETH_CAGE_A_TX_FAULT) = false) ∨
      (los = true ∧ s.fbit 0 (cageF cage ETH_CAGE_A_LOS) = false) ∨
      ∃ i, i < 16 ∧ ddm.getLsbD i = true ∧ (s.cage cage).flags.testBit i = false
    ∃ t, exec (.sfpAlarmPoll cage txFault los ddm) s = .next t ∧ t.fbit 0 (cageF cage ETH_CAGE_A_TX_FAULT) = txFault ∧
      t.fbit 0 (cageF cage ETH_CAGE_A_LOS) = los ∧ t.fbit 0 (cageF cage ETH_CAGE_A_DDM_ALARM) = (ddm != 0) ∧
      (t.cage cage).flags = ddm.toNat ∧ (fresh → ∃ e ∈ t.events, e.source = 450 + busNum cage ∧ e.gallery = 0 ∧ e.urgent = true) ∧
      (¬ fresh → t.events = s.events) ∧ Safety.OnlyRegs [(cageF cage ETH_CAGE_A_CODE).off] s { t with eth := s.eth })

/-- gPTP (R256–R258). -/
def Obligations.GptpStates : Prop :=
  (∀ s : State, s.ethUp = true →
    let st := s.ptpState
    let id : State → Nat := fun t => t.fget 0 ETH_PTP_GM_LO + 0x100000000 * t.fget 0 ETH_PTP_GM_HI
    let moves : Nat → State → Prop := fun n t => t.ptpState = n ∧ (st ≠ n → Safety.Raised 457 0 (n == ptpHoldover) (16 * st + n) t) ∧
      t.mem = s.mem
    (∀ (uplink : Bus) (a : Announce), s.ptpBetter a = true → st ≠ ptpDisabled →
      ∃ t, exec (.ptpGmSelected (some (uplink, a))) s = .next t ∧
        moves (if st = ptpListening ∨ st = ptpGrandmaster then ptpSyncing else st) t ∧ id t = a.gm.toNat ∧
        t.fget 0 ETH_PTP_STATUS_STEPS = a.steps.toNat ∧ t.fget 0 ETH_PTP_STATUS_PORT = busNum uplink ∧
        (id s ≠ a.gm.toNat → Safety.Raised 458 0 false (a.gm.toNat % 2 ^ 32) t)) ∧
    (∀ best : Option (Bus × Announce), (∀ u a, best = some (u, a) → s.ptpBetter a = false) →
      (st = ptpListening → s.fget 0 ETH_PTP_CTRL_PRIORITY1 ≠ 255 →
        ∃ t, exec (.ptpGmSelected best) s = .next t ∧ moves ptpGrandmaster t ∧ t.fget 0 ETH_PTP_STATUS_STEPS = 0 ∧
          id t = s.ptpOwnId % 2 ^ 64) ∧
      ((st ≠ ptpListening ∨ s.fget 0 ETH_PTP_CTRL_PRIORITY1 = 255) → exec (.ptpGmSelected best) s = .next s)) ∧
    (∀ best : Option (Bus × Announce), st = ptpDisabled → exec (.ptpGmSelected best) s = .next s) ∧
    (∀ (uplink : Bus) (a : Announce),
      (st = ptpGrandmaster → s.ptpBetter a = true →
        ∃ t, exec (.ptpBetterGm uplink a) s = .next t ∧ moves ptpSyncing t ∧ id t = a.gm.toNat) ∧
      ((st ≠ ptpGrandmaster ∨ s.ptpBetter a = false) → exec (.ptpBetterGm uplink a) s = .next s)) ∧
    (st = ptpSyncing → ∃ t, exec .ptpLockAchieved s = .next t ∧ moves ptpLocked t) ∧
    (st ≠ ptpSyncing → exec .ptpLockAchieved s = .next s) ∧
    (∀ o : BitVec 32,
      (st = ptpLocked → ∃ t, exec (.ptpOffsetExceeded o) s = .next t ∧ moves ptpSyncing t ∧
        ((∀ w ∈ s.rates, w.is 459 0 = true → w.isOpen s.now = false) → Safety.Raised 459 0 true o.toNat t)) ∧
      (st ≠ ptpLocked → exec (.ptpOffsetExceeded o) s = .next s)) ∧
    ((st = ptpSyncing ∨ st = ptpLocked) → ∃ t, exec .ptpSyncLost s = .next t ∧ moves ptpHoldover t ∧ t.fbit 0 RTC_STATUS_DISC = false) ∧
    (st ≠ ptpSyncing → st ≠ ptpLocked → exec .ptpSyncLost s = .next s) ∧
    (st = ptpHoldover → (∃ t, exec .ptpSyncResumed s = .next t ∧ moves ptpSyncing t) ∧
      (∃ t, exec .ptpHoldoverExpired s = .next t ∧ moves ptpListening t)) ∧
    (st ≠ ptpHoldover → exec .ptpSyncResumed s = .next s ∧ exec .ptpHoldoverExpired s = .next s) ∧
    (∀ (offset : BitVec 64) (rate : BitVec 32) (steps : BitVec 8) (da db : BitVec 32), (st = ptpSyncing ∨ st = ptpLocked) →
      -100000000 < s.eth.rate →
      ∃ t, exec (.ptpSyncReceived offset rate steps da db) s = .next t ∧ t.ptpState = st ∧ t.eth.rate = rate.toInt ∧
        (t.ptpTime : Int) % (ptpRange : Int) = ((s.ptpTime : Int) - offset.toInt) % (ptpRange : Int) ∧
        toSigned 32 (t.fget 0 ETH_PTP_OFFSET) = max (min offset.toInt 2147483647) (-2147483648) ∧
        t.fget 0 CLK_REF_OFFSET = rate.toNat ∧ t.fget 0 ETH_PTP_STATUS_STEPS = steps.toNat ∧
        t.fget 0 ETH_PTP_PDELAY_A = da.toNat ∧ t.fget 0 ETH_PTP_PDELAY_B = db.toNat ∧ t.events = s.events ∧ t.mem = s.mem)) ∧
  (∀ (s : State) (r : Req) (w : BitVec 32) (x : Session) (l : Lane), Safety.Writes s r x l 0x100040 w.toNat →
    ∃ t, exec (.ptpEnableChange r w) s = .next t ∧
      (w.getLsbD 31 = false → t.ptpState = ptpDisabled) ∧
      (w.getLsbD 31 = true → t.ptpState = (if s.ptpState = ptpDisabled then ptpListening else s.ptpState)))

/-- The cycle tick and the executor's command register (R259, R278, R279, R309). -/
def Obligations.CycleTick : Prop :=
  (∀ s : State, s.inReset 1 = false → s.pwr.refclkLost = false →
    ∃ t, exec .cycleTick s = .next t ∧ t.tickNo = (s.tickNo + 1) % 2 ^ 32 ∧ t.tickAt = s.now ∧ t.tickDue = s.slewTick ∧ t.now = s.now ∧
      t = (let n := s.nextTick
        let u := ({ s.mirrorIdle.tickModes with tickNo := n, tickAt := s.now, tickDue := s.slewTick } : State).tickActs n
        let v := (((((u.tickNote n).canReconfigEnd.lumNote .a n).lumNote .b n).lumLatch .a).lumLatch .b).latchIn n
        ((v.mirrorSwap.idleReserve .a).idleReserve .b).staleCheck)) ∧
  (∀ s : State, s.inReset 1 = true ∨ s.pwr.refclkLost = true → exec .cycleTick s = .next s) ∧
  (∀ (s : State) (n e : Nat), e < 8192 → (s.point e).ptype ≠ 0 → (s.latchIn n).inVal n e = s.liveIn e) ∧
  (∀ s : State, (s.ptpOk = false → s.slewTick = s.now + s.periodNs) ∧ s.slewTick ≤ s.now + s.periodNs + 1000 ∧
    s.now + s.periodNs ≤ s.slewTick + 1000) ∧
  (∀ (s : State) (r : Req) (on : Bool) (x : Session) (l : Lane), Safety.Writes s r x l 0x1A0030 (if on then 2 else 0) →
    ∃ t, exec (.coldNextWrite r on) s = .next t ∧ t.fbit (cycB .a) CYC_CMD_COLD_NEXT = on ∧ t.fbit (cycB .b) CYC_CMD_COLD_NEXT = on ∧
      t.events = s.events ∧ (∀ k, k ≠ laneKey .a 0x1A0030 → k ≠ laneKey .b 0x1A0030 → t.rd k = s.rd k)) ∧
  (∀ (s : State) (r : Req) (x : Session) (l : Lane), Safety.Sets s r x l 0x1A0030 1 →
    let cleared : Nat → Prop := fun a => a ∈ [0x1A0014, 0x1A0018, 0x1A001C, 0x1A0020] ∨ (0x1A0100 ≤ a ∧ a < 0x1A0500 ∧ 8 ≤ a % 16)
    ∃ t, exec (.cycClrStats r) s = .next t ∧ t.events = s.events ∧ (∀ a, cleared a → t.rd (laneKey l a) = regReset (laneKey l a)) ∧
      (∀ k, k ≠ laneKey .a 0x1A0030 → k ≠ laneKey .b 0x1A0030 → (∀ a, cleared a → k ≠ laneKey l a) → t.rd k = s.rd k))

/-- The phases of a cycle, commits and program steps (R269, R272–R284, R296, R302, R303). -/
def Obligations.CyclePhases : Prop :=
  (∀ (s : State) (lane : Lane) (n t : Nat), s.runsCycles lane = true → (s.cyc lane).phase = .waiting → s.nextCycle lane = some (n, t) →
    ∃ u, exec (.computeStart lane) s = .next u ∧ (u.cyc lane).phase = .computing ∧ (u.cyc lane).n = n ∧
      (u.cyc lane).tickAt = t ∧ (u.cyc lane).startAt = s.now ∧ (u.cyc lane).late = decide (t + 2000 < s.now) ∧ (u.cyc lane).staged = [] ∧
      u.fbit (cycB lane) CYC_STATUS_LAGGING = decide (t + 2000 < s.now) ∧
      (∀ f ∈ (s.tickRec n).forces, f.ptype ≠ 16 → (s.point f.index).ptype = 3 →
        (∀ g ∈ (s.tickRec n).forces, g.ptype ≠ 16 → g.index = f.index → g = f) → nat0 (u.cyc lane).vars f.index = f.value)) ∧
  (∀ (s : State) (lane : Lane) (times : List (Fin 64 × BitVec 32)), s.runsCycles lane = true → (s.cyc lane).phase = .computing →
    ∃ u, exec (.cellsDone lane times) s = .next u ∧ (u.cyc lane).phase = .done ∧ (u.cyc lane).doneAt = s.now ∧
      (u.cyc lane).n = (s.cyc lane).n ∧ (u.cyc lane).staged = ((s.cycleRun lane (s.cyc lane).n).cyc lane).staged ∧
      u.fget (cycB lane) CYC_COMPUTE_MAX = max ((s.cycleRun lane (s.cyc lane).n).fget (cycB lane) CYC_COMPUTE_MAX)
        (min ((s.now - (s.cyc lane).startAt) / 1000) (2 ^ CYC_COMPUTE_MAX.width - 1))) ∧
  (∀ (s : State) (lane : Lane), s.runsCycles lane = true → (s.cyc lane).phase = .done →
    ∃ u, exec (.commitStart lane) s = .next u ∧ (u.cyc lane).phase = .committing ∧ (u.cyc lane).n = (s.cyc lane).n ∧
      (u.cyc lane).staged = (s.cyc lane).staged) ∧
  (∀ (s : State) (lane : Lane), s.runsCycles lane = true → (s.cyc lane).phase = .committing →
    let lag := (s.now - ((s.cyc lane).tickAt + 1000 * s.fget (cycB lane) CYC_TIMING_COMMIT + 2000)) / 1000
    ∃ u, exec (.outputRelease lane) s = .next u ∧ (u.cyc lane).phase = .released ∧ (u.cyc lane).relAt = s.now ∧
      (u.cyc lane).lag = lag ∧ (u.cyc lane).overrun = false ∧ u.fget (cycB lane) CYC_DONE = (s.cyc lane).n % 2 ^ 32 ∧
      (u.cyc lane).rel.n = (s.cyc lane).n ∧ (u.cyc lane).relOut = u.committed ∧
      ((s.cyc lane).overrun = true → (∀ w ∈ s.rates, w.is 512 0 = true → w.isOpen s.now = false) → Safety.Raised 512 0 true lag u)) ∧
  (∀ (s : State) (lane : Lane), s.runsCycles lane = true → (s.cyc lane).phase = .released →
    ∃ u, exec (.endOfCycle lane) s = .next u ∧ (u.cyc lane).phase = .waiting ∧ (u.cyc lane).stage = (s.cyc lane).snap ∧
      (u.cyc lane).n = (s.cyc lane).n ∧ (u.cyc lane).idleLow = none ∧ u.fbit (cycB lane) CYC_STATUS_LAGGING = false ∧ u.mem = s.mem) ∧
  (∀ (s : State) (lane : Lane), s.runsCycles lane = true → (s.cyc lane).phase ≠ .waiting → (s.cyc lane).phase ≠ .stopped →
    cyclesAfter s.tickNo (s.cyc lane).n ≠ 0 → (s.cyc lane).overrun = false →
    ∃ u, exec (.cycleOverrun lane) s = .next u ∧ u.fbit (cycB lane) CYC_STATUS_OVERRUN = true ∧
      u.fget (cycB lane) CYC_OVR_CNT = min (s.fget (cycB lane) CYC_OVR_CNT + 1) (2 ^ 32 - 1) ∧
      (u.cyc lane).overrun = decide ((s.cyc lane).phase ≠ .released) ∧ (u.cyc lane).phase = (s.cyc lane).phase ∧ u.mem = s.mem ∧
      ((s.cyc lane).phase = .released → (∀ w ∈ s.rates, w.is 512 0 = true → w.isOpen s.now = false) →
        Safety.Raised 512 0 true (s.cyc lane).lag u)) ∧
  (∀ (s : State) (lane : Lane), s.runsCycles lane = true →
    (s.fbit (cycB lane) CYC_STATUS_RETAIN_LAG = false → ∃ u, exec (.retainLagDetected lane) s = .next u ∧
      u.fbit (cycB lane) CYC_STATUS_RETAIN_LAG = true ∧
      Safety.Raised 520 0 true (cyclesAfter (s.fget (cycB lane) CYC_DONE) (s.fget (cycB lane) CYC_RETAIN_CYCLE)) u ∧
      Safety.OnlyRegs [cycB lane + CYC_STATUS_RETAIN_LAG.off] s u) ∧
    (s.fbit (cycB lane) CYC_STATUS_RETAIN_LAG = true → exec (.retainLagDetected lane) s = .next s)) ∧
  (∀ (s : State) (lane : Lane), (s.cyc lane).phase = .waiting →
    (∀ times, exec (.cellsDone lane times) s = .next s) ∧ exec (.commitStart lane) s = .next s ∧
    exec (.outputRelease lane) s = .next s ∧ exec (.endOfCycle lane) s = .next s ∧ exec (.cycleOverrun lane) s = .next s) ∧
  (∀ (s : State) (l : Lane) (i : ProgImage) (n : Nat),
    (∀ d, d ∈ s.dueTasks l i n ↔ d ∈ i.tasks ∧ s.taskRuns l d.task.val = true ∧ multOf i d ≠ 0 ∧ n % multOf i d = d.phase % multOf i d) ∧
    (s.dueTasks l i n).Pairwise (fun a b => a.prio.toNat < b.prio.toNat ∨ (a.prio.toNat = b.prio.toNat ∧ a.task.val ≤ b.task.val))) ∧
  (∀ (s : State) (l : Lane) (e v : Nat), let p := s.point e
    let g := s.pointOwner e
    let t := s.commitOne l (e, v)
    ((p.ptype = 0 ∨ s.slotEmpty l p = true ∨ s.taskOwner p.task ≠ g) → t = s) ∧
    (p.ptype ≠ 0 → s.slotEmpty l p = false → s.taskOwner p.task = g →
      (s.granted l g = true → nat0 t.committed e = (match s.forcedIn (s.cyc l).n e with
        | some f => if p.ptype = 2 ∨ p.ptype = 3 ∨ s.bindIsOut p.bind = true then f else v
        | none => v) ∧ (∀ d, d ≠ e → nat0 t.committed d = nat0 s.committed d)) ∧
      (s.granted l g = false → t.committed = s.committed ∧
        ((∃ q, p.bind = .port q) → t = s) ∧
        ((∀ q, p.bind ≠ .port q) → t.fget 0 HG_GRANT_REJ = min (s.fget 0 HG_GRANT_REJ + 1) (2 ^ HG_GRANT_REJ.width - 1))))) ∧
  (∀ (s : State) (x : ProgCtx) (r : Run) (t : BitVec 4),
    (∀ (a b : Nat) (st : List Sys2Proof.Machine.Val), r.stack = .num b :: .num a :: st → tyReal t.toNat = false → tyInt t.toNat b = 0 →
      s.progStep x r (.bin .div t) = (s.progErr x 1, r.next (.num 0 :: st)) ∧
      s.progStep x r (.bin .mod t) = (s.progErr x 1, r.next (.num 0 :: st))) ∧
    (∀ (y : ElemTy) (p : Place) (dims : List (Int × Int)) (is : List Int) (v : Sys2Proof.Machine.Val) (st : List Sys2Proof.Machine.Val), arrayAt dims is = none →
      (takeIndices dims.length r.stack [] = some (is, st) →
        s.progStep x r (.loadAt y p dims) = (s.progErr x 2, r.next (elemZero y :: st))) ∧
      (∀ u, r.stack = v :: u → takeIndices dims.length u [] = some (is, st) →
        s.progStep x r (.storeAt y p dims) = (s.progErr x 2, r.next st))) ∧
    (∀ (exit n k : Nat) (ls : List (Nat × Nat)), r.loops = (n, k) :: ls →
      (16 * n ≤ k → s.progStep x r (.loopNext exit) = (s.progErr x 3, { r.jump exit r.stack with loops := ls })) ∧
      (k < 16 * n → s.progStep x r (.loopNext exit) = (s, { r.next r.stack with loops := (n, k + 1) :: ls }))) ∧
    (∀ (p : Place) (lo hi : Int) (v : Nat) (st : List Sys2Proof.Machine.Val), r.stack = .num v :: st → (tyInt t.toNat v < lo ∨ hi < tyInt t.toNat v) →
      s.progStep x r (.storeIn t p lo hi) = (s.progErr x 5).storeStep x r (.num t) p 0 (.num (tyWrap t.toNat (clampI lo hi (tyInt t.toNat v)))) st) ∧
    (∀ (o : BitVec 17) (v : Nat) (st : List Sys2Proof.Machine.Val),
      (x.at_.base + o.toNat < s.codeEnd x.at_.host ∨ 0x1F000 < x.at_.base + o.toNat + elemBytes (.num t)) →
      s.progStep x r (.load (.num t) (.data o)) = (s, r.trapped) ∧
      (r.stack = .num v :: st → s.progStep x r (.store (.num t) (.data o)) = (s, r.trapped))) ∧
    (∀ code : Nat, code < 256 → let u := s.progErr x code
      u.fget (taskB x.lane x.dt.task.val) CYC_TASK_FAULT_LAST_CODE = code ∧
      u.fget (taskB x.lane x.dt.task.val) CYC_TASK_FAULT_COUNT =
        min (s.fget (taskB x.lane x.dt.task.val) CYC_TASK_FAULT_COUNT + 1) (2 ^ CYC_TASK_FAULT_COUNT.width - 1) ∧ u.mem = s.mem))

/-- The control law and the bumpless preset (R319, R320). -/
def Obligations.ControlLaw : Prop :=
  (∀ (p : LoopPar) (ll : Bool) (n b c h r y xout : Frac) (z t : LoopVars) (sat : Nat),
    0 < p.umin.den → 0 < p.umax.den → 0 < p.rate.den → 0 < h.den → 0 < h.num → 0 < z.u.den → p.umax.lt p.umin = false →
    loopLaw p ll n b c h r y xout z = some (t, sat) →
    (p.rate.num ≤ 0 → 0 < (t.w.add xout).den → p.umin.le t.u = true ∧ t.u.le p.umax = true) ∧
    (0 < p.rate.num → 0 < (t.w.add xout).den → (z.u.sub (p.rate.mul h)).le t.u = true ∧ t.u.le (z.u.add (p.rate.mul h)) = true)) ∧
  (∀ (p : LoopPar) (ll : Bool) (n b c h r y u : Frac),
    (∀ x ∈ [p.kp, p.ti, p.td, p.umin, p.umax, p.rate, p.tlead, p.tlag, n, b, c, h, r, y, u], 0 < x.den) →
    0 < h.num → 0 ≤ n.num → 0 ≤ p.td.num → 0 ≤ p.rate.num → 0 ≤ p.tlag.num → p.umin.le u = true → u.le p.umax = true →
    ∃ t sat, loopLaw p ll n b c h r y Frac.zero (loopPreset p b c r y u) = some (t, sat) ∧ t.u.eq u = true)

/-- Loop samples, tests and captures (R311–R314, R323, R326, R327, R329, R330, R333). -/
def Obligations.LoopEngine : Prop :=
  (∀ (s : State) (lane : Lane),
    (s.runsCycles lane = true →
      let due := (s.loopSlots lane).filter (fun q => s.loopDue lane q (s.ptpTime / 125000) (s.ptpTime % 125000 / 25000))
      ∃ t, exec (.loopSubframeStart lane) s = .next t ∧
        t = (due.foldl (fun u q => u.loopSample lane q (s.ptpTime / 125000)) s).fmax (loopC lane) LOOP_LOAD_MAX_SAMPLES due.length ∧
        t.fget (loopC lane) LOOP_LOAD_MAX_SAMPLES = max (s.fget (loopC lane) LOOP_LOAD_MAX_SAMPLES)
          (min due.length (2 ^ LOOP_LOAD_MAX_SAMPLES.width - 1)) ∧
        ((∃ d, d < 4 ∧ (s.fget (loopC lane) LOOP_CTRL_DP_OK).testBit d = true) →
          ∀ q ∈ due, (s.loopX lane q).job = none → (t.loopX lane q).job.isSome = true)) ∧
    (s.runsCycles lane = false → exec (.loopSubframeStart lane) s = .next s)) ∧
  (∀ (s : State) (lane : Lane) (slot : Fin 1024),
    (∀ j, s.runsCycles lane = true → (s.loopX lane slot.val).job = some j →
      ∃ t, exec (.loopComputationDone lane slot) s = .next t ∧ (t.loopX lane slot.val).job = none ∧
        t.fget (loopS lane slot.val) LOOPS_OUT = j.u % 2 ^ 32 ∧
        (j.law = true → t.fget (loopS lane slot.val) LOOPS_INTEG = j.integ % 2 ^ 32 ∧
          t.fget (loopS lane slot.val) LOOPS_DERIV = j.deriv % 2 ^ 32) ∧
        (s.fget (loopD lane slot.val) LOOP_DST_KIND = 0 → t.fbit (loopS lane slot.val) LOOPS_STAT_DST_FAULT = false) ∧
        (4 ≤ s.fget (loopD lane slot.val) LOOP_DST_KIND → t.fbit (loopS lane slot.val) LOOPS_STAT_DST_FAULT = true)) ∧
    (s.runsCycles lane = false ∨ (s.loopX lane slot.val).job = none → exec (.loopComputationDone lane slot) s = .next s)) ∧
  (∀ (s : State) (lane : Lane) (dp : Fin 4), let ok := s.fget (loopC lane) LOOP_CTRL_DP_OK
    (s.procRuns lane = true → ok.testBit dp.val = true → ∃ t, exec (.loopDatapathCheck lane dp false) s = .next t ∧
      t.fget (loopC lane) LOOP_CTRL_DP_OK = ok - 2 ^ dp.val ∧ Safety.Raised 551 0 true (ok - 2 ^ dp.val) t) ∧
    ((s.procRuns lane = false ∨ ok.testBit dp.val = false) → exec (.loopDatapathCheck lane dp false) s = .next s) ∧
    exec (.loopDatapathCheck lane dp true) s = .next s) ∧
  (∀ (s : State) (r : Req) (slot : BitVec 16) (signal buffer : BitVec 8) (amp arg : BitVec 32) (x : Session) (l : Lane),
    Safety.Served s r 0x80 12 x l →
    let u := Safety.took s r x
    let m := u.loopHome slot.toNat l
    let res := u.testCheck m slot.toNat (signal.toNat % 16 == 15) (signal.toNat / 16) (signal.toNat % 16) buffer.toNat amp.toNat arg.toNat
    (res ≠ .ok → exec (.loopTest r slot signal buffer amp arg) s = .next (Safety.replied u s r x l 0x80 res [])) ∧
    (res = .ok → signal.toNat % 16 = 15 →
      exec (.loopTest r slot signal buffer amp arg) s = .next (Safety.replied (u.testEnd m slot.toNat 2) s r x l 0x80 .ok [])) ∧
    (res = .ok → signal.toNat % 16 ≠ 15 →
      ∃ v, exec (.loopTest r slot signal buffer amp arg) s = .next (Safety.replied v s r x l 0x80 .ok []) ∧
      (v.loopX m slot.toNat).test = some ⟨signal.toNat, buffer.toNat, amp.toNat, arg.toNat, s.now, false, 0, 2 ^ (arg.toNat % 256) - 1, 0⟩ ∧
      v.fbit (loopS m slot.toNat) LOOPS_STAT_TEST = true ∧ v.mem = s.mem ∧ v.events = s.events ∧
      (∀ b, b < 4 → (b = buffer.toNat % 16 ∨ b = buffer.toNat / 16) → v.fget (capB m b) LOOP_CAP_STATUS_STATE = 1 ∧
        v.fget (capB m b) LOOP_CAP_STATUS_SLOT = slot.toNat ∧ ∀ i, v.capGet m b i = 0x7FC00000))) ∧
  (∀ (s : State) (r : Req) (slot : BitVec 16) (point : BitVec 4) (buffer : BitVec 8) (amp arg : BitVec 32) (x : Session) (l : Lane),
    Safety.Served s r 0x80 12 x l →
    let u := Safety.took s r x
    let m := u.loopHome slot.toNat l
    let res := u.testCheck m slot.toNat true point.toNat 15 buffer.toNat amp.toNat arg.toNat
    (res = .ok → exec (.loopTestStop r slot point buffer amp arg) s = .next (Safety.replied (u.testEnd m slot.toNat 2) s r x l 0x80 .ok [])) ∧
    (res ≠ .ok → exec (.loopTestStop r slot point buffer amp arg) s = .next (Safety.replied u s r x l 0x80 res []))) ∧
  (∀ (s : State) (l : Lane) (q code : Nat) (t : LoopTest), (s.loopX l q).test = some t → let u := s.testEnd l q code
    (u.loopX l q).test = none ∧ u.fbit (loopS l q) LOOPS_STAT_TEST = false ∧ u.mem = s.mem ∧
      Safety.Raised 548 0 false (q * 0x10000 + t.buffer * 256 + code) u) ∧
  (∀ (s : State) (r : Req) (buffer : BitVec 8) (start count : BitVec 16) (x : Session) (l : Lane), Safety.Served s r 0x81 8 x l →
    let u := Safety.took s r x
    let good : Prop := buffer.toNat ≤ 3 ∧ 1 ≤ count.toNat ∧ count.toNat ≤ 256 ∧ start.toNat + count.toNat ≤ 16384
    (good → exec (.captureRead r buffer start count) s = .next (Safety.replied u s r x l 0x81 .ok
      ((List.range count.toNat).flatMap (fun i => beBytes 4 (u.capGet l buffer.toNat (start.toNat + i)))))) ∧
    (¬ good → exec (.captureRead r buffer start count) s = .next (Safety.replied u s r x l 0x81 .range []))) ∧
  (∀ (s : State) (r : Req) (b : Fin 4) (x : Session) (l : Lane), Safety.Sets s r x l (0x18010C + 0x10 * b.val) 1 →
    let st := s.fget (capB l b.val) LOOP_CAP_STATUS_STATE
    ∃ t, exec (.loopCaptureClear r b) s = .next t ∧
      (st ≠ 1 → st ≠ 2 → (∀ i, i < 16384 → t.capGet l b.val i = 0x7FC00000) ∧
        (∀ k, capB l b.val ≤ k → k < capB l b.val + 0xC → t.rd k = regReset k) ∧
        (∀ k, (k < capB l b.val ∨ capB l b.val + 0xC ≤ k) → t.rd k = s.rd k)) ∧
      ((st = 1 ∨ st = 2) → t.regs = s.regs ∧ ∀ i, t.capGet l b.val i = s.capGet l b.val i)) ∧
  (∀ (s : State) (r : Req) (x : Session) (l : Lane), Safety.Sets s r x l 0x180000 2 →
    ∃ t, exec (.loopClrStats r) s = .next t ∧ t.fget (loopC l) LOOP_LOAD_MAX_SAMPLES = 0 ∧ t.fget (loopC l) LOOP_DELAY_MAX_DELAY = 0 ∧
      t.fget (loopC l) LOOP_OVR_TOTAL = 0 ∧ t.events = s.events ∧
      (∀ q, q < 1024 → t.fget (loopS l q) LOOPS_OVR = 0 ∧ t.fget (loopD l q) LOOP_DELAY_MAX = 0))

/-- Where energy goes (R344, R349–R351, R353). -/
def Obligations.EnergyCredit : Prop :=
  (∀ (s : State) (i j de ts te : Nat), j < 5 →
    let t := s.inAdd i j de ts te
    mNat t.energy.ins (5 * i + j) = mNat s.energy.ins (5 * i + j) + de ∧
    (∀ k, k ≠ 5 * i + j → mNat t.energy.ins k = mNat s.energy.ins k) ∧
    (∀ g, g < 64 → mNat t.energy.gals (4 * g + j) = mNat s.energy.gals (4 * g + j) +
      (if j < 2 ∧ g = s.inputOwner i then de else 0)) ∧
    t.energy.ports = s.energy.ports ∧ t.mem = s.mem ∧ t.tickNo = s.tickNo) ∧
  (∀ (s : State) (port : PortNo) (power volts amps : BitVec 32),
    (s.pwr.refclkLost = false → ∃ t, exec (.portMeterSample port power volts amps) s = .next t ∧
      let de := mNat t.energy.ports (2 * port.val) - mNat s.energy.ports (2 * port.val)
      let dc := mNat t.energy.ports (2 * port.val + 1) - mNat s.energy.ports (2 * port.val + 1)
      mNat s.energy.ports (2 * port.val) ≤ mNat t.energy.ports (2 * port.val) ∧
      10000 * de + (t.portMtrX port.val).remE = power.toNat * 65536 + (s.portMtrX port.val).remE ∧
      10000 * dc + (t.portMtrX port.val).remC =
        s.fget (portB port.val) PORT_PD_END_CABLE_LOSS * 65536 + (s.portMtrX port.val).remC ∧
      mNat t.energy.gals (4 * s.portOwner port.val + 2) = mNat s.energy.gals (4 * s.portOwner port.val + 2) + de ∧
      (t.portMtrX port.val).n = (s.portMtrX port.val).n + 1 ∧ t.energy.ins = s.energy.ins ∧ t.mem = s.mem) ∧
    (s.pwr.refclkLost = true → exec (.portMeterSample port power volts amps) s = .next s)) ∧
  (∀ kk de ts te a : Nat, 0 < kk →
    (pulseEdges kk de ts te (a / kk) a []).1 = a % kk ∧ (pulseEdges kk de ts te (a / kk) a []).2.length = a / kk)

/-- The metering block's events (R339–R350, R354, R357, R359, R363). -/
def Obligations.MeteringEvents : Prop :=
  (∀ (s : State) (x : MeterSample),
    (s.mtrRuns = true → ∃ t, exec (.meterSample x) s = .next t ∧ t.mtr.k = s.mtr.k + 1 ∧ t.mtr.count = s.mtr.count + 1 ∧
      let u : State := { s with mtr := { s.mtr with k := s.mtr.k + 1, w := s.mtr.w + 256, count := s.mtr.count + 1 } }
      let v := ((x.volts.take 6).zip (List.range 6)).foldl (fun u e => u.lineSample e.2 e.1.toInt) u
      let w := ((x.raw.take 48).zip (List.range 48)).foldl (fun u e => u.inSample e.2 e.1.toInt) ((v.setSample 0).setSample 1)
      t = (w.setIdle 0).setIdle 1) ∧
    (s.mtrRuns = false → exec (.meterSample x) s = .next s)) ∧
  (∀ (s : State) (base : Fin 3) (frac : Fin 256),
    (s.mtrRuns = true → exec (.lineCycleEnd base frac) s =
      .next (if base.val = 2 then s.boundary 2 frac.val else (s.setCycle base.val frac.val).boundary base.val frac.val)) ∧
    (s.mtrRuns = false → exec (.lineCycleEnd base frac) s = .next s)) ∧
  (∀ s : State,
    (s.mtrRuns = true → (s.dom .meter).phase = .idle → s.latchDue = true →
      ∃ t, exec .meterLatch s = .next t ∧ t = s.mtrAdopt.latch ∧ t.mtr.got.isSome = true ∧ t.mtr.cycles = 0 ∧ t.mtr.changed = false ∧
        t.upd.mtrStaged = none) ∧
    (s.mtrRuns = false ∨ (s.dom .meter).phase ≠ .idle ∨ s.latchDue = false → exec .meterLatch s = .next s)) ∧
  (∀ (s : State) (deferred : Bool),
    (∀ (w : Tab Word) (up n : Nat), s.mtrRuns = true → s.mtr.got = some (w, up, n) →
      ∃ t, exec (.meterPublish deferred) s = .next t ∧ t.mtr.got = none ∧ t.fget 0 MTR_LATCH_UPTIME = up % 2 ^ 32 ∧
        t.fget 0 MTR_LATCH_SEQ = (if s.fget 0 MTR_LATCH_SEQ = 0xFFFFFFFF then 1 else s.fget 0 MTR_LATCH_SEQ + 1) ∧
        t.mem = s.mem ∧ t.events = s.events) ∧
    (s.mtrRuns = true → s.mtr.got = none → exec (.meterPublish deferred) s = .next (if deferred then s.finc 0 MTR_DEFER_CNT else s)) ∧
    (s.mtrRuns = false → exec (.meterPublish deferred) s = .next s)) ∧
  (∀ (s : State) (channel : BitVec 8),
    (s.mtrRuns = true → ∃ t, exec (.meterSelfcheckFail channel) s = .next t ∧ Safety.Raised 381 0 true channel.toNat t ∧
      Safety.OnlyRegs [] s t) ∧
    (s.mtrRuns = false → exec (.meterSelfcheckFail channel) s = .next s)) ∧
  (∀ (s : State) (k : Fin 8), s.inReset Dom.meter.bit = false →
    let x := s.pulse k.val
    let leaves := fun (t : State) (rest : List Nat) => (t.pulse k.val).on = true ∧ (t.pulse k.val).sched = rest ∧
      t.fget (pulseB k.val) PULSE_COUNT = (s.fget (pulseB k.val) PULSE_COUNT + 1) % 2 ^ 32 ∧ t.sent = .pulse k.val true :: s.sent ∧
      t.events = s.events ∧ t.mem = s.mem
    (∀ at_ rest, x.sched = at_ :: rest → at_ ≤ s.now →
      (x.on = false → x.offUntil ≤ s.now → ∃ t, exec (.pulseStart k) s = .next t ∧ leaves t rest ∧ t.energy = s.energy) ∧
      (x.on = true ∨ s.now < x.offUntil → ∃ t, exec (.pulseStart k) s = .next t ∧ (t.pulse k.val).sched = rest ∧
        mNat t.energy.pend k.val = min (mNat s.energy.pend k.val + 1) 65535 ∧ t.sent = s.sent ∧ t.mem = s.mem)) ∧
    ((∀ at_ ∈ x.sched.head?, s.now < at_) →
      (x.on = false → x.offUntil ≤ s.now → 0 < mNat s.energy.pend k.val → mNat s.energy.pend k.val ≤ 65535 →
        ∃ t, exec (.pulseStart k) s = .next t ∧ leaves t x.sched ∧ mNat t.energy.pend k.val = mNat s.energy.pend k.val - 1) ∧
      (x.on = true ∨ s.now < x.offUntil ∨ mNat s.energy.pend k.val = 0 → exec (.pulseStart k) s = .next s))) ∧
  (∀ (s : State) (k : Fin 8), s.inReset Dom.meter.bit = true → exec (.pulseStart k) s = .next s) ∧
  (∀ (s : State) (k : Fin 8),
    ((s.pulse k.val).on = true → ∃ t, exec (.pulseEnd k) s = .next t ∧ (t.pulse k.val).on = false ∧
      (t.pulse k.val).offUntil = s.now + 1000000 * max 30 (s.fget (pulseB k.val) PULSE_CFG_WIDTH) ∧
      t.sent = .pulse k.val false :: s.sent ∧ t.regs = s.regs ∧ t.mem = s.mem) ∧
    ((s.pulse k.val).on = false → exec (.pulseEnd k) s = .next s)) ∧
  (∀ s : State,
    (s.pwr.refclkLost = false → s.alloc.saving = false → exec (.energyPeriodicSave true) s = .next (s.energyCommit false) ∧
      ∃ t, exec (.energyPeriodicSave false) s = .next t ∧ t.fbit 0 MTR_STATUS_SAVE_OK = false ∧ Safety.Raised 377 0 true 0 t ∧
        Safety.OnlyRegs [MTR_STATUS_SAVE_OK.off] s t) ∧
    (s.pwr.refclkLost = true ∨ s.alloc.saving = true → ∀ done, exec (.energyPeriodicSave done) s = .next s)) ∧
  (∀ (s : State) (r : Req) (select : BitVec 16) (x : Session) (l : Lane), Safety.Served s r 0x70 4 x l →
    let n := select.toNat
    let off := s.inReset Dom.meter.bit
    let seq := beBytes 4 (s.fget 0 MTR_LATCH_SEQ)
    let ends := fun (res : Res) (body : List Byte) =>
      exec (.meterRead r select) s = .next (Safety.replied (Safety.took s r x) s r x l 0x70 res body)
    let mine := fun g : Nat => x.gallery = 0 ∨ g = x.gallery
    (1 ≤ n → n ≤ 48 → mine (s.inputOwner (n - 1)) →
      (off = false → s.fbit 0 MTR_STATUS_FW_LOADED = true → ends .ok (seq ++ dataBytes 5 (s.resWords (mtrIB (n - 1) + 0x10) 16))) ∧
      (off = true → ends .blockInReset []) ∧
      (off = false → s.fbit 0 MTR_STATUS_FW_LOADED = false → ends .state [])) ∧
    (1 ≤ n → n ≤ 48 → ¬ mine (s.inputOwner (n - 1)) → ends .noSuchObject []) ∧
    (0x101 ≤ n → n ≤ 0x140 → mine (s.portOwner (n - 0x101)) →
      ends .ok (seq ++ dataBytes 2 (if off then (Safety.took s r x).portWords (n - 0x101) else s.resWords (mtrPB (n - 0x101)) 8) ++
        List.replicate 32 0)) ∧
    (0x101 ≤ n → n ≤ 0x140 → ¬ mine (s.portOwner (n - 0x101)) → ends .noSuchObject []) ∧
    (0x200 ≤ n → n ≤ 0x23F → mine (n - 0x200) →
      ends .ok (seq ++ dataBytes 4 (if off then (Safety.took s r x).galWords (Safety.took s r x).pubTab (n - 0x200)
        else s.resWords (mtrGB (n - 0x200)) 12) ++ List.replicate 16 0)) ∧
    (0x200 ≤ n → n ≤ 0x23F → ¬ mine (n - 0x200) → ends .noSuchObject []) ∧
    (n = 0 ∨ 0x30 < n ∧ n < 0x101 ∨ 0x140 < n ∧ n < 0x200 ∨ 0x23F < n → ends .noSuchObject []))

/-- Scaling (R365, R366, R368). -/
def Obligations.AnalogueScaling : Prop :=
  (∀ m code : Nat, code ≤ 65535 → aioCodeOf m (aioQty m ⟨code, 1⟩) = (if m = 3 then min code 60075 else code)) ∧
  (∀ (m : Nat) (a b : Frac), 0 < a.den → 0 < b.den → a.le b = true → aioCodeOf m a ≤ aioCodeOf m b) ∧
  (∀ (s : State) (c : Nat) (x : Frac), s.aioEncode c x ≤ 65535 ∧ (s.aioMode c = 3 → s.aioEncode c x ≤ 60075)) ∧
  (∀ (s : State) (ch : Fin 16) (code readback : BitVec 16), s.isolated .aio = false → aioIn (s.aioMode ch.val) = true →
    (s.aioX ch.val).idleUntil ≤ s.now →
    ∃ t, exec (.aioConversion ch code readback) s = .next t ∧ t.fget (aioB ch.val) AIO_CH_IN_CODE = code.toNat ∧
      (t.aioX ch.val).filt = (code.toNat :: (s.aioX ch.val).filt).take 400 ∧
      t.fget (aioB ch.val) AIO_CH_VALUE = s.aioDecode ch.val (t.aioX ch.val).value % 2 ^ 32 ∧ t.events = s.events ∧ t.mem = s.mem) ∧
  (∀ (s : State) (ch : Fin 16) (code readback : BitVec 16), s.isolated .aio = false → aioOut (s.aioMode ch.val) = true →
    (s.aioX ch.val).idleUntil ≤ s.now →
    ∃ t, exec (.aioConversion ch code readback) s = .next t ∧ t.fget (aioB ch.val) AIO_CH_IN_CODE = code.toNat ∧
      t.fget (aioB ch.val) AIO_CH_READBACK_CODE = readback.toNat ∧
      Safety.OnlyRegs [aioB ch.val + AIO_CH_IN_CODE.off, aioB ch.val + AIO_CH_READBACK_CODE.off] s t) ∧
  (∀ (s : State) (ch : Fin 16) (code readback : BitVec 16), s.isolated .aio = true ∨ s.aioMode ch.val = 0 ∨ s.now < (s.aioX ch.val).idleUntil →
    exec (.aioConversion ch code readback) s = .next s)

/-- Analogue faults (R371–R377). -/
def Obligations.AnalogueFaults : Prop :=
  (∀ (s : State) (c cause : Nat), c < 16 → 1 ≤ cause → cause ≤ 9 → (s.aioX c).causes.testBit (cause - 1) = false →
    let t := s.aioDeclare c cause
    (t.aioX c).causes.testBit (cause - 1) = true ∧ t.fbit (aioB c) AIO_CH_STATUS_FAULT = true ∧
    t.fget (aioB c) AIO_CH_FAULT_CNT = satAdd AIO_CH_FAULT_CNT.width (s.fget (aioB c) AIO_CH_FAULT_CNT) 1 ∧
    (∃ e ∈ t.events, e.source = 384 + 2 * c ∧ e.urgent = true) ∧
    (5 ≤ cause → aioOut (s.aioMode c) = true → fieldGet (s.aioX c).cfg 25 1 = 1 →
      t.fget (aioB c) AIO_CH_OUT_CODE = s.fget (aioB c) AIO_CH_SAFE_CODE ∧ t.fbit (aioB c) AIO_CH_STATUS_SAFE_DRIVEN = true) ∧
    t.mem = s.mem) ∧
  (∀ (s : State) (ch : Fin 16), s.aioQuiet ch.val = false → aioOut (s.aioMode ch.val) = true →
    (aioVerV (s.aioX ch.val).cfg = true → (s.aioX ch.val).causes / 32 % 8 = 0 → s.aioApart ch.val = true →
      exec (.aioReadbackMismatch ch) s = .next (s.aioDeclare ch.val 5)) ∧
    (aioVerV (s.aioX ch.val).cfg = false ∨ (s.aioX ch.val).causes / 32 % 8 ≠ 0 ∨ s.aioApart ch.val = false →
      exec (.aioReadbackMismatch ch) s = .next s) ∧
    (∀ headroom current : BitVec 16,
      (aioVerD (s.aioX ch.val).cfg = true →
        (s.aioMode ch.val = 3 → 25000 ≤ current.toNat → exec (.aioDriverFault ch headroom current) s = .next (s.aioDeclare ch.val 8)) ∧
        (s.aioMode ch.val = 3 → current.toNat < 25000 → exec (.aioDriverFault ch headroom current) s = .next s) ∧
        (s.aioMode ch.val ≠ 3 → 65536 ≤ s.fget (aioB ch.val) AIO_CH_OUT_CODE * 24 → headroom.toNat < 1000 →
          exec (.aioDriverFault ch headroom current) s = .next (s.aioDeclare ch.val (if current.toNat < 200 then 6 else 7))) ∧
        (s.aioMode ch.val ≠ 3 → s.fget (aioB ch.val) AIO_CH_OUT_CODE * 24 < 65536 ∨ 1000 ≤ headroom.toNat →
          exec (.aioDriverFault ch headroom current) s = .next s)) ∧
      (aioVerD (s.aioX ch.val).cfg = false → exec (.aioDriverFault ch headroom current) s = .next s))) ∧
  (∀ (s : State) (ch : Fin 16), s.aioQuiet ch.val = false →
    let code := 240 * s.fget (aioB ch.val) AIO_CH_IN_CODE
    ((s.aioMode ch.val = 4 ∨ s.aioMode ch.val = 5) → code < 36 * 65536 → (s.aioX ch.val).causes.testBit 2 = false →
      exec (.aioInputFault ch 1) s = .next (s.aioDeclare ch.val 1)) ∧
    ((s.aioMode ch.val = 4 ∨ s.aioMode ch.val = 5) → code < 5 * 65536 → exec (.aioInputFault ch 3) s = .next (s.aioDeclare ch.val 3)) ∧
    (aioIn (s.aioMode ch.val) = true → (if s.aioMode ch.val = 6 then 205 else 210) * 65536 < code →
      exec (.aioInputFault ch 2) s = .next (s.aioDeclare ch.val 2)) ∧
    (s.aioMode ch.val = 5 → ∃ t, exec (.aioInputFault ch 4) s = .next t ∧ (t.aioX ch.val).causes.testBit 3 = true ∧
      t.fbit (aioB ch.val) AIO_CH_STATUS_LS_ON = false) ∧
    (∀ cause : Fin 5, s.aioInBad ch.val cause.val = false ∨ cause.val = 1 ∧ (s.aioX ch.val).causes.testBit 2 = true →
      exec (.aioInputFault ch cause) s = .next s)) ∧
  (∀ (s : State) (ch : Fin 16), s.aioQuiet ch.val = true →
    exec (.aioReadbackMismatch ch) s = .next s ∧ (∀ headroom current, exec (.aioDriverFault ch headroom current) s = .next s) ∧
    (∀ cause, exec (.aioInputFault ch cause) s = .next s)) ∧
  (∀ (s : State) (group : Fin 4),
    (s.isolated .aio = false → ∃ t, exec (.aioGroupSupplyFault group) s = .next t ∧
      (t.fget 0 AIO_STATUS_GROUP_OK).testBit group.val = false ∧ (t.fget 0 AIO_STATUS_GROUP_LOST_SEEN).testBit group.val = true ∧
      (∀ i, i < 4 → s.aioQuiet (4 * group.val + i) = false → (t.aioX (4 * group.val + i)).causes.testBit 8 = true) ∧ t.mem = s.mem) ∧
    (s.isolated .aio = true → exec (.aioGroupSupplyFault group) s = .next s)) ∧
  (∀ (s : State) (ch : Fin 16) (cause : Fin 10), s.isolated .aio = false → cause.val ≠ 0 → s.aioGood ch.val cause.val = true →
    (∃ t, exec (.aioFaultCleared ch cause) s = .next t ∧ (t.aioX ch.val).causes.testBit (cause.val - 1) = false ∧
      (cause.val = 9 → (t.fget 0 AIO_STATUS_GROUP_OK).testBit (ch.val / 4) = true) ∧
      ((s.aioX ch.val).causes = 2 ^ (cause.val - 1) → t.fbit (aioB ch.val) AIO_CH_STATUS_FAULT = false ∧
        ∃ e ∈ t.events, e.source = 385 + 2 * ch.val ∧ e.gallery = (s.aioX ch.val).owner) ∧ t.mem = s.mem) ∧
    (cause.val ≠ 9 → (s.aioX ch.val).causes.testBit (cause.val - 1) = false → exec (.aioFaultCleared ch cause) s = .next s)) ∧
  (∀ (s : State) (ch : Fin 16) (cause : Fin 10), s.isolated .aio = true ∨ cause.val = 0 ∨ s.aioGood ch.val cause.val = false →
    exec (.aioFaultCleared ch cause) s = .next s) ∧
  (∀ (s : State) (ch : Fin 16) (current : BitVec 16),
    (s.isolated .aio = false → s.aioMode ch.val = 5 → (s.aioX ch.val).causes.testBit 3 = true →
      ∃ t, exec (.aioLsRetry ch current) s = .next t ∧ t.fbit (aioB ch.val) AIO_CH_STATUS_LS_ON = decide (current.toNat < 25000) ∧
        Safety.OnlyRegs [aioB ch.val + AIO_CH_STATUS_LS_ON.off] s t) ∧
    (s.isolated .aio = true ∨ s.aioMode ch.val ≠ 5 ∨ (s.aioX ch.val).causes.testBit 3 = false →
      exec (.aioLsRetry ch current) s = .next s)) ∧
  (∀ (s : State) (ch : Fin 16), s.isolated .aio = false →
    (∃ t, exec (.aioSurge ch) s = .next t ∧ t.fbit (aioB ch.val) AIO_CH_STATUS_SURGE_SEEN = true ∧
      t.fbit (aioB ch.val) AIO_CH_STATUS_SUSPENDED = true ∧ t.aioQuiet ch.val = true ∧
      fieldGet (t.fget 0 AIO_SURGE_CNT) (8 * (ch.val / 4)) 8 = satAdd 8 (fieldGet (s.fget 0 AIO_SURGE_CNT) (8 * (ch.val / 4)) 8) 1 ∧
      Safety.OnlyRegs [aioB ch.val + AIO_CH_STATUS_SURGE_SEEN.off, AIO_SURGE_CNT.off] s t) ∧
    (∃ t, exec (.aioSurgeSuspendEnd ch) s = .next t ∧ t.fbit (aioB ch.val) AIO_CH_STATUS_SUSPENDED = false ∧
      Safety.OnlyRegs [aioB ch.val + AIO_CH_STATUS_SURGE_SEEN.off] s t) ∧
    (∃ t, exec (.aioCfgApply ch) s = .next t ∧ (t.aioX ch.val).cfg = (s.rd (aioB ch.val)).toNat ∧
      (aioModeOf (s.rd (aioB ch.val)).toNat ≠ s.aioMode ch.val → (t.aioX ch.val).causes = 0 ∧ (t.aioX ch.val).idleUntil = s.now + 1000000 ∧
        (aioOut (aioModeOf (s.rd (aioB ch.val)).toNat) = true →
          t.fget (aioB ch.val) AIO_CH_OUT_CODE = s.fget (aioB ch.val) AIO_CH_SAFE_CODE)) ∧ t.mem = s.mem ∧ t.events = s.events)) ∧
  (∀ (s : State) (ch : Fin 16), s.isolated .aio = true →
    exec (.aioSurge ch) s = .next s ∧ exec (.aioSurgeSuspendEnd ch) s = .next s ∧ exec (.aioCfgApply ch) s = .next s)

/-- Signals (R391, R392). -/
def Obligations.CanSignal : Prop :=
  ∀ (s : State) (n o sig v d : Nat), s.sigOf n o sig = some d →
    let t := s.sigWrite n o sig v
    let kind := s.fget (canSigB n d) CAN_SIG_LAYOUT_KIND
    t.sigNow n d = sigValue kind (s.sigLen n d) (sigRaw kind (s.sigLen n d) v) ∧
    (∀ b, b < 512 → b ∉ s.sigField n d → (t.canByte n o (b / 8)).testBit (b % 8) = (s.canByte n o (b / 8)).testBit (b % 8)) ∧
    (∀ p i, p < 128 → i < 64 → p ≠ o → t.canByte n p i = s.canByte n p i) ∧ t.mem = s.mem ∧ t.events = s.events

/-- CAN events and commands (R381–R402, R405). -/
def Obligations.CanEvents : Prop :=
  (∀ (s : State) (ctl : Fin 4), s.isolated .can = false →
    (s.canState ctl.val = cIntegrating → ∃ t, exec (.canIntegrationDone ctl) s = .next t ∧ t.canState ctl.val = cActive ∧
      Safety.OnlyRegs [canB ctl.val + CAN_STATUS_STATE.off] s t) ∧
    (s.canState ctl.val = cRecovering → ∃ t, exec (.canRecoveryDone ctl) s = .next t ∧ t.canState ctl.val = cActive ∧
      t.fget (canB ctl.val) CAN_ERR_TEC = 0 ∧ t.fget (canB ctl.val) CAN_ERR_REC = 0 ∧
      Safety.OnlyRegs [canB ctl.val + CAN_STATUS_STATE.off, canB ctl.val + CAN_ERR_TEC.off] s t) ∧
    (s.canState ctl.val ≠ cIntegrating → exec (.canIntegrationDone ctl) s = .next s) ∧
    (s.canState ctl.val ≠ cRecovering → exec (.canRecoveryDone ctl) s = .next s) ∧
    (∃ t, exec (.canDominantTimeout ctl) s = .next t ∧ t.fbit (canB ctl.val) CAN_STATUS_DOM_TIMEOUT = true ∧
      Safety.Raised (canSrc ctl.val 6) 0 true 1 t ∧ Safety.OnlyRegs [canB ctl.val + CAN_STATUS_DOM_TIMEOUT.off] s t) ∧
    (∃ t, exec (.canTransceiverSupply ctl) s = .next t ∧ Safety.Raised (canSrc ctl.val 6) 0 true 2 t ∧ Safety.OnlyRegs [] s t) ∧
    (∃ t, exec (.canModeApply ctl) s = .next t ∧ canNat t.can.mode ctl.val = s.fget (canB ctl.val) CAN_CTRL_MODE ∧ t.regs = s.regs ∧
      t.mem = s.mem)) ∧
  (∀ (s : State) (ctl : Fin 4), s.isolated .can = true →
    exec (.canIntegrationDone ctl) s = .next s ∧ exec (.canRecoveryDone ctl) s = .next s ∧ exec (.canDominantTimeout ctl) s = .next s ∧
    exec (.canTransceiverSupply ctl) s = .next s ∧ exec (.canModeApply ctl) s = .next s ∧ exec (.canRemoteFrame ctl) s = .next s) ∧
  (∀ (s : State) (ctl : Fin 4) (kind : Fin 7) (tec : BitVec 10) (rec : BitVec 9), s.isolated .can = false →
    (s.canState ctl.val = cActive ∨ s.canState ctl.val = cPassive →
      ∃ t, exec (.canBusError ctl kind tec rec) s = .next t ∧
        t.fget (canB ctl.val) CAN_ERRFRAME_CNT = satAdd 32 (s.fget (canB ctl.val) CAN_ERRFRAME_CNT) 1 ∧
        t.fget (canB ctl.val) CAN_ERR_LAST_ERR = kind.val ∧ t.fget (canB ctl.val) CAN_ERR_REC = min rec.toNat 255 ∧
        (255 < tec.toNat → t.canState ctl.val = (if s.fbit (canB ctl.val) CAN_CTRL_AUTO_RECOVER then cRecovering else cBusOff)) ∧
        (tec.toNat ≤ 255 → 127 < tec.toNat ∨ 127 < rec.toNat → t.canState ctl.val = cPassive) ∧
        (tec.toNat ≤ 127 → rec.toNat ≤ 127 → t.canState ctl.val = cActive) ∧ t.mem = s.mem) ∧
    (s.canState ctl.val = cRecovering →
      ∃ t, exec (.canBusError ctl kind tec rec) s = .next t ∧ t.canState ctl.val = cRecovering ∧
        t.fget (canB ctl.val) CAN_ERRFRAME_CNT = satAdd 32 (s.fget (canB ctl.val) CAN_ERRFRAME_CNT) 1 ∧
        t.fget (canB ctl.val) CAN_ERR_LAST_ERR = kind.val ∧ t.events = s.events ∧ t.mem = s.mem) ∧
    (s.canState ctl.val = cInit ∨ s.canState ctl.val = cIntegrating ∨ s.canState ctl.val = cBusOff →
      exec (.canBusError ctl kind tec rec) s = .next s)) ∧
  (∀ (s : State) (ctl : Fin 4) (xtd : Bool) (ident : BitVec 29) (fdf : Bool) (dlc : BitVec 4) (data : List Byte) (tec : BitVec 10)
    (rec : BitVec 9),
    let u := s.canCounts ctl.val tec.toNat rec.toNat
    let hit := (List.range 128).find? (fun o => u.canMatch ctl.val o xtd ident.toNat)
    let ends := fun t => exec (.canFrameReceived ctl xtd ident fdf dlc data tec rec) s = .next t
    (s.canHears ctl.val = true → (fdf = false ∨ s.fbit (canB ctl.val) CAN_CTRL_FD_EN = true) →
      (hit = none → ∃ t, ends t ∧ t.fget (canB ctl.val) CAN_NOMATCH_CNT = satAdd 32 (s.fget (canB ctl.val) CAN_NOMATCH_CNT) 1 ∧
        t = u.finc (canB ctl.val) CAN_NOMATCH_CNT) ∧
      (∀ o, hit = some o → u.fget (canObjB ctl.val o) CAN_OBJ_STAT_STATE ≠ 2 →
        ∃ t, ends t ∧ t = u.canTake ctl.val o dlc.toNat ((data.take (dlcBytes fdf dlc.toNat)).map (fun y => y.toNat)) ∧
          t.fbit (canObjB ctl.val o) CAN_OBJ_STAT_STALE = false ∧ t.fbit (canObjB ctl.val o) CAN_OBJ_STAT_NEVER = false ∧
          t.fget (canObjB ctl.val o) CAN_OBJ_STAT_DLC_LAST = dlc.toNat ∧
          t.fget (canB ctl.val) CAN_RX_CNT = (s.fget (canB ctl.val) CAN_RX_CNT + 1) % 2 ^ 32 ∧
          (∀ i, i < (data.take (dlcBytes fdf dlc.toNat)).length →
            t.canByte ctl.val o i = ((data.take (dlcBytes fdf dlc.toNat)).getD i 0).toNat)) ∧
      (∀ o, hit = some o → u.fget (canObjB ctl.val o) CAN_OBJ_STAT_STATE = 2 →
        ∃ t, ends t ∧ t.fget (canB ctl.val) CAN_RECONF_DROP = satAdd CAN_RECONF_DROP.width (s.fget (canB ctl.val) CAN_RECONF_DROP) 1 ∧
          (∀ i, i < 64 → t.canByte ctl.val o i = s.canByte ctl.val o i) ∧ t.mem = s.mem)) ∧
    (s.canHears ctl.val = true → fdf = true → s.fbit (canB ctl.val) CAN_CTRL_FD_EN = false →
      ∃ t, ends t ∧ t.fget (canB ctl.val) CAN_ERRFRAME_CNT = satAdd 32 (s.fget (canB ctl.val) CAN_ERRFRAME_CNT) 1 ∧
        t.fget (canB ctl.val) CAN_ERR_LAST_ERR = 2 ∧ t.fget (canB ctl.val) CAN_RX_CNT = s.fget (canB ctl.val) CAN_RX_CNT) ∧
    (s.canHears ctl.val = false → ends s)) ∧
  (∀ (s : State) (ctl : Fin 4),
    (s.canHears ctl.val = true → ∃ t, exec (.canRemoteFrame ctl) s = .next t ∧
      t.fget (canB ctl.val) CAN_REMOTE_CNT = satAdd CAN_REMOTE_CNT.width (s.fget (canB ctl.val) CAN_REMOTE_CNT) 1 ∧
      Safety.OnlyRegs [canB ctl.val + CAN_REMOTE_CNT.off] s t) ∧
    (s.canHears ctl.val = false → exec (.canRemoteFrame ctl) s = .next s)) ∧
  (∀ (s : State) (ctl : Fin 4) (obj : Fin 128),
    let due := s.canRuns ctl.val = true ∧ s.canActive ctl.val obj.val false = true ∧
      0 < 256 * s.fget (canObjB ctl.val obj.val) CAN_OBJ_CTL_DIV + s.fget (canObjB ctl.val obj.val) CAN_OBJ_CTL_PHASE ∧
      s.fbit (canObjB ctl.val obj.val) CAN_OBJ_STAT_STALE = false
    (due → ∃ t, exec (.canRxTimeout ctl obj) s = .next t ∧ t.fbit (canObjB ctl.val obj.val) CAN_OBJ_STAT_STALE = true ∧ t.mem = s.mem) ∧
    (¬ due → exec (.canRxTimeout ctl obj) s = .next s)) ∧
  (∀ (s : State) (ctl : Fin 4) (tdc : BitVec 16) (tec : BitVec 10) (rec : BitVec 9),
    (∀ o, s.canSends ctl.val = true → s.canHead ctl.val = some o →
      s.canPending ctl.val o = true ∧ (∀ p, p < 128 → s.canPending ctl.val p = true → s.canRank ctl.val o ≤ s.canRank ctl.val p) ∧
      ∃ t, exec (.canFrameSent ctl tdc tec rec) s = .next t ∧ t.canPending ctl.val o = false ∧
        t.fget (canB ctl.val) CAN_TX_CNT = (s.fget (canB ctl.val) CAN_TX_CNT + 1) % 2 ^ 32 ∧
        t.fget (canObjB ctl.val o) CAN_OBJ_STAT_FRAMES =
          (s.fget (canObjB ctl.val o) CAN_OBJ_STAT_FRAMES + 1) % 2 ^ CAN_OBJ_STAT_FRAMES.width ∧
        t.sent = .can ctl.val o (s.fget (canObjB ctl.val o) CAN_OBJ_ID) (s.fget (canObjB ctl.val o) CAN_OBJ_CTL_DLC)
          (s.canBytes ctl.val o (dlcBytes (s.fbit (canObjB ctl.val o) CAN_OBJ_CTL_FDF && s.fbit (canB ctl.val) CAN_CTRL_FD_EN)
            (s.fget (canObjB ctl.val o) CAN_OBJ_CTL_DLC))) :: s.sent ∧ t.mem = s.mem) ∧
    (s.canSends ctl.val = false ∨ s.canHead ctl.val = none →
      exec (.canFrameSent ctl tdc tec rec) s = .next s ∧ exec (.canArbitrationLost ctl) s = .next s)) ∧
  (∀ (s : State) (ctl : Fin 4) (o : Nat), s.canSends ctl.val = true → s.canHead ctl.val = some o →
    ((s.canObj ctl.val o).attempts + 1 ≤ s.fget (canObjB ctl.val o) CAN_OBJ_CTL_RETRY →
      exec (.canArbitrationLost ctl) s =
        .next (s.setCanObj ctl.val o { s.canObj ctl.val o with attempts := (s.canObj ctl.val o).attempts + 1 })) ∧
    (s.fget (canObjB ctl.val o) CAN_OBJ_CTL_RETRY < (s.canObj ctl.val o).attempts + 1 →
      ∃ t, exec (.canArbitrationLost ctl) s = .next t ∧ t.canPending ctl.val o = false ∧
        t.fbit (canObjB ctl.val o) CAN_OBJ_STAT_TX_FAILED = true ∧
        ∃ e ∈ t.events, e.source = canSrc ctl.val 1 ∧ e.gallery = s.canOwner ctl.val o)) ∧
  (∀ (s : State) (ctl : Fin 4) (obj : Fin 128),
    let long := 3 * s.canDiv ctl.val obj.val * s.periodNs ≤ 2 * (s.now - (s.canObj ctl.val obj.val).relAt)
    let rep := s.fbit (canObjB ctl.val obj.val) CAN_OBJ_STAT_REPEATING
    (s.canRepeats ctl.val obj.val = true →
      (rep = false → long → ∃ t, exec (.canRepeatStart ctl obj) s = .next t ∧
        t.fbit (canObjB ctl.val obj.val) CAN_OBJ_STAT_REPEATING = true ∧ t.canPending ctl.val obj.val = true ∧ t.mem = s.mem) ∧
      (rep = true → ∃ t, exec (.canRepeatSend ctl obj) s = .next t ∧ t.canPending ctl.val obj.val = true ∧
        (t.canObj ctl.val obj.val).repeatDue = true ∧ (t.canObj ctl.val obj.val).attempts = 0 ∧ t.events = s.events ∧ t.mem = s.mem)) ∧
    (s.canRepeats ctl.val obj.val = false ∨ rep = true ∨ ¬ long → exec (.canRepeatStart ctl obj) s = .next s) ∧
    (s.canRepeats ctl.val obj.val = false ∨ rep = false → exec (.canRepeatSend ctl obj) s = .next s)) ∧
  (∀ (s : State) (l : Lane) (ctl : Fin 4) (v : Nat), v < 2 ^ 32 →
    let b := canB ctl.val
    let t := (s.regDo l b v).1
    let k := (s.regSet l b v).canCheck ctl.val
    (s.canState ctl.val = cInit → v.testBit 31 = false →
      (k = 0 → t.canState ctl.val = cIntegrating ∧ t.fbit b CAN_STATUS_CONFIG_ERR = false ∧ t.events = s.events) ∧
      (k ≠ 0 → t.canState ctl.val = cInit ∧ t.fbit b CAN_STATUS_CONFIG_ERR = true ∧ t.fbit b CAN_CTRL_INIT = true ∧
        Safety.Raised (canSrc ctl.val 5) 0 true k t)) ∧
    (s.canState ctl.val ≠ cInit → v.testBit 31 = true → t.canState ctl.val = cInit ∧ ∀ o, o < 128 → t.canPending ctl.val o = false) ∧
    (s.canState ctl.val = cBusOff → (s.regDo l (b + 0x18) 2).1.canState ctl.val = cRecovering) ∧
    ((s.regDo l (b + 0x18) 1).1.fget b CAN_TX_CNT = 0 ∧ (s.regDo l (b + 0x18) 1).1.fget b CAN_RX_CNT = 0 ∧
      (s.regDo l (b + 0x18) 1).1.fget b CAN_ERRFRAME_CNT = 0)) ∧
  (∀ (s : State) (l : Lane) (ctl : Fin 4) (obj : Fin 128) (w : Fin 3) (v : Nat), v < 2 ^ 32 →
    let a := canObjB ctl.val obj.val + 4 * w.val
    let t := (s.regDo l a v).1
    let u := (s.regDo l (canB ctl.val + 0x20 + 4 * (obj.val / 32)) (2 ^ (obj.val % 32))).1
    (s.canActive ctl.val obj.val true = true → s.canRuns ctl.val = true →
      (s.canState ctl.val ≠ cBusOff → u.canPending ctl.val obj.val = true ∧ (u.canObj ctl.val obj.val).attempts = 0) ∧
      (s.canState ctl.val = cBusOff →
        u.fget (canB ctl.val) CAN_WITHDRAWN_CNT = satAdd CAN_WITHDRAWN_CNT.width (s.fget (canB ctl.val) CAN_WITHDRAWN_CNT) 1)) ∧
    (regNext a (s.rd a).toNat v ≠ (s.rd a).toNat →
      (s.fget (canObjB ctl.val obj.val) CAN_OBJ_STAT_STATE = 1 →
        t.fget (canObjB ctl.val obj.val) CAN_OBJ_STAT_STATE = 2 ∧ t.canPending ctl.val obj.val = false ∧
        t.rd a = BitVec.ofNat 32 (regNext a (s.rd a).toNat v)) ∧
      (s.fget (canObjB ctl.val obj.val) CAN_OBJ_STAT_STATE = 0 → (s.regSet l a v).fbit (canObjB ctl.val obj.val) CAN_OBJ_ID_EN = true →
        t.fget (canObjB ctl.val obj.val) CAN_OBJ_STAT_STATE = 1 ∧ t.fbit (canObjB ctl.val obj.val) CAN_OBJ_STAT_NEVER = true)))

/-- The grant rule at commits (R20, R132, R280, R296). -/
def Obligations.GrantRule : Prop :=
  (∀ (s : State) (l : Lane) (es : List (Nat × Nat)) (e : Nat),
    let t := es.foldl (fun u x => u.commitOne l x) s
    (s.granted l (s.pointOwner e) = false ∨ s.taskOwner (s.point e).task ≠ s.pointOwner e → nat0 t.committed e = nat0 s.committed e) ∧
    (∀ g, g < 64 → t.grant g = s.grant g) ∧ t.pointOwner e = s.pointOwner e ∧
    (∀ v, (es.filter (fun x => x.1 == e)) = [(e, v)] → (s.point e).ptype ≠ 0 → s.taskOwner (s.point e).task = s.pointOwner e →
      s.slotEmpty l (s.point e) = false → s.granted l (s.pointOwner e) = true → s.forcedIn (s.cyc l).n e = none →
      nat0 t.committed e = v))

/-- Lane events (R412–R427, R439, R285). -/
def Obligations.LaneEvents : Prop :=
  (∀ (s : State) (lane : Lane), s.pwr.refclkLost = false →
    let k := cyclesAfter s.tickNo (s.unreleased lane)
    (s.runsCycles lane = true → 4 ≤ k → k < 0x80000000 →
      ∃ t, exec (.laneWatchdog lane) s = .next t ∧ (t.cyc lane).phase = .stopped ∧ t.fbit (cycB lane) CYC_STATUS_RUNNING = false ∧
        Safety.Raised 513 0 true (lane.num * 0x1000000 + s.unreleased lane % 0x1000000) t) ∧
    (s.runsCycles lane = false ∨ k < 4 ∨ 0x80000000 ≤ k → exec (.laneWatchdog lane) s = .next s)) ∧
  (∀ (s : State) (lane : Lane) (cause : Fin 16), s.pwr.refclkLost = false →
    (s.procRuns lane = true → s.mode ≠ .safe → 2 ≤ cause.val → cause.val ≤ 5 →
      (s.mode ≠ .hold ∨ s.hg.holdCause = 3 →
        ∃ t, exec (.laneDirectFailure lane cause) s = .next t ∧ t.inReset lane.dom.bit = true ∧
          t.fget (4 * lane.num) HG_LANE_A_LAST_FAIL = cause.val ∧
          (t.lstate lane = .failed ∨ t.lstate lane = .retired ∨ t.lstate lane = .reset) ∧
          (s.mode = .paired → s.single = false → s.lstate lane = .active →
            s.lstate lane.other = .standby ∨ s.lstate lane.other = .syncing →
            t.hg.takeover = some ⟨lane, cause.val, s.gapFrom lane⟩ ∧ t.lstate lane.other = s.lstate lane.other)) ∧
      (s.mode = .hold → s.hg.holdCause ≠ 3 →
        exec (.laneDirectFailure lane cause) s = .next (s.setLaneHg lane { s.laneHg lane with decided := true }))) ∧
    (s.procRuns lane = false ∨ cause.val < 2 ∨ 5 < cause.val → exec (.laneDirectFailure lane cause) s = .next s)) ∧
  (∀ (s : State) (l : Lane) (culv : Bool), s.pwr.refclkLost = false →
    let path : HbPath := if culv then .culvert l else .wire l
    let mine := fun (u : State) => if culv then (u.laneHg l).culvMiss else (u.laneHg l).wireMiss
    let other := fun (u : State) => if culv then (u.laneHg l).wireMiss else (u.laneHg l).culvMiss
    let good := fun (u : State) => if culv then (u.laneHg l).culvGood else (u.laneHg l).wireGood
    let imp := fun (u : State) => if culv then (u.laneHg l).culvImp else (u.laneHg l).wireImp
    let imp2 := fun (u : State) => if culv then (u.laneHg l).wireImp else (u.laneHg l).culvImp
    let place := l.num * 0x1000000 + (if culv then 0x10000 else 0)
    let counted := fun (t : State) => mine t = mine s + 1 ∧ other t = other s ∧
      t.fget 0 (missF l culv) = satAdd (missF l culv).width (s.fget 0 (missF l culv)) 1
    (s.inReset l.dom.bit = true → exec (.heartbeatMiss path) s = .next s) ∧
    (s.inReset l.dom.bit = false →
      (mine s < 2 ∨ other s = 1 ∨ other s = 2 ∨ other s = 0 ∧ imp s = true →
        ∃ t, exec (.heartbeatMiss path) s = .next t ∧ counted t ∧ t.events = s.events) ∧
      (2 ≤ mine s → other s = 0 → imp s = false →
        ∃ t, exec (.heartbeatMiss path) s = .next t ∧ counted t ∧ imp t = true ∧ Safety.Raised 577 0 true (place + 1) t) ∧
      (2 ≤ mine s → 3 ≤ other s → s.lstate l ≠ .reset → s.lstate l ≠ .failed → s.lstate l ≠ .retired → s.mode ≠ .hold →
        ∃ t, exec (.heartbeatMiss path) s = .next t ∧ t.inReset l.dom.bit = true ∧ t.fget (4 * l.num) HG_LANE_A_LAST_FAIL = 1)) ∧
    (other s < 3 ∨ imp2 s = true →
      (imp s = false ∨ good s + 1 < 4000 → ∃ t, exec (.heartbeatReceived path) s = .next t ∧ mine t = 0 ∧ good t = good s + 1 ∧
        t.regs = s.regs ∧ t.events = s.events) ∧
      (imp s = true → 4000 ≤ good s + 1 → ∃ t, exec (.heartbeatReceived path) s = .next t ∧ mine t = 0 ∧ imp t = false ∧
        Safety.Raised 577 0 false place t)) ∧
    (3 ≤ other s → imp2 s = false → imp s = false → ∃ t, exec (.heartbeatReceived path) s = .next t ∧ mine t = 0 ∧ imp2 t = true ∧
      Safety.Raised 577 0 true (l.num * 0x1000000 + (if culv then 0 else 0x10000) + 1) t) ∧
    (imp s = true → ∃ t, exec (.heartbeatPathRestored path) s = .next t ∧ imp t = false ∧ Safety.Raised 577 0 false place t ∧
      (∀ k, k ≠ 0x40000 → t.rd k = s.rd k)) ∧
    (imp s = false → exec (.heartbeatPathRestored path) s = .next s)) ∧
  (∀ (s : State) (b : Bool), s.pwr.refclkLost = false →
    let path : HbPath := if b then .partnerB else .partnerA
    let f := if b then HG_HB_PB_OK else HG_HB_PA_OK
    let miss := fun (u : State) => if b then u.hg.pbMiss else u.hg.paMiss
    let data := fun (u : State) => 2 * u.fget 0 HG_HB_PB_OK + u.fget 0 HG_HB_PA_OK
    (miss s < 2 ∨ s.fbit 0 f = false → ∃ t, exec (.heartbeatMiss path) s = .next t ∧ miss t = miss s + 1 ∧ t.regs = s.regs ∧
      t.events = s.events) ∧
    (2 ≤ miss s → s.fbit 0 f = true → ∃ t, exec (.heartbeatMiss path) s = .next t ∧ t.fbit 0 f = false ∧
      Safety.Raised 584 0 false (data t) t) ∧
    (s.fbit 0 f = true → ∃ t, exec (.heartbeatReceived path) s = .next t ∧ miss t = 0 ∧ t.regs = s.regs ∧ t.events = s.events) ∧
    (s.fbit 0 f = false → ∃ t, exec (.heartbeatReceived path) s = .next t ∧ miss t = 0 ∧ t.fbit 0 f = true ∧
      Safety.Raised 584 0 false (data t) t) ∧
    exec (.heartbeatPathRestored path) s = .next s ∧
    (∀ ok : Bool,
      (s.fbit 0 f = !ok → ∃ t, exec (.partnerHeartbeatChange (if b then .b else .a) ok) s = .next t ∧ t.fbit 0 f = ok ∧
        Safety.Raised 584 0 false (data t) t ∧ Safety.OnlyRegs [HG_HB_PA_OK.off] s t) ∧
      (s.fbit 0 f = ok → exec (.partnerHeartbeatChange (if b then .b else .a) ok) s = .next s))) ∧
  (∀ (s : State) (w : Takeover), s.pwr.refclkLost = false → s.hg.takeover = some w →
    let p := w.lane.other
    let first := s.upd.siphon = sipFirst ∧ p = s.upd.first
    let takes := fun (t : State) => t.hg.active = p ∧ t.lstate p = .active ∧ t.hg.takeover = none ∧
      t.fget 0 HG_SWITCH_CNT = satAdd 32 (s.fget 0 HG_SWITCH_CNT) 1 ∧ ∀ g, g < 64 → s.galEn g = true → t.grant g = some p
    (s.mode = .paired → s.lstate p = .standby ∨ s.lstate p = .syncing →
      (¬ first → ∃ t, exec .takeoverTick s = .next t ∧ takes t) ∧
      (first → s.current = true → ∃ t, exec .takeoverTick s = .next t ∧ takes t ∧ t.upd.siphon = sipPending ∧ t.updatePending = true) ∧
      (first → s.current = false → exec .takeoverTick s = .next s.noLane)) ∧
    (s.mode = .wide → s.lstate p = .wideRun → ¬ first →
      ∃ t, exec .takeoverTick s = .next t ∧ t.hg.takeover = none ∧
        ∀ g, g < 64 → s.galEn g = true → s.grant g = some w.lane →
          (s.fbit (galB g) HG_GAL_LIVE_ESSENTIAL = true ∧ s.hasPlacement p g = true → t.grant g = some p ∧ t.galShed g = false) ∧
          (¬ (s.fbit (galB g) HG_GAL_LIVE_ESSENTIAL = true ∧ s.hasPlacement p g = true) → t.galShed g = true)) ∧
    (s.mode = .wide → s.lstate p = .wideRun → first →
      exec .takeoverTick s = .next (((s.galReturn p (s.homeGals p) true).takeWide w).windowStart p)) ∧
    (¬ (s.mode = .paired ∧ (s.lstate p = .standby ∨ s.lstate p = .syncing)) → ¬ (s.mode = .wide ∧ s.lstate p = .wideRun) →
      exec .takeoverTick s = .next s)) ∧
  (∀ s : State, s.hg.takeover = none → exec .takeoverTick s = .next s) ∧
  (∀ s : State, s.pwr.refclkLost = false →
    let o := s.hg.active
    (∀ c, s.hg.handover = some c → s.mode = .paired → s.current = true → s.copyFresh = true →
      ∃ t, exec .plannedHandover s = .next t ∧ t.hg.active = o.other ∧ t.lstate o.other = .active ∧ t.hg.handover = none ∧
        (∀ g, g < 64 → s.galEn g = true → t.grant g = some o.other) ∧
        (c ≠ 8 → t.lstate o = .standby ∧ t.hg.unplaced = false) ∧
        (c = 8 → t.lstate o = .serviceTest ∧ (t.laneHg o).testPassed = false ∧ t.hg.exercise = some (4, o))) ∧
    (s.hg.handover = none ∨ s.mode ≠ .paired ∨ s.current = false ∨ s.copyFresh = false → exec .plannedHandover s = .next s)) ∧
  (∀ (s : State) (dirty time crc resent : BitVec 16), s.pwr.refclkLost = false →
    let l := s.hg.active
    (s.copyCan = true → s.lstate l.other = .standby →
      ∃ t, exec (.stateCopyComplete dirty time crc resent) s = .next t ∧ t.fget (laneKey l 0) RED_COPY_LAST_DIRTY = dirty.toNat ∧
        t.fget (laneKey l 0) RED_COPY_LAST_TIME = time.toNat ∧ t.hg.copyStale = false ∧
        ((t.lane l.other).copy.map LaneCopy.cycle) = some (s.fget (cycB l) CYC_DONE)) ∧
    (s.copyCan = true → s.lstate l.other = .syncing →
      ∃ t, exec (.stateCopyComplete dirty time crc resent) s = .next t ∧ t.fget (laneKey l 0) RED_COPY_LAST_DIRTY = dirty.toNat ∧
        t.lstate l.other = .syncing ∧ t.fget (laneKey l 0) RED_SYNC = s.fget (laneKey l 0) RED_SYNC - 610) ∧
    (s.copyCan = false ∨ s.lstate l.other ≠ .standby ∧ s.lstate l.other ≠ .syncing →
      exec (.stateCopyComplete dirty time crc resent) s = .next s) ∧
    (s.mode = .paired → s.lstate l = .active →
      ∃ t, exec (.stateCopyDiscard crc resent) s = .next t ∧
        t.fget (laneKey l 0) RED_COPY_DISCARD = satAdd 32 (s.fget (laneKey l 0) RED_COPY_DISCARD) 1 ∧ t.mem = s.mem) ∧
    (s.mode ≠ .paired ∨ s.lstate l ≠ .active → exec (.stateCopyDiscard crc resent) s = .next s) ∧
    (s.copyCan = true → s.lstate l.other = .syncing →
      ∃ t, exec .syncComplete s = .next t ∧ t.lstate l.other = .standby ∧ t.hg.copyStale = false ∧
        (s.hg.exercise = none → s.upd.siphon = sipIdle → Safety.Raised 580 0 false (l.other.num * 0x1000000 + 0x300000) t) ∧
        (∀ q, s.hg.exercise = some (2, q) → t.hg.exercise = some (3, l.other) ∧ t.hg.handover = some 8) ∧
        (∀ q, s.hg.exercise = some (5, q) → t.hg.exercise = none ∧ t.fget 0 HG_EXER_LAST_RESULT = 1 ∧ t.fget 0 HG_EXER_AGE_HOURS = 0) ∧
        (s.upd.siphon = sipSecond → l.other = s.upd.first.other → t.upd.siphon = sipIdle)) ∧
    (s.copyCan = false ∨ s.lstate l.other ≠ .syncing → exec .syncComplete s = .next s)) ∧
  (∀ (s : State) (up : Bool), s.pwr.refclkLost = false →
    (∃ t, exec (.culvertLinkChange .a up) s = .next t ∧ t.hg.linkA = up ∧ t.hg.linkB = s.hg.linkB ∧
      t = ({ s with hg := { s.hg with linkA := up } } : State).staleCheck) ∧
    (∃ t, exec (.culvertLinkChange .b up) s = .next t ∧ t.hg.linkB = up ∧ t.hg.linkA = s.hg.linkA ∧
      t = ({ s with hg := { s.hg with linkB := up } } : State).staleCheck)) ∧
  (∀ (s : State) (lane : Lane) (image : Option ProgImage) (settings : Option SettingsImage), s.pwr.refclkLost = false →
    (s.lstate lane = .starting → (s.laneHg lane).testPassed = true → s.mode ≠ .safe →
      exec (.laneStartingComplete lane image settings) s = .next (((s.laneLoad lane image settings).startEnd lane).loadIfFirst lane)) ∧
    (s.lstate lane ≠ .starting ∨ (s.laneHg lane).testPassed = false ∨ s.mode = .safe →
      exec (.laneStartingComplete lane image settings) s = .next s)) ∧
  (∀ (s : State) (lane : Lane),
    (s.mode = .boot ∨ s.mode = .wide → (s.startEnd lane).lstate lane = s.lstate lane ∧ ((s.startEnd lane).laneHg lane).waiting = true) ∧
    (s.mode = .paired → s.lstate lane.other = .active →
      (s.startEnd lane).lstate lane = .syncing ∨ (s.startEnd lane).lstate lane = .standby) ∧
    (s.mode = .service → s.hg.leaveService = false →
      (s.startEnd lane).lstate lane = .serviceTest ∧ ((s.startEnd lane).laneHg lane).testPassed = false)) ∧
  (∀ (s : State) (lane : Lane), s.pwr.refclkLost = false →
    (s.mode ≠ .safe → s.mode ≠ .hold ∨ (s.hg.holdCause = 3 ∧ s.single = false) → s.lstate lane = .failed →
      ∃ t, exec (.laneFailedRetry lane) s = .next t ∧ t.lstate lane = .reset ∧ (t.laneHg lane).rejoin = true ∧
        t.lstate lane.other = s.lstate lane.other ∧ t.regs = s.regs ∧ t.mem = s.mem) ∧
    (s.lstate lane ≠ .failed ∨ s.mode = .safe ∨ s.mode = .hold ∧ (s.hg.holdCause ≠ 3 ∨ s.single = true) →
      exec (.laneFailedRetry lane) s = .next s)) ∧
  (∀ (s : State) (lane : Lane), s.pwr.refclkLost = false →
    let ready := s.mode = .wide ∧ s.lstate lane = .wideRun ∧ s.lstate lane.other = .wideRun ∧
      ¬ (s.upd.siphon = sipFirst ∧ lane = s.upd.first)
    (ready → ∃ t, exec (.galleryRestoreTick lane) s = .next t ∧
      (∀ g, g < 64 → s.galEn g = true → s.wideHome g = lane → s.galShed g = true → t.grant g = some lane ∧ t.galShed g = false) ∧
      ∀ g, g < 64 → s.wideHome g ≠ lane ∨ s.galShed g = false → t.grant g = s.grant g) ∧
    (¬ ready → exec (.galleryRestoreTick lane) s = .next s)) ∧
  (∀ s : State, s.pwr.refclkLost = true →
    exec .takeoverTick s = .next s ∧ exec .plannedHandover s = .next s ∧ exec .syncComplete s = .next s ∧
    (∀ p, exec (.heartbeatMiss p) s = .next s ∧ exec (.heartbeatReceived p) s = .next s ∧ exec (.heartbeatPathRestored p) s = .next s) ∧
    (∀ b ok, exec (.partnerHeartbeatChange b ok) s = .next s) ∧
    (∀ l, exec (.laneWatchdog l) s = .next s ∧ exec (.laneFailedRetry l) s = .next s ∧ exec (.galleryRestoreTick l) s = .next s) ∧
    (∀ l c, exec (.laneDirectFailure l c) s = .next s) ∧ (∀ l up, exec (.culvertLinkChange l up) s = .next s))

/-- Exercises, the headgate's failures, choices and MODE_SET (R21, R429–R435, R437). -/
def Obligations.HeadgateEvents : Prop :=
  (∀ (s : State) (r : Req) (x : Session) (l : Lane), Safety.Served s r 0x41 0 x l →
    let p := s.hg.active.other
    let ready := s.mode = .paired ∧ s.lstate s.hg.active = .active ∧ s.current = true ∧ s.hg.exercise = none ∧ s.upd.siphon = sipIdle
    (ready → ∃ u : State, exec (.exercise r) s = .next (Safety.replied u s r x l 0x41 .ok []) ∧ u.lstate p = .serviceTest ∧
      u.hg.exercise = some (1, p) ∧ u.hg.copyStale = true ∧ u.regs = s.regs ∧ u.mem = s.mem) ∧
    (¬ ready → exec (.exercise r) s = .next (Safety.replied (Safety.took s r x) s r x l 0x41 .state []))) ∧
  (∀ (s : State), s.pwr.refclkLost = false →
    (∀ n l, s.hg.exercise = some (n, l) → n = 1 ∨ n = 4 → s.lstate l = .serviceTest →
      (s.laneHg l).testPassed = true → ∃ t, exec .exerciseStageDone s = .next t ∧ t.hg.exercise = some (n + 1, l) ∧
        t.lstate l = .starting ∧ t.lstate l.other = s.lstate l.other ∧ t.regs = s.regs ∧ t.mem = s.mem) ∧
    (∀ n l, s.hg.exercise = some (n, l) → n ≠ 1 ∧ n ≠ 4 ∨ s.lstate l ≠ .serviceTest ∨ (s.laneHg l).testPassed = false →
      exec .exerciseStageDone s = .next s) ∧
    (s.hg.exercise = none → exec .exerciseStageDone s = .next s)) ∧
  (∀ s : State, s.pwr.refclkLost = false →
    let h := s.fget 0 HG_EXER_AGE_HOURS
    let m := s.fget 0 HG_EXER_CFG_MAX_AGE
    let event := 0 < m ∧ m ≤ h + 1 ∧ (h + 1 - m) % 24 = 0
    (h < 0xFFFF → ∃ t, exec .exerciseAgeHour s = .next t ∧ t.fget 0 HG_EXER_AGE_HOURS = h + 1 ∧
      Safety.OnlyRegs [HG_EXER_AGE_HOURS.off] s t ∧ (event → Safety.Raised 583 0 false (h + 1) t) ∧ (¬ event → t.events = s.events)) ∧
    (h = 0xFFFF → s.hg.exerPassAt.isSome = true ∨ 0xFFFF * 3600000 ≤ s.uptime →
      ∃ t, exec .exerciseAgeHour s = .next t ∧ t.fget 0 HG_EXER_AGE_HOURS = 0xFFFF ∧ t.events = s.events ∧ t.mem = s.mem) ∧
    (h = 0xFFFF → s.hg.exerPassAt = none → s.uptime < 0xFFFF * 3600000 →
      ∃ t, exec .exerciseAgeHour s = .next t ∧ t.fget 0 HG_EXER_AGE_HOURS = 1 ∧ Safety.OnlyRegs [HG_EXER_AGE_HOURS.off] s t)) ∧
  (∀ s : State, s.pwr.refclkLost = false →
    let hold := fun (t : State) (cause code : Nat) => t.mode = .hold ∧ t.hg.holdCause = cause ∧ t.hg.hg = .holdWait ∧
      t.hg.takeover = none ∧ Safety.Raised 6 0 true (code * 0x1000000 + s.tickNo % 0x1000000) t
    (s.mode ≠ .safe → s.single = false → ¬ (s.mode = .hold ∧ s.hg.hg = .holdWait) →
      (s.hg.choiceAt = none → ∃ t, exec .headgateDisagree s = .next t ∧ hold t 1 1) ∧
      (∀ at_, s.hg.choiceAt = some at_ → at_ + 60000000000 ≤ s.now → ∃ t, exec .headgateDisagree s = .next t ∧ hold t 1 1) ∧
      (∀ at_, s.hg.choiceAt = some at_ → s.now < at_ + 60000000000 →
        ∃ t, exec .headgateDisagree s = .next t ∧ t = s.enterSafe 5 ∧ t.mode = .safe) ∧
      (∃ t, exec (.headgateCopySilent .hg0) s = .next t ∧ hold t 2 2 ∧ t.hg.silent = some .hg0) ∧
      (∃ t, exec (.headgateCopySilent .hg1) s = .next t ∧ hold t 2 3 ∧ t.hg.silent = some .hg1)) ∧
    (s.mode = .safe ∨ s.single = true ∨ s.mode = .hold ∧ s.hg.hg = .holdWait →
      exec .headgateDisagree s = .next s ∧ ∀ c, exec (.headgateCopySilent c) s = .next s) ∧
    (s.single = true → ∃ t, exec .singleCopySilent s = .next t ∧ t = s.enterSafe 5 ∧ t.mode = .safe) ∧
    (s.single = false → exec .singleCopySilent s = .next s) ∧
    (s.mode = .hold → s.hg.holdCause = 3 → s.single = false →
      ∃ t, exec .noLaneTimeout s = .next t ∧ t = s.enterSafe 6 ∧ t.mode = .safe) ∧
    (s.mode ≠ .hold ∨ s.hg.holdCause ≠ 3 ∨ s.single = true → exec .noLaneTimeout s = .next s)) ∧
  (∀ (s : State) (lane : Lane), s.pwr.refclkLost = false →
    let seen := match lane with
      | .a => HG_LSEL_A_SEEN
      | .b => HG_LSEL_B_SEEN
    let waits := s.mode = .hold ∧ (s.hg.holdCause = 1 ∨ s.hg.holdCause = 2 ∨ s.hg.holdCause = 3 ∧ s.single = true) ∧ s.hg.choice = none
    let start := s.pwr.compared = true ∧ s.pwr.agreed = false ∨ s.lstate .a = .reset ∧ s.lstate .b = .reset
    (¬ waits → ∃ t, exec (.laneChoice lane) s = .next t ∧ t.fbit 0 seen = true ∧ Safety.Raised 7 0 true (0x3000000 + lane.num) t ∧
      Safety.OnlyRegs [HG_LSEL_A_SEEN.off] s t) ∧
    (waits → start → ∃ t, exec (.laneChoice lane) s = .next t ∧ t.fbit 0 seen = true ∧ t.hg.startChoice = some lane ∧
      t.hg.holdCause = 0 ∧ t.pwr.agreed = true ∧ t.inReset 1 = false ∧ t.mode = s.hg.heldMode) ∧
    (waits → ¬ start → s.lstate lane ≠ .held → ∃ t, exec (.laneChoice lane) s = .next t ∧ t.mode = .hold ∧ t.fbit 0 seen = true ∧
      t.fget 0 HG_LSEL_IGNORED = satAdd HG_LSEL_IGNORED.width (s.fget 0 HG_LSEL_IGNORED) 1 ∧
      Safety.Raised 7 0 true (0x2000000 + lane.num) t ∧ Safety.OnlyRegs [HG_LSEL_IGNORED.off] s t) ∧
    (waits → ¬ start → s.lstate lane = .held → ∃ t, exec (.laneChoice lane) s = .next t ∧ t.mode = .hold ∧ t.fbit 0 seen = true ∧
      t.hg.choice = some lane ∧ (s.hg.holdCause = 1 → t.hg.choiceAt = some s.now) ∧ Safety.Raised 7 0 true (0x1000000 + lane.num) t ∧
      (∀ g, g < 64 → t.grant g = s.grant g) ∧ t.lstate lane = .held ∧ t.mem = s.mem)) ∧
  (∀ (s : State) (lane : Lane), s.mode = .hold → s.hg.choice = some lane →
    s.tickChoice.hg.choice = none ∧
    (s.hg.holdCause = 1 → s.hg.heldMode = .paired → s.lstate lane = .held → s.lstate lane.other = .held →
      (s.laneHg lane).held = .active ∨ (s.laneHg lane).held = .standby ∨ (s.laneHg lane).held = .syncing →
      s.tickChoice.mode = .paired ∧ s.tickChoice.lstate lane = .active ∧ s.tickChoice.lstate lane.other = .reset ∧
      s.tickChoice.hg.hg = .dual)) ∧
  (∀ (s : State) (r : Req) (mode : BitVec 8) (x : Session) (l : Lane), Safety.Served s r 0x40 4 x l →
    let ends := fun (c : Instr) (u : State) (res : Res) => exec c s = .next (Safety.replied u s r x l 0x40 res [])
    let took := Safety.took s r x
    let enter := Instr.modeSetEnterService r mode
    let leave := Instr.modeSetLeaveService r
    let open_ := (s.mode = .paired ∨ s.mode = .wide ∨ s.mode = .service) ∧ s.upd.siphon = sipIdle
    (open_ → s.mode ≠ .service → mode = 4 → ends enter { took with hg := { s.hg with enterService := true } } .ok) ∧
    (open_ → s.mode = .service → mode = 4 → ends enter took .ok) ∧
    (open_ → mode ≠ 0 → mode ≠ 4 → ends enter took .range) ∧
    (¬ open_ → mode ≠ 0 → ends enter took .state) ∧
    (open_ → s.mode = .service → ends leave { took with hg := { s.hg with leaveService := true } } .ok) ∧
    (open_ → s.mode ≠ .service → ends leave took .ok) ∧
    (¬ open_ → ends leave took .state)) ∧
  (∀ (s : State) (r : Req), exec (.modeSetEnterService r 0) s = .next s) ∧
  (∀ s : State, s.pwr.refclkLost = true →
    exec .exerciseStageDone s = .next s ∧ exec .exerciseAgeHour s = .next s ∧ exec .headgateDisagree s = .next s ∧
    exec .singleCopySilent s = .next s ∧ exec .noLaneTimeout s = .next s ∧ (∀ c, exec (.headgateCopySilent c) s = .next s) ∧
    ∀ l, exec (.laneChoice l) s = .next s)

/-- Entry to SAFE (R463–R465). -/
def Obligations.SafeEntry : Prop :=
  ∀ (s : State) (cause : Nat),
    (s.mode = .safe → s.enterSafe cause = s) ∧
    (s.mode ≠ .safe →
      let t := s.enterSafe cause
      t.mode = .safe ∧ (∀ r, t.responder = some r → s.qualifies r = true) ∧
      (t.responder = none → s.qualifies .a = false ∧ s.qualifies .b = false) ∧
      (∀ l, s.answering 0 = some l → s.qualifies l = true → t.responder = some l) ∧
      t.hg.takeover = none ∧ t.hg.handover = none ∧ t.hg.exercise = none ∧ t.lstate .a = .reset ∧ t.lstate .b = .reset ∧
      (∀ a ∈ t.acts, a.kind ≠ actWrite) ∧ t.relActs = [])

/-- Reset requests, assertion, release and reload (R441–R451). -/
def Obligations.DomainResets : Prop :=
  (∀ (s : State) (dom : Dom), s.pwr.refclkLost = false →
    (dom = .switch ∨ dom = .meter ∨ dom = .can → exec (.blockWatchdog dom) s = .next (s.domRequest dom 6)) ∧
    (dom = .aio ∨ dom = .laneA ∨ dom = .laneB → exec (.blockWatchdog dom) s = .next s) ∧
    ((s.dom dom).due = true → domIsLane dom = false → exec (.resetCommandDue dom) s = .next (s.domRequest dom 5)) ∧
    ((s.dom dom).due = false ∨ domIsLane dom = true → exec (.resetCommandDue dom) s = .next s)) ∧
  (∀ (s : State) (dom : Dom) (src : Nat),
    let t := s.domRequest dom src
    ((s.dom dom).phase = .idle → s.inReset dom.bit = false →
      (t.dom dom).phase = .quiescing ∧ (t.dom dom).source = src ∧ (t.dom dom).since = s.now ∧ (t.dom dom).due = false ∧
      (t.fget 0 HG_RST_STATUS_QUIESCING).testBit dom.bit = true ∧ (∀ d, d ≠ dom → t.dom d = s.dom d) ∧ t.mem = s.mem ∧
      t.events = s.events) ∧
    ((s.dom dom).phase = .idle → s.inReset dom.bit = true → t = s) ∧
    ((s.dom dom).phase = .quiescing → t = s.setDom dom { s.dom dom with due := false }) ∧
    ((s.dom dom).phase = .asserted → (t.dom dom).phase = .asserted ∧ (t.dom dom).since = s.now ∧ (t.dom dom).due = false ∧
      (∀ d, t.inReset d = s.inReset d) ∧ t.events = s.events) ∧
    (domIsLane dom = false → (s.dom dom).phase = .reloading →
      (t.dom dom).phase = .asserted ∧ (t.dom dom).source = src ∧ t.inReset dom.bit = true)) ∧
  (∀ (s : State) (dom : Dom), s.pwr.refclkLost = false →
    ((s.dom dom).phase = .quiescing →
      exec (.domainQuiesced dom) s = .next (s.domAssert dom) ∧
      (dom = .switch ∨ dom = .can → exec (.quiesceTimeout dom) s = .next (s.domAssert dom))) ∧
    ((s.dom dom).phase ≠ .quiescing → exec (.domainQuiesced dom) s = .next s ∧ exec (.quiesceTimeout dom) s = .next s) ∧
    (dom ≠ .switch → dom ≠ .can → exec (.quiesceTimeout dom) s = .next s)) ∧
  (∀ (s : State) (dom : Dom), domIsLane dom = false → (s.dom dom).phase = .quiescing →
    let t := s.domAssert dom
    t.inReset dom.bit = true ∧ (t.dom dom).phase = .asserted ∧ (t.dom dom).since = s.now ∧ t.isolated dom = true ∧
      t.fget 0 (rstCntF dom.bit) = satAdd 8 (s.fget 0 (rstCntF dom.bit)) 1 ∧
      t.fget 0 HG_RST_LAST_SOURCE = (s.dom dom).source % 256 ∧ t.fget 0 HG_RST_LAST_DOMAINS = 2 ^ dom.bit ∧
      ((s.dom dom).times = [] → ∃ e ∈ t.events, e.source = 636 ∧ e.gallery = 0 ∧ e.data / 0x1000000 = (s.dom dom).source) ∧
      (3 ≤ ((s.dom dom).times.filter (fun t => s.now < t + 60000000000)).length →
        (t.fget 0 HG_RST_STATUS_BACKOFF).testBit dom.bit = true)) ∧
  (∀ (s : State) (dom : Dom), s.pwr.refclkLost = false →
    let ready := (s.dom dom).phase = .asserted ∧ (s.fget 0 HG_RST_STATUS_BACKOFF).testBit dom.bit = false ∧
      (s.fget 0 HG_RST_STATUS_DEFERRED).testBit dom.bit = false
    (ready → domIsLane dom = false →
      ∃ t, exec (.domainResetRelease dom) s = .next t ∧ t.inReset dom.bit = false ∧ (t.dom dom).phase = .reloading ∧
        (∀ d, d ≠ dom.bit → t.inReset d = s.inReset d) ∧ t.mem = s.mem ∧ t.events = s.events) ∧
    (ready → domIsLane dom = true → s.mode ≠ .safe → ¬ (s.mode = .hold ∧ s.hg.holdCause ≠ 3) → s.lstate (domLane dom) = .reset →
      ∃ t, exec (.domainResetRelease dom) s = .next t ∧ t.inReset dom.bit = false ∧ t.lstate (domLane dom) = .starting ∧
        (t.laneHg (domLane dom)).testPassed = false) ∧
    (ready → domIsLane dom = true → s.mode = .safe ∨ s.mode = .hold ∧ s.hg.holdCause ≠ 3 ∨ s.lstate (domLane dom) ≠ .reset →
      exec (.domainResetRelease dom) s = .next s) ∧
    (¬ ready → exec (.domainResetRelease dom) s = .next s)) ∧
  (∀ (s : State) (dom : Dom), s.pwr.refclkLost = false →
    (∀ l f, (s.dom dom).phase = .reloading → s.inReset dom.bit = false → s.answering 0 = some l →
      (s.bank l (s.bootBank l)).image = some f → domIsLane dom = false →
      ∃ t, exec (.sharedFwReloaded dom) s = .next t ∧ (t.dom dom).phase = .idle ∧ (t.dom dom).source = 0 ∧ t.isolated dom = false ∧
        (dom = .switch → t.fbit 0 ETH_STATUS_FW_LOADED = true) ∧ (dom = .meter → t.fbit 0 MTR_STATUS_FW_LOADED = true) ∧
        (dom = .can → t.fbit (canB 0) CAN_STATUS_FW_LOADED = true)) ∧
    ((s.dom dom).phase ≠ .reloading ∨ s.answering 0 = none ∨ domIsLane dom = true → exec (.sharedFwReloaded dom) s = .next s) ∧
    (∀ l, s.answering 0 = some l → (s.bank l (s.bootBank l)).image = none → exec (.sharedFwReloaded dom) s = .next s)) ∧
  (∀ (s : State) (dom : Dom), s.pwr.refclkLost = false →
    ((s.fget 0 HG_RST_STATUS_BACKOFF).testBit dom.bit = true →
      ∃ t, exec (.resetBackoffExpired dom) s = .next t ∧ (t.fget 0 HG_RST_STATUS_BACKOFF).testBit dom.bit = false ∧
        (domIsLane dom = false → (s.dom dom).phase = .asserted → (s.fget 0 HG_RST_STATUS_DEFERRED).testBit dom.bit = false →
          t.inReset dom.bit = false ∧ (t.dom dom).phase = .reloading)) ∧
    ((s.fget 0 HG_RST_STATUS_BACKOFF).testBit dom.bit = false → exec (.resetBackoffExpired dom) s = .next s)) ∧
  (∀ (s : State) (dom : Dom),
    (domIsLane dom = true → ∃ t, exec (.nvPulseEnd dom) s = .next t ∧ domLane dom ∉ t.upd.pulses ∧
      (t.fget 0 HG_RST_STATUS_DEFERRED).testBit dom.bit = false ∧ t.mem = s.mem ∧ t.events = s.events) ∧
    (domIsLane dom = false → exec (.nvPulseEnd dom) s = .next s)) ∧
  (∀ (s : State) (dom : Dom), s.pwr.refclkLost = true →
    exec (.blockWatchdog dom) s = .next s ∧ exec (.resetCommandDue dom) s = .next s ∧ exec (.domainQuiesced dom) s = .next s ∧
    exec (.quiesceTimeout dom) s = .next s ∧ exec (.domainResetRelease dom) s = .next s ∧ exec (.sharedFwReloaded dom) s = .next s ∧
    exec (.resetBackoffExpired dom) s = .next s)

/-- Self-tests and cell faults (R305, R306, R429, R452–R463). -/
def Obligations.SelfTests : Prop :=
  (∀ (s : State) (lane : Lane) (test : SelfTest),
    let ends := fun t => exec (.startupSelftestDone lane test) s = .next t
    (s.lstate lane = .starting → (s.laneHg lane).testPassed = false →
      (test.parts.toNat ||| 0x40 = 0xFF → test.dpOk ≠ 0 → test.bank0.isSome = true ∨ test.bank1.isSome = true →
        ∃ t, ends t ∧ (t.laneHg lane).testPassed = true ∧ t.lstate lane = .starting ∧
          t.fbit (laneKey lane 0) BIST_REPORT_PASS = true ∧ t.fget (laneKey lane 0) BIST_REPORT_PARTS = 0xFF ∧
          t.fget (laneKey lane 0) BIST_REPORT_KIND = 1 ∧ t.fget (laneKey lane 0) LOOP_CTRL_DP_OK = test.dpOk.toNat ∧
          ∃ e ∈ t.events, e.source = 594) ∧
      (test.parts.getLsbD 7 = false →
        (s.mode ≠ .hold → s.upd.siphon ≠ sipSecond →
          ¬ (s.mode = .boot ∧ s.lstate lane.other = .failed ∧ s.fget (4 * lane.other.num) HG_LANE_A_LAST_FAIL = 0xB) →
          ∃ t, ends t ∧ t.inReset lane.dom.bit = true ∧ t.fget (4 * lane.num) HG_LANE_A_LAST_FAIL = 0xB ∧ t.lstate lane ≠ .starting) ∧
        (s.upd.siphon ≠ sipSecond →
          s.mode = .boot → s.lstate lane.other = .failed → s.fget (4 * lane.other.num) HG_LANE_A_LAST_FAIL = 0xB →
          ∃ t, ends t ∧ t.mode = .safe ∧ (t.fget 0 HG_SAFE_CAUSE = 1 ∨ t.fget 0 HG_SAFE_CAUSE = 2)) ∧
        (s.upd.siphon = sipSecond → lane = s.upd.first.other →
          ∃ t, ends t ∧ t.upd.siphon = sipIdle ∧ t.lstate lane = .reset ∧ t.inReset lane.dom.bit = true))) ∧
    (s.lstate lane ≠ .starting ∨ (s.laneHg lane).testPassed = true → ends s)) ∧
  (∀ (s : State) (lane : Lane) (test : SelfTest),
    let ends := fun t => exec (.servicePassDone lane test) s = .next t
    let fits := test.parts.toNat / 2 % 32 = 31 ∧ test.dpOk ≠ 0
    (s.lstate lane = .serviceTest → fits →
      (s.mode = .service → ∃ t, ends t ∧ (t.laneHg lane).testPassed = true ∧
        t.lstate lane = (if s.hg.leaveService then .starting else .serviceTest) ∧
        t.fbit (laneKey lane 0) BIST_REPORT_PASS = true ∧ t.fget (laneKey lane 0) BIST_REPORT_KIND = 2) ∧
      (s.mode = .paired → s.hg.exercise.isSome = true → ∃ t, ends t ∧ (t.laneHg lane).testPassed = true ∧
        t.lstate lane = .serviceTest ∧ t.fbit (laneKey lane 0) BIST_REPORT_PASS = true ∧
        t.fget (laneKey lane 0) BIST_REPORT_KIND = 3)) ∧
    (s.lstate lane = .serviceTest → ¬ fits → s.mode ≠ .hold →
      ∃ t, ends t ∧ t.inReset lane.dom.bit = true ∧ t.fget (4 * lane.num) HG_LANE_A_LAST_FAIL = 0xB ∧ t.lstate lane ≠ .serviceTest) ∧
    (s.lstate lane ≠ .serviceTest → ends s)) ∧
  (∀ (s : State) (lane : Lane) (cluster : Fin 8) (volt clock : BitVec 16),
    let c := cluster.val + 8 * lane.num
    let u := (s.stallCheck c).bistPick c
    let ends := fun t => exec (.bistSliceDue lane cluster volt clock) s = .next t
    (s.bistRuns lane = true → (s.bist c).running = false →
      (u.fget (bistB c) BIST_CLUSTER_POS = 0x1F → ends u) ∧
      (u.fget (bistB c) BIST_CLUSTER_POS ≠ 0x1F →
        (300 < volt.toInt.natAbs → ∃ t, ends t ∧
          t.fget (laneKey lane 0) BIST_SKIP_VOLT = satAdd 16 (u.fget (laneKey lane 0) BIST_SKIP_VOLT) 1 ∧ t = u.bistSkip lane 1 0) ∧
        (volt.toInt.natAbs ≤ 300 → 50 < clock.toInt.natAbs → ∃ t, ends t ∧
          t.fget (laneKey lane 0) BIST_SKIP_CLOCK = satAdd 16 (u.fget (laneKey lane 0) BIST_SKIP_CLOCK) 1 ∧ t = u.bistSkip lane 0 1) ∧
        (volt.toInt.natAbs ≤ 300 → clock.toInt.natAbs ≤ 50 → ∃ t, ends t ∧ (t.bist c).running = true ∧
          t.fget (bistB c) BIST_CLUSTER_POS = u.fget (bistB c) BIST_CLUSTER_POS ∧ t.regs = u.regs ∧ t.mem = u.mem))) ∧
    (s.bistRuns lane = false ∨ (s.bist c).running = true → ends s)) ∧
  (∀ (s : State) (lane : Lane) (cluster : Fin 8) (volt clock : BitVec 16) (pass : Bool),
    let c := cluster.val + 8 * lane.num
    let ends := fun t => exec (.bistSliceDone lane cluster volt clock pass) s = .next t
    let pos := s.fget (bistB c) BIST_CLUSTER_POS
    ((s.bist c).running = true →
      (300 < volt.toInt.natAbs → ∃ t, ends t ∧ (t.bist c).running = false ∧
        t.fget (laneKey lane 0) BIST_SKIP_VOLT = satAdd 16 (s.fget (laneKey lane 0) BIST_SKIP_VOLT) 1 ∧ t.mem = s.mem) ∧
      (volt.toInt.natAbs ≤ 300 → 50 < clock.toInt.natAbs → ∃ t, ends t ∧ (t.bist c).running = false ∧
        t.fget (laneKey lane 0) BIST_SKIP_CLOCK = satAdd 16 (s.fget (laneKey lane 0) BIST_SKIP_CLOCK) 1 ∧ t.mem = s.mem) ∧
      (volt.toInt.natAbs ≤ 300 → clock.toInt.natAbs ≤ 50 →
        (pass = true → ∃ t, ends t ∧ t.fget (laneKey lane 0) BIST_PASS_CNT = satAdd 32 (s.fget (laneKey lane 0) BIST_PASS_CNT) 1 ∧
          (t.bist c).running = false ∧
          (s.fget (bistB c) BIST_CLUSTER_SLICE < 7 →
            t.fget (bistB c) BIST_CLUSTER_SLICE = s.fget (bistB c) BIST_CLUSTER_SLICE + 1 ∧ t.mem = s.mem) ∧
          (s.fget (bistB c) BIST_CLUSTER_SLICE = 7 →
            t.fget (bistB c) BIST_CLUSTER_SLICE = 0 ∧ t.fget (bistB c) BIST_CLUSTER_POS = 0x1F)) ∧
        (pass = false → pos ≤ 16 → ∃ t, ends t ∧
          t.fget (laneKey lane 0) BIST_FAIL_CNT = satAdd 32 (s.fget (laneKey lane 0) BIST_FAIL_CNT) 1 ∧
          (t.fget (cluB c) CYC_CLUSTER_MAPPED_OUT).testBit pos = true ∧ t.fget (bistB c) BIST_CLUSTER_POS = 0x1F ∧
          (t.bist c).running = false))) ∧
    ((s.bist c).running = false → ends s)) ∧
  (∀ (s : State) (cell : Fin 272) (readable : Bool), s.pwr.refclkLost = false →
    let c := cell.val / 17
    let l := clusterLane c
    let out := (s.fget (cluB c) CYC_CLUSTER_MAPPED_OUT).testBit (cell.val % 17)
    (out = true → exec (.cellFault cell readable) s = .next s) ∧
    (out = false → ∃ t, exec (.cellFault cell readable) s = .next t ∧ cell.val ∈ t.mapOuts ∧
      (t.fget (cluB c) CYC_CLUSTER_MAPPED_OUT).testBit (cell.val % 17) = true ∧
      (∀ n, (s.mapOut cell.val).logicalOf cell.val = some n → s.runsCycles l = true → (s.cyc l).phase = .computing →
        (cell.val, readable) ∈ t.cellFaults ∧ n ∈ (t.cyc l).empty))) ∧
  (∀ (s : State) (cell : Fin 272) (readable : Bool), s.pwr.refclkLost = true → exec (.cellFault cell readable) s = .next s)

/-- The calendar (R471–R473). -/
def Obligations.Calendar : Prop :=
  (∀ day : Nat, day < 73049 →
    let d := dateOf day
    d.1 < 200 ∧ 1 ≤ d.2.1 ∧ d.2.1 ≤ 12 ∧ 1 ≤ d.2.2 ∧ d.2.2 ≤ (monthDays (leapYear d.1)).getD (d.2.1 - 1) 0 ∧ dayOf d.1 d.2.1 d.2.2 = day) ∧
  (∀ y m d : Nat, y < 200 → 1 ≤ m → m ≤ 12 → 1 ≤ d → d ≤ (monthDays (leapYear y)).getD (m - 1) 0 →
    dayOf y m d < 73049 ∧ dateOf (dayOf y m d) = (y, m, d)) ∧
  (∀ (s : State) (secs : Nat), s.calSet = some secs → secs < calRange ∧
    calWord secs 5 = s.fget 0 RTC_SET_HI_YEAR ∧ calWord secs 4 = s.fget 0 RTC_SET_HI_MONTH ∧
    calWord secs 3 % 0x100 = s.fget 0 RTC_SET_LO_DAY ∧ calWord secs 2 = s.fget 0 RTC_SET_LO_HOUR ∧
    calWord secs 1 = s.fget 0 RTC_SET_LO_MIN ∧ calSec secs 0 / 0x10000 = s.fget 0 RTC_SET_LO_SEC) ∧
  (∀ s : State, s.rtc.secs + 1 < calRange → s.calSecond.rtc.secs = s.rtc.secs + 1) ∧
  (∀ s : State, calRange ≤ s.rtc.secs + 1 → s.calSecond.rtc.secs = 0 ∧ s.calSecond.fbit 0 RTC_STATUS_OSF = true ∧
    s.calSecond.fget 0 RTC_STATUS_OSF_CAUSE = 4)

/-- The backup domain's events (R471–R479). -/
def Obligations.BackupDomain : Prop :=
  (∀ s : State,
    (s.rtc.frozen = true → exec .rtcFreezeTimeout s = .next { s with rtc := { s.rtc with frozen := false, expired := true } }) ∧
    (s.rtc.frozen = false → exec .rtcFreezeTimeout s = .next s)) ∧
  (∀ (s : State) (ann : Option (BitVec 16)) (rate phase : BitVec 16),
    let ends := fun t => exec (.rtcDisciplineCompare ann rate phase) s = .next t
    let e : Int := (s.rtcMicros : Int) - s.utcMicros ann
    let off := ofSigned 32 (clampI (-0x80000000) 0x7FFFFFFF e)
    let utc := ((s.utcMicros ann + 500000) / 1000000).toNat % calRange
    let corr : Int := if 0 < e then clampI (-1000) 0 phase.toInt else if e < 0 then clampI 0 1000 phase.toInt else 0
    (s.ptpOk = true → s.fbit 0 RTC_CTRL_DISC_EN = true →
      (s.fbit 0 RTC_STATUS_OSF = false → e.natAbs ≤ 100000 →
        ∃ t, ends t ∧ t.fget 0 RTC_OFFSET = off ∧ t.fget 0 RTC_TRIM = ofSigned 16 (clampI (-2000) 2000 (rate.toInt + corr)) ∧
          t.fget 0 RTC_STATUS_DISC = (if e.natAbs ≤ 1000 then 2 else 1) ∧ t.rtc = s.rtc ∧ t.events = s.events) ∧
      (s.fbit 0 RTC_STATUS_OSF = true ∨ 100000 < e.natAbs →
        ∃ t, ends t ∧ t.fget 0 RTC_OFFSET = off ∧ t.fbit 0 RTC_STATUS_OSF = false ∧ t.fget 0 RTC_STATUS_DISC = 1 ∧
          t.rtc.secs = utc ∧ t.rtc.sub = 0 ∧ ∃ x ∈ t.events, x.source = 609)) ∧
    (s.ptpOk = false ∨ s.fbit 0 RTC_CTRL_DISC_EN = false → ends s)) ∧
  (∀ s : State,
    let cause := if s.rtc.onCell then 3 else 2
    (s.rtc.stopped = false → s.rtc.lost = false →
      ∃ t, exec .rtcOscStopped s = .next t ∧ t.rtc.stopped = true ∧ t.fbit 0 RTC_STATUS_OSF = true ∧
        t.fget 0 RTC_STATUS_OSF_CAUSE = cause ∧ (∀ d, t.calAdvance d = t) ∧
        (s.pwr.mainPower = true → Safety.Raised 608 0 true (cause * 0x1000000) t) ∧
        (s.pwr.mainPower = false → t.rtc.owed = some cause ∧ t.events = s.events)) ∧
    (s.rtc.stopped = true ∨ s.rtc.lost = true → exec .rtcOscStopped s = .next s) ∧
    (s.rtc.stopped = true → exec .rtcOscRestarted s = .next { s with rtc := { s.rtc with stopped := false } }) ∧
    (s.rtc.stopped = false → exec .rtcOscRestarted s = .next s)) ∧
  (∀ s : State, ∃ t, exec .rtcCalendarWrap s = .next t ∧ t.rtc.secs = 0 ∧ t.fbit 0 RTC_STATUS_OSF = true ∧
    t.fget 0 RTC_STATUS_OSF_CAUSE = 4) ∧
  (∀ s : State,
    (s.rtc.onCell = false → ∃ t, exec .backupSwitchover s = .next t ∧ t.pwr.mainPower = false ∧ t.rtc.onCell = true ∧
      t.fget 0 RTC_LAST_BKP = s.rtc.secs % 2 ^ 32 ∧ t.fget 0 RTC_BKP_CNT = satAdd RTC_BKP_CNT.width (s.fget 0 RTC_BKP_CNT) 1 ∧
      t.fget 0 RTC_FIRST_BKP = (if s.fget 0 RTC_FIRST_BKP = 0 then s.rtc.secs % 2 ^ 32 else s.fget 0 RTC_FIRST_BKP) ∧
      t.rtc.secs = s.rtc.secs ∧ t.events = s.events ∧ t.mem = s.mem) ∧
    (s.rtc.onCell = true → exec .backupSwitchover s = .next { s with pwr := { s.pwr with mainPower := false } })) ∧
  (∀ (s : State) (mv : BitVec 16),
    (s.pwr.mainPower = true → ∃ t, exec (.coinCellMeasure mv) s = .next t ∧ t.fget 0 RTC_CELL_VOLTAGE = mv.toNat ∧
      (mv.toNat < 2600 → t.fbit 0 RTC_STATUS_CELL_LOW = true ∧ Safety.Raised 610 0 true mv.toNat t) ∧
      (2700 ≤ mv.toNat → t.fbit 0 RTC_STATUS_CELL_LOW = false) ∧
      (2600 ≤ mv.toNat → mv.toNat < 2700 → t.fbit 0 RTC_STATUS_CELL_LOW = s.fbit 0 RTC_STATUS_CELL_LOW) ∧
      Safety.OnlyRegs [RTC_CELL_VOLTAGE.off, RTC_STATUS_CELL_LOW.off] s t) ∧
    (s.pwr.mainPower = false → exec (.coinCellMeasure mv) s = .next s)) ∧
  (∀ s : State, s.pwr.mainPower = false → exec .backupBrownOut s = .next { s with rtc := { s.rtc with lost := true } }) ∧
  (∀ s : State, s.pwr.mainPower = true → exec .backupBrownOut s = .next s)

/-- The recorder's events (R483–R489). -/
def Obligations.Recorder : Prop :=
  (∀ (s : State) (ext : Bool) (desc : Fin 64), s.pwr.refclkLost = false →
    let k := flowKey ext desc.val
    let b := flowB ext desc.val
    let epoch := s.fget b FLOW_H_CFG_EPOCH
    let src := s.flowSource (s.fget b FLOW_H_CFG_KIND) (s.fget b FLOW_H_SRC)
    let on := s.fbit 0 FLOW_CTRL_EN = true ∧ s.fbit b FLOW_H_CFG_EN = true ∧ s.flow.stopped.contains k = false
    (on → s.flowFrozen = true → exec (.recorderSample ext desc) s = .next (s.finc 0 FLOW_FREEZE_SKIP)) ∧
    (on → s.flowFrozen = false →
      (src = none → ∃ t, exec (.recorderSample ext desc) s = .next t ∧
        t.fget 0 FLOW_MISSED = satAdd FLOW_MISSED.width (s.fget 0 FLOW_MISSED) 1 ∧ t.events = s.events) ∧
      (∀ v, src = some v → exec (.recorderSample ext desc) s = .next (s.flowSample k (some v)))) ∧
    (¬ on → exec (.recorderSample ext desc) s = .next s) ∧
    (∀ slot r, s.flowOpen k = some (slot, r) → epoch ≠ 0 → r.start + 240 * epoch ≤ s.fget 0 FLOW_HOURS →
      (s.flowFrozen = false → ∃ t, exec (.recorderEpochEnd ext desc) s = .next t ∧ t.flowOpen k = none ∧
        t.flowRec slot = { r with state := 2 } ∧ t.regs = s.regs ∧ t.events = s.events) ∧
      (s.flowFrozen = true → ∃ t, exec (.recorderEpochEnd ext desc) s = .next t ∧ k ∈ t.flow.dueEnd ∧ t.flow.store = s.flow.store)) ∧
    (∀ slot r, s.flowOpen k = some (slot, r) → epoch = 0 ∨ s.fget 0 FLOW_HOURS < r.start + 240 * epoch →
      exec (.recorderEpochEnd ext desc) s = .next s) ∧
    (s.flowOpen k = none → exec (.recorderEpochEnd ext desc) s = .next s)) ∧
  (∀ s : State, s.pwr.refclkLost = false →
    (s.flowFrozen = false → exec .recorderFlush s = .next s.flowFlush) ∧
    (s.flowFrozen = true → exec .recorderFlush s = .next s)) ∧
  (∀ (s : State) (k slot : Nat) (r : FlowRec), s.flow.work = [(k, slot, r)] → s.flowFlush.flowRec slot = r) ∧
  (∀ (s : State) (r : Req) (x : Session) (l : Lane), Safety.Served s r 0x90 lenFreeze x l →
    let ends := fun (c : Instr) (u : State) (res : Res) => exec c s = .next (Safety.replied u s r x l 0x90 res [])
    let took := Safety.took s r x
    (ends (.recorderFreeze r 1) took.flowFreeze .ok ∧ took.flowFreeze.flowFrozen = true) ∧
    (s.flowFrozen = true → ends (.recorderRelease r) took.flowRelease .ok ∧ ends (.recorderFreeze r 0) took.flowRelease .ok ∧
      took.flowRelease.flowFrozen = false) ∧
    (s.flowFrozen = false → ends (.recorderRelease r) took .ok ∧ ends (.recorderFreeze r 0) took .ok) ∧
    (∀ on : BitVec 8, 2 ≤ on.toNat → ends (.recorderFreeze r on) took .range)) ∧
  (∀ s : State, s.pwr.refclkLost = false →
    let m := s.fget 0 FLOW_CTRL_FREEZE_MAX
    (s.flowFrozen = true → m ≠ 0 → ∃ t, exec .recorderFreezeExpired s = .next t ∧ t.flowFrozen = false ∧ Safety.Raised 615 0 false m t) ∧
    (s.flowFrozen = false ∨ m = 0 → exec .recorderFreezeExpired s = .next s) ∧
    (s.pwr.mainPower = true → ∃ t, exec .operatingHoursStep s = .next t ∧
      t.fget 0 FLOW_HOURS = (s.fget 0 FLOW_HOURS + 1) % 2 ^ 32 ∧ Safety.OnlyRegs [FLOW_HOURS.off] s t) ∧
    (s.pwr.mainPower = false → exec .operatingHoursStep s = .next s)) ∧
  (∀ s : State, s.pwr.refclkLost = true →
    exec .recorderFlush s = .next s ∧ exec .recorderFreezeExpired s = .next s ∧ exec .operatingHoursStep s = .next s ∧
    ∀ e d, exec (.recorderSample e d) s = .next s ∧ exec (.recorderEpochEnd e d) s = .next s) ∧
  (∀ (r : FlowRec) (x bin hours cyc : Nat), (r.take false x bin hours cyc).samples = satAdd 32 r.samples 1 ∧
    nat0 (r.take false x bin hours cyc).bins bin = satAdd 32 (nat0 r.bins bin) 1 ∧
    (∀ b, b ≠ bin → nat0 (r.take false x bin hours cyc).bins b = nat0 r.bins b) ∧
    (∀ low width n, flowBin low width n = some bin → bin < 32)) ∧
  (∀ (s : State) (l : Lane),
    (s.flowFrozen = true → let t := (s.regDo l 0x24010 1).1
      (s.regDo l 0x24010 1).2 = .ok ∧ t.flow.store = [] ∧ t.flow.clears = (s.flow.clears + 1) % 2 ^ 32 ∧ t.flowFrozen = true ∧
      Safety.Raised 616 0 false t.flow.clears t) ∧
    (s.flowFrozen = false → s.regDo l 0x24010 1 = (s, .state))) ∧
  (∀ (s : State) (l : Lane) (d : Fin 32) (w : Fin 4) (v slot : Nat) (r : FlowRec), s.flowOpen d.val = some (slot, r) →
    let a := flowB false d.val + 4 * w.val
    let t := (s.regDo l a v).1
    (r.differs w.val (s.regSet l a v |>.rd a).toNat = true →
      (s.flowFrozen = false → t.flowOpen d.val = none ∧ t.flowRec slot = { r with state := 2 }) ∧
      (s.flowFrozen = true → d.val ∈ t.flow.dueEnd ∧ t.flowOpen d.val = some (slot, r))) ∧
    (r.differs w.val (s.regSet l a v |>.rd a).toNat = false → t.flowOpen d.val = some (slot, r)))

/-- Reading, writing, forcing and describing points (R100–R102, R296–R299). -/
def Obligations.PointOperations : Prop :=
  ∀ (s : State) (r : Req) (x : Session) (l : Lane),
  let u := Safety.took s r x
  (∀ handle : BitVec 32, Safety.Served s r 0x20 4 x l →
    let h := handleOf handle.toNat
    let q := u.imageLane l h.gallery
    let m := u.imageCycle q
    (u.judgeHandle x.gallery h (u.roleAt q m h.ptype h.index) = .ok →
      exec (.pointRead r handle) s = .next (Safety.replied u s r x l 0x20 .ok
        (beBytes 4 m ++ beBytes 8 (u.objRead q m h.ptype h.index)))) ∧
    (∀ e, e ≠ .ok → e ≠ .partial_ → u.judgeHandle x.gallery h (u.roleAt q m h.ptype h.index) = e →
      exec (.pointRead r handle) s = .next (Safety.replied u s r x l 0x20 e []))) ∧
  (∀ (handle : BitVec 32) (value : BitVec 64), Safety.Served s r 0x21 12 x l →
    let h := handleOf handle.toNat
    let j := u.judgeHandle x.gallery h (u.roleNow h.ptype h.index)
    let a := u.writeAccepts h.ptype h.index value.toNat
    (j = .ok → a = .ok → exec (.pointWrite r handle value) s = .next (Safety.replied
      { u with acts := u.acts ++ [⟨actWrite, h.ptype, h.index, h.gen, h.gallery, value.toNat, u.dueTick⟩] } s r x l 0x21 .ok
      (beBytes 4 u.dueTick))) ∧
    (∀ e, e ≠ .ok → e ≠ .partial_ → (j = e ∨ j = .ok ∧ a = e) →
      exec (.pointWrite r handle value) s = .next (Safety.replied u s r x l 0x21 e []))) ∧
  (∀ (count : BitVec 8) (handles : List (BitVec 32)), Safety.Served s r 0x22 (lenGather handles.length) x l →
    let hs := handles.map (fun h => handleOf h.toNat)
    let ls := hs.map (fun h => u.imageLane l h.gallery)
    let ends := fun (res : Res) (body : List Byte) => exec (.gather r count handles) s = .next (Safety.replied u s r x l 0x22 res body)
    (count.toNat = 0 ∨ 16 < count.toNat → ends .range []) ∧
    (1 ≤ count.toNat → count.toNat ≤ 16 → count.toNat ≠ handles.length → ends .badLength []) ∧
    (1 ≤ handles.length → handles.length ≤ 16 → count.toNat = handles.length →
      ∃ m, (∀ q ∈ ls, cyclesAfter (u.imageCycle q) m ≤ 0x80000000) ∧ (∃ q ∈ ls, m = u.imageCycle q) ∧
        let vs := hs.map (fun h => u.handleRead x.gallery l m h)
        ends (if vs.all (fun v => decide (v.1 = .ok)) then .ok else .partial_)
          (beBytes 4 m ++ beBytes 1 count.toNat ++ beBytes 3 0 ++ estatus (vs.map (fun v => v.1)) ++
            (vs.map (fun v => beBytes 8 v.2)).flatten))) ∧
  (∀ (count : BitVec 8) (elems : List (BitVec 32 × BitVec 64)), Safety.Served s r 0x23 (lenScatter elems.length) x l →
    let res := fun (e : BitVec 32 × BitVec 64) => let h := handleOf e.1.toNat
      match u.judgeHandle x.gallery h (u.roleNow h.ptype h.index) with
      | .ok => u.writeAccepts h.ptype h.index e.2.toNat
      | o => o
    (count.toNat = 0 ∨ 16 < count.toNat → exec (.scatter r count elems) s = .next (Safety.replied u s r x l 0x23 .range [])) ∧
    (1 ≤ count.toNat → count.toNat ≤ 16 → count.toNat ≠ elems.length →
      exec (.scatter r count elems) s = .next (Safety.replied u s r x l 0x23 .badLength [])) ∧
    (1 ≤ elems.length → elems.length ≤ 16 → count.toNat = elems.length →
      exec (.scatter r count elems) s = .next (Safety.replied
        { u with acts := u.acts ++ (elems.filter (fun e => decide (res e = .ok))).map (fun e => let h := handleOf e.1.toNat
            ⟨actWrite, h.ptype, h.index, h.gen, h.gallery, e.2.toNat, u.dueTick⟩) } s r x l 0x23
        (if elems.all (fun e => decide (res e = .ok)) then .ok else .partial_)
        (beBytes 4 u.dueTick ++ beBytes 1 elems.length ++ beBytes 3 0 ++ estatus (elems.map res))))) ∧
  (∀ (handle : BitVec 32) (value : BitVec 64), Safety.Served s r 0x24 12 x l →
    let h := handleOf handle.toNat
    let j := u.judgeHandle x.gallery h (u.roleNow h.ptype h.index)
    let a := u.forceAccepts h.ptype h.index value.toNat
    (j = .ok → a = .ok → u.forceSet.length < 512 ∨ u.forceSet.contains (h.ptype == 16, h.index) = true → exec (.force r handle value) s = .next (Safety.replied
      { u with acts := u.acts ++ [⟨actForce, h.ptype, h.index, h.gen, h.gallery, value.toNat, u.dueTick⟩] } s r x l 0x24 .ok [])) ∧
    (j = .ok → a = .ok → 512 ≤ u.forceSet.length → u.forceSet.contains (h.ptype == 16, h.index) = false →
      exec (.force r handle value) s = .next (Safety.replied u s r x l 0x24 .busy [])) ∧
    (∀ e, e ≠ .ok → (j = e ∨ j = .ok ∧ a = e) → exec (.force r handle value) s = .next (Safety.replied u s r x l 0x24 e []))) ∧
  (∀ handle : BitVec 32, Safety.Served s r 0x25 4 x l →
    let h := handleOf handle.toNat
    let j := u.judgeHandle x.gallery h (u.roleNow h.ptype h.index)
    (handle ≠ 0xFFFFFFFF → j = .ok → exec (.unforce r handle) s = .next (Safety.replied
      { u with acts := u.acts ++ [⟨actUnforce, h.ptype, h.index, h.gen, h.gallery, 0, u.dueTick⟩] } s r x l 0x25 .ok
      (beBytes 2 (if u.forceSet.contains (h.ptype == 16, h.index) then 1 else 0) ++ beBytes 2 0))) ∧
    (handle ≠ 0xFFFFFFFF → ∀ e, e ≠ .ok → j = e → exec (.unforce r handle) s = .next (Safety.replied u s r x l 0x25 e [])) ∧
    (handle = 0xFFFFFFFF → exec (.unforce r handle) s = .next (Safety.replied
      { u with acts := u.acts ++ [⟨actUnforceAll, 0, 0, 0, 0, 0, u.dueTick⟩] } s r x l 0x25 .ok
      (beBytes 2 u.forceSet.length ++ beBytes 2 0)))) ∧
  (∀ handle : BitVec 32, Safety.Served s r 0x26 4 x l →
    let h := handleOf handle.toNat
    let j := u.judgeHandle x.gallery h (u.roleNow h.ptype h.index)
    (j = .ok → exec (.pointInfo r handle) s = .next (Safety.replied u s r x l 0x26 .ok
      (beBytes 1 h.ptype ++ beBytes 1 (u.infoFlags h.ptype h.index) ++ beBytes 1 (u.infoTask h.ptype h.index) ++ beBytes 1 0))) ∧
    (∀ e, e ≠ .ok → j = e → exec (.pointInfo r handle) s = .next (Safety.replied u s r x l 0x26 e [])))

/-- Transfers, the siphon, and the start of images (R517–R529). -/
def Obligations.Updates : Prop :=
  (∀ (s : State) (r : Req) (kind : BitVec 8) (size : BitVec 32) (x : Session) (l : Lane), Safety.Served s r 0x50 8 x l →
    let u := Safety.took s r x
    let v := u.xferBegin x.id kind.toNat size.toNat
    let ends := fun (w : State) (res : Res) => exec (.imageBegin r kind size) s = .next (Safety.replied w s r x l 0x50 res [])
    let good := 1 ≤ kind.toNat ∧ kind.toNat ≤ 3 ∧ 128 ≤ size.toNat ∧ size.toNat ≤ kindSize kind.toNat
    (u.xferRefused kind.toNat = true → ends u .state) ∧
    (u.xferRefused kind.toNat = false → u.upd.xfer.any (fun t => t.session != x.id) = true → ends u .busy) ∧
    (u.xferRefused kind.toNat = false → u.upd.xfer.any (fun t => t.session != x.id) = false →
      (good → ends v .ok ∧ v.upd.xfer = some ⟨x.id, kind.toNat, size.toNat, [], s.now⟩ ∧ v.regs = s.regs) ∧
      (¬ good → ends u .range))) ∧
  (∀ (s : State) (r : Req) (offset : BitVec 32) (data : List Byte) (x : Session) (l : Lane),
    Safety.Served s r 0x51 (4 + data.length) x l → data.length % 4 = 0 → 4 ≤ data.length → data.length ≤ 1024 →
    let u := Safety.took s r x
    let ends := fun (w : State) (res : Res) => exec (.imageData r offset data) s = .next (Safety.replied w s r x l 0x51 res [])
    (∀ t, u.xferOf x.id = some t → u.xferRefused t.kind = false →
      (offset.toNat % 4 = 0 → offset.toNat + data.length ≤ t.size →
        ends (u.xferWrite t offset.toNat data) .ok ∧ (u.xferWrite t offset.toNat data).regs = s.regs ∧
        ∀ q, s.procRuns q = true → (u.xferWrite t offset.toNat data).mbytes (flashKey q ((u.xferRegion q t.kind).1 + offset.toNat)) data.length = data) ∧
      (offset.toNat % 4 ≠ 0 ∨ t.size < offset.toNat + data.length → ends u .range)) ∧
    (∀ t, u.xferOf x.id = some t → u.xferRefused t.kind = true → ends u .state) ∧
    (u.xferOf x.id = none → ends u .state)) ∧
  (∀ (s : State) (r : Req) (body : Option ImageBody) (x : Session) (l : Lane), Safety.Served s r 0x52 0 x l →
    let u := Safety.took s r x
    let ends := fun (w : State) => exec (.imageCommit r body) s = .next w
    (u.xferOf x.id = none → ends (Safety.replied u s r x l 0x52 .state [])) ∧
    (∀ t, u.xferOf x.id = some t →
      let okOf := fun q : Lane => (u.bodyOk t.kind body && u.headOk q t.kind body && u.imageOk q t.kind) ||
        (decide (s.mode = .safe) && !u.procRuns q)
      (u.xferRefused t.kind = true ∨ 4 * t.words.length < t.size → ends (Safety.replied u s r x l 0x52 .state [])) ∧
      (u.xferRefused t.kind = false → t.size ≤ 4 * t.words.length →
        (okOf .a = true → okOf .b = true → ∃ v, ends v ∧ v = (Safety.replied u s r x l 0x52 .ok []).imageTake body ∧
          (∀ p, body = some (.program p) → v.upd.prog = some (p, s.now) ∧ v.upd.xfer = none) ∧
          (∀ y, body = some (.settings y) → v.upd.sett = some (y, s.now) ∧ v.upd.xfer = none) ∧
          (∀ f, body = some (.firmware f) → v.upd.xfer = none ∧ (s.mode ≠ .safe → v.upd.siphon = sipFirst))) ∧
        ((okOf .a && okOf .b) = false → ends (Safety.replied
          (u.imageReject t.kind (if !okOf .a && !okOf .b then 0xFF else if !okOf .a then 0 else 1)) s r x l 0x52 .verifyFailed []))))) ∧
  (∀ (s : State) (r : Req) (x : Session) (l : Lane), Safety.Served s r 0x53 0 x l →
    (s.updatePending = false → exec (.updateConfirm r) s = .next (Safety.replied (Safety.took s r x) s r x l 0x53 .state [])) ∧
    (s.updatePending = true → s.upd.siphon ≠ sipSecond → ∃ v,
      exec (.updateConfirm r) s = .next ((Safety.replied v s r x l 0x53 .ok []).sipReset s.upd.first.other) ∧
      v.updatePending = false ∧ v.upd.windowEnd = none ∧ v.upd.siphon = sipSecond ∧ v.mode = s.mode ∧ v.mem = s.mem)) ∧
  (∀ (s : State) (l : Lane), s.lstate l ≠ .retired → (s.sipReset l).lstate l = .reset ∧ (s.sipReset l).inReset l.dom.bit = true) ∧
  (∀ s : State, s.pwr.refclkLost = false →
    let l := s.upd.first
    let ends := fun t => exec .siphonHandoverTick s = .next t
    (s.upd.siphon = sipFirst → s.sipReady = true →
      (s.mode = .paired → ∃ t, ends t ∧ t.hg.active = l ∧ t.lstate l = .active ∧ t.upd.siphon = sipPending ∧ t.updatePending = true) ∧
      (s.mode = .wide → ∃ t, ends t ∧ (∀ g, g < 64 → s.galEn g = true → s.wideHome g = l → t.grant g = some l) ∧
        t.upd.siphon = sipPending ∧ t.updatePending = true)) ∧
    (s.upd.siphon = sipFirst → s.sipReady = false → ends s) ∧
    (s.upd.siphon = sipFallback → ∃ t, ends t ∧ t.upd.siphon = sipIdle ∧ t.updatePending = false ∧
      (s.mode = .paired → s.hg.active = l → s.lstate l = .active → s.lstate l.other = .standby →
        t = (s.sipHandover).sipFallback ∧ t.hg.active = l.other)) ∧
    (s.upd.siphon ≠ sipFirst → s.upd.siphon ≠ sipFallback → ends s)) ∧
  (∀ s : State, s.pwr.refclkLost = false →
    (s.upd.siphon = sipFirst → s.sipReady = false → ∃ t, exec .siphonT3Late s = .next t ∧ t = (s.fallbackEvent 3).sipFallback ∧
      t.upd.siphon = sipIdle ∧ t.updatePending = false) ∧
    (s.upd.siphon ≠ sipFirst ∨ s.sipReady = true → exec .siphonT3Late s = .next s)) ∧
  (∀ s : State, s.pwr.refclkLost = false →
    let ready := s.upd.siphon = sipPending ∧ s.updatePending = true ∧ s.upd.windowEnd.getD 0 ≤ s.now
    (ready → ∃ t, exec .updateConfirmWindowExpired s = .next t ∧ t.upd.siphon = sipFallback ∧ t.updatePending = false ∧
      t.upd.windowEnd = none ∧ ∃ e ∈ t.events, e.source = 588 ∧ e.data = 0x1000000 + s.upd.version) ∧
    (¬ ready → exec .updateConfirmWindowExpired s = .next s)) ∧
  (∀ s : State, s.pwr.refclkLost = false →
    (∀ x, s.upd.xfer = some x →
      (x.at_ + 600000000000 ≤ s.now → exec .transferAbandoned s = .next { s with upd := { s.upd with xfer := none } }) ∧
      (s.now < x.at_ + 600000000000 → exec .transferAbandoned s = .next s)) ∧
    (s.upd.xfer = none → exec .transferAbandoned s = .next s)) ∧
  (∀ s : State, s.pwr.refclkLost = false →
    (∀ (p : ProgImage) (t : Nat), s.upd.prog = some (p, t) → s.mode = .paired ∨ s.mode = .wide →
      (s.now < t + 20000 → exec .programImageStart s = .next s) ∧
      (t + 20000 ≤ s.now → ∃ v, exec .programImageStart s = .next v ∧ v = s.imageStart p ∧ v.upd.prog = none ∧ v.image = some p ∧
        v.mode = (if p.wide then .wide else .paired))) ∧
    (s.upd.prog = none ∨ s.mode ≠ .paired ∧ s.mode ≠ .wide → exec .programImageStart s = .next s) ∧
    (∀ (y : SettingsImage) (t : Nat), s.upd.sett = some (y, t) →
      (s.now < t + 20000 → exec .settingsImageStart s = .next s) ∧
      (t + 20000 ≤ s.now → ∃ v, exec .settingsImageStart s = .next v ∧ v.upd.sett = none ∧ v.upd.settings = some y ∧
        v = { s.settingsStart y with upd := v.upd })) ∧
    (s.upd.sett = none → exec .settingsImageStart s = .next s)) ∧
  (∀ s : State, s.pwr.refclkLost = true →
    exec .siphonHandoverTick s = .next s ∧ exec .siphonT3Late s = .next s ∧ exec .updateConfirmWindowExpired s = .next s ∧
    exec .transferAbandoned s = .next s ∧ exec .programImageStart s = .next s ∧ exec .settingsImageStart s = .next s)

/-- Loading, invalidating and describing keys (R498–R507), and the check-value units CKV0–CKV3 (R508–R515). -/
def Obligations.KeyOperations : Prop :=
  (∀ (s : State) (r : Req) (slot parent : BitVec 8) (attr : BitVec 32) (w : List Byte) (x : Session) (l : Lane), Safety.Served s r 0x60 48 x l →
    let u := Safety.took s r x
    let f : Flight := ⟨x.id, r.tag.toNat, 0x60, r.transport, false⟩
    let k : KeyOp := ⟨x.id, r.tag.toNat, true, slot.toNat, parent.toNat, attr.toNat, w⟩
    exec (.keyLoad r slot parent attr w) s = .next (u.keyAccept f k) ∧
    (s.keyQ ≠ [] → (u.keyAccept f k).keyQ = s.keyQ ++ [k] ∧ (u.keyAccept f k).flights = s.flights ++ [f] ∧ (u.keyAccept f k).regs = s.regs) ∧
    (s.keyQ = [] → u.keyRefused k = none →
      (u.keyAccept f k).keyQ = [k] ∧ (u.keyAccept f k).flights = s.flights ++ [{ f with started := true }] ∧
      (u.keyAccept f k).regs = s.regs ∧ (u.keyAccept f k).keys = s.keys) ∧
    (∀ e, s.keyQ = [] → u.keyRefused k = some e → ∃ v, u.keyAccept f k = Safety.replied v s r x l 0x60 e [] ∧
      v.keyQ = [] ∧ v.flights = s.flights ∧ v.keys = s.keys ∧ v.mem = s.mem ∧
      (∀ n, n < 128 → v.keyGen n = s.keyGen n ∧ v.keyAttr n = s.keyAttr n ∧ v.keyParent n = s.keyParent n) ∧
      v.fget 0 KEY_REFUSE_CNT = (if e = .keyEmpty ∨ e = .keyOrphaned ∨ e = .keyAttr then satAdd 32 (s.fget 0 KEY_REFUSE_CNT) 1
        else s.fget 0 KEY_REFUSE_CNT) ∧
      (e = .verifyFailed → v.fget 0 KEY_UNWRAP_FAIL = satAdd 32 (s.fget 0 KEY_UNWRAP_FAIL) 1 ∧
        Safety.Raised 627 0 true (slot.toNat * 0x1000000 + parent.toNat * 0x10000) v))) ∧
  (∀ (s : State) (r : Req) (slot : BitVec 8) (x : Session) (l : Lane), Safety.Served s r 0x61 4 x l →
    let u := Safety.took s r x
    let f : Flight := ⟨x.id, r.tag.toNat, 0x61, r.transport, false⟩
    let k : KeyOp := ⟨x.id, r.tag.toNat, false, slot.toNat, 0, 0, []⟩
    exec (.keyInvalidate r slot) s = .next (u.keyAccept f k) ∧
    (s.keyQ ≠ [] → (u.keyAccept f k).keyQ = s.keyQ ++ [k] ∧ (u.keyAccept f k).flights = s.flights ++ [f] ∧ (u.keyAccept f k).regs = s.regs) ∧
    (s.keyQ = [] → ((s.mode ≠ .paired ∧ s.mode ≠ .wide ∧ s.mode ≠ .service) →
      u.keyAccept f k = Safety.replied u s r x l 0x61 .state []) ∧
    ((s.mode = .paired ∨ s.mode = .wide ∨ s.mode = .service) →
      (slot.toNat < 4 ∨ 127 < slot.toNat → u.keyAccept f k = Safety.replied u s r x l 0x61 .range []) ∧
      (4 ≤ slot.toNat → slot.toNat ≤ 127 → s.keyState slot.toNat = 0 →
        u.keyAccept f k = Safety.replied u s r x l 0x61 .ok (beBytes 4 (s.keyGen slot.toNat))) ∧
      (4 ≤ slot.toNat → slot.toNat ≤ 127 → s.keyState slot.toNat ≠ 0 → s.fbit 0 ALLOC_ENTRY_STATUS_PFW = true →
        u.keyAccept f k = Safety.replied u s r x l 0x61 .hwFault []) ∧
      (4 ≤ slot.toNat → slot.toNat ≤ 127 → s.keyState slot.toNat ≠ 0 → s.fbit 0 ALLOC_ENTRY_STATUS_PFW = false →
        (u.keyAccept f k).keyQ = [k] ∧ (u.keyAccept f k).flights = s.flights ++ [{ f with started := true }] ∧
        (u.keyAccept f k).regs = s.regs ∧ (u.keyAccept f k).keys = s.keys)))) ∧
  (∀ (s : State) (r : Req) (slot : BitVec 8) (x : Session) (l : Lane), Safety.Served s r 0x62 4 x l →
    let u := Safety.took s r x
    let sees := x.gallery = 0 ∨ s.keyState slot.toNat ≠ 0 ∧ attrOwner (s.keyAttr slot.toNat) = x.gallery
    (127 < slot.toNat ∨ ¬sees → exec (.keyInfo r slot) s = .next (Safety.replied u s r x l 0x62 .noSuchObject [])) ∧
    (slot.toNat ≤ 127 → sees →
      exec (.keyInfo r slot) s = .next (Safety.replied u s r x l 0x62 .ok
        (beBytes 4 (s.keyAttr slot.toNat) ++ beBytes 4 (s.keyGen slot.toNat) ++ beBytes 1 (s.keyParent slot.toNat) ++ beBytes 3 0)))) ∧
  (∀ (s : State) (ok : Bool), s.pwr.refclkLost = true ∨ s.keyQ = [] → exec (.keyAreaWriteDone ok) s = .next s) ∧
  (∀ (s : State) (k : KeyOp), s.pwr.refclkLost = false → s.keyQ = [k] → k.slot < 128 →
    (∃ t, exec (.keyAreaWriteDone true) s = .next t ∧ t.keyQ = [] ∧
      t.keyGen k.slot = (if s.keyGen k.slot = 0xFFFFFFFF then 1 else s.keyGen k.slot + 1) ∧
      (∀ n, n < 128 → n ≠ k.slot → t.keyGen n = s.keyGen n ∧ t.keyParent n = s.keyParent n) ∧
      t.fget 0 KEY_OP_CNT = satAdd 32 (s.fget 0 KEY_OP_CNT) 1 ∧
      (k.load = true → t.keyParent k.slot = k.parent % 256 ∧ t.fget (keySlotB k.slot) KEY_SLOT_PGEN = s.keyGen k.parent ∧
        tabGet (fun _ => []) t.keys k.slot = s.keyLoaded k) ∧
      (k.load = false → t.keyState k.slot = 0 ∧ t.keyParent k.slot = 0xFF ∧ tabGet (fun _ => []) t.keys k.slot = []) ∧
      t.mem = s.mem ∧ t.mode = s.mode) ∧
    (∃ t, exec (.keyAreaWriteDone false) s = .next t ∧ t.keyQ = [] ∧ t.regs = s.regs ∧ t.keys = s.keys ∧ t.mem = s.mem)) ∧
  (∀ (s : State) (r : Req) (i : Fin 4) (value : BitVec 32) (high : Bool) (x : Session) (l : Lane),
    let u := Safety.took s r x
    let b := ckvB l i.val
    let ok := fun o v => Safety.Writes s r x l (ckvAt i.val o) v
    let cmd := fun v => Safety.Sets s r x l (ckvAt i.val 4) v
    (s.fbit b CKV_STATUS_BUSY = false →
      (ok 0x1C value.toNat →
        exec (.ckvDataWrite r i value) s = .next (Safety.replied (u.ckvFeed b (leBytes 4 value.toNat)) s r x l 0x12 .ok [])) ∧
      (cmd 8 → exec (.ckvFold r i) s = .next (Safety.replied (u.ckvFold b) s r x l 0x12 .ok [])) ∧
      (cmd 1 → exec (.ckvInit r i) s = .next (Safety.replied (u.ckvInit b) s r x l 0x12 .ok [])) ∧
      (cmd 4 → exec (.ckvAbort r i) s = .next (Safety.replied u s r x l 0x12 .ok [])) ∧
      (cmd 2 → s.ckvRefused b = false →
        exec (.ckvStart r i) s = .next (Safety.replied ((u.fset b CKV_STATUS_BUSY 1).fset b CKV_POS 0) s r x l 0x12 .ok [])) ∧
      (cmd 2 → s.ckvRefused b = true → exec (.ckvStart r i) s =
        .next (Safety.replied ((u.fset b CKV_STATUS_ERR 1).fset b CKV_STATUS_ERR_CODE 1) s r x l 0x12 .range [])) ∧
      (ok (if high then 0x24 else 0x20) value.toNat →
        ∃ v, exec (.ckvValueWrite r i high value) s = .next (Safety.replied v s r x l 0x12 .ok []) ∧
        v.fget b (if high then CKV_VALUE_HI else CKV_VALUE_LO) = value.toNat ∧
        v.fget b (if high then CKV_VALUE_LO else CKV_VALUE_HI) = s.fget b (if high then CKV_VALUE_LO else CKV_VALUE_HI) ∧ v.mem = s.mem)) ∧
    (s.fbit b CKV_STATUS_BUSY = true →
      (cmd 8 → exec (.ckvFold r i) s = .next (Safety.replied u s r x l 0x12 .busy [])) ∧
      (cmd 1 → exec (.ckvInit r i) s = .next (Safety.replied u s r x l 0x12 .busy [])) ∧
      (cmd 2 → exec (.ckvStart r i) s = .next (Safety.replied u s r x l 0x12 .busy [])) ∧
      (cmd 4 → exec (.ckvAbort r i) s = .next (Safety.replied (u.ckvAbort b) s r x l 0x12 .ok []) ∧
        (u.ckvAbort b).fbit b CKV_STATUS_BUSY = false ∧ (u.ckvAbort b).fbit b CKV_STATUS_ERR = true ∧
        (u.ckvAbort b).fget b CKV_STATUS_ERR_CODE = 5 ∧ (u.ckvAbort b).events = s.events) ∧
      (∀ o, Safety.Served s r 0x12 12 x l → s.rd 0x11000 = 0 → s.applyAt = none → u.regJudge l (ckvAt i.val o) = .ok →
        (o = 0x1C → exec (.ckvDataWrite r i value) s = .next (Safety.replied u s r x l 0x12 .busy [])) ∧
        (o = (if high then 0x24 else 0x20) →
          exec (.ckvValueWrite r i high value) s = .next (Safety.replied u s r x l 0x12 .busy []))))) ∧
  (∀ (s : State) (l : Lane) (i : Fin 4) (code : Fin 16) (fed : List Byte) (addr : BitVec 32),
    let b := ckvB l i.val
    let auto := s.fget b CKV_CFG_FOLD_AUTO
    let pre := if auto % 2 = 1 then s.ckvFoldBytes b else []
    (s.fbit b CKV_STATUS_BUSY = false →
      exec (.ckvScanComplete l i fed) s = .next s ∧ exec (.ckvScanFault l i code fed addr) s = .next s) ∧
    (fed.length ≠ s.fget b CKV_LENGTH → exec (.ckvScanComplete l i fed) s = .next s) ∧
    (s.fbit b CKV_STATUS_BUSY = true → fed.length = s.fget b CKV_LENGTH →
      ∃ t, exec (.ckvScanComplete l i fed) s = .next t ∧ t.fbit b CKV_STATUS_BUSY = false ∧ t.fbit b CKV_STATUS_DONE = true ∧
        t.fget b CKV_POS = fed.length ∧ t.events = s.events ∧ t.mem = s.mem ∧
        t.ckvValue b = crcFeed (s.ckvAlgo b) (s.ckvValue b) (pre ++ fed ++ (if 2 ≤ auto then s.ckvFoldBytes b else [])) % 2 ^ 64) ∧
    (s.fbit b CKV_STATUS_BUSY = true →
      ∃ t, exec (.ckvScanFault l i code fed addr) s = .next t ∧ t.fbit b CKV_STATUS_BUSY = false ∧ t.fbit b CKV_STATUS_ERR = true ∧
        t.fbit b CKV_STATUS_DONE = s.fbit b CKV_STATUS_DONE ∧
        t.fget b CKV_STATUS_ERR_CODE = code.val ∧ t.fget b CKV_FAULT_ADDR = addr.toNat ∧ t.mem = s.mem ∧
        t.ckvValue b = crcFeed (s.ckvAlgo b) (s.ckvValue b) (pre ++ fed) % 2 ^ 64))

/-- The cabinet bus (R56–R58, R113–R118), the lamps (R64) and the heartbeat outputs (R59). -/
def Obligations.CabinetBus : Prop :=
  (∀ (s : State) (w : BitVec 12) (v : BitVec 16), s.cabUp = false →
    exec (.cabinetBusRead w) s = .next (s.send (.cabWord 0xFFFF)) ∧ exec (.cabinetBusWrite w v) s = .next s ∧
    exec (.doorbellRing v) s = .next s ∧ exec .doorbellRelease s = .next s ∧ exec .doorbellWriteWhileBusy s = .next s) ∧
  (∀ (s : State) (w : BitVec 12), s.cabUp = true → ∃ t y, exec (.cabinetBusRead w) s = .next t ∧ t.sent = .cabWord (BitVec.ofNat 16 y) :: s.sent ∧
    (w.toNat < 0x800 → w.toNat ≠ 2 → w.toNat ≠ 3 → y = s.mnat (mirrorFront + 2 * w.toNat) 2) ∧
    (∀ l, s.answering 0 = some l → (w.toNat = 2 → y = s.status l 0 .ok % 0x10000) ∧ (w.toNat = 3 → y = s.status l 0 .ok / 0x10000)) ∧
    (0x800 ≤ w.toNat → w.toNat < 0xC00 → y = 0) ∧
    (0xC00 ≤ w.toNat → w.toNat ≤ 0xFFD → y = s.mnat (doorbellRep + 2 * (w.toNat - 0xC00)) 2) ∧
    (w.toNat = 0xFFE → y = s.fget 0 CAB_STATUS_DB_STATE * 0x4000 + s.dbLen) ∧
    (w.toNat = 0xFFF → y = 0) ∧
    t.fbit 0 CAB_STATUS_PINNED = (if w.toNat = 0 then true else if w.toNat = 0x7FF then false else s.fbit 0 CAB_STATUS_PINNED) ∧
    (∀ k, k ≠ 0x1004 → t.rd k = s.rd k) ∧ t.mem = s.mem ∧ t.events = s.events) ∧
  (∀ (s : State) (w : BitVec 12) (v : BitVec 16), s.cabUp = true →
    (0x800 ≤ w.toNat → w.toNat ≤ 0xBFF → s.fget 0 CAB_STATUS_DB_STATE ≠ dbBusy →
      ∃ t, exec (.cabinetBusWrite w v) s = .next t ∧ t.mnat (doorbellReq + 2 * (w.toNat - 0x800)) 2 = v.toNat ∧ t.regs = s.regs ∧
        (∀ a, a ≠ doorbellReq + 2 * (w.toNat - 0x800) → a ≠ doorbellReq + 2 * (w.toNat - 0x800) + 1 → t.mget a = s.mget a)) ∧
    (0x800 ≤ w.toNat → w.toNat ≤ 0xBFF → s.fget 0 CAB_STATUS_DB_STATE = dbBusy →
      exec (.cabinetBusWrite w v) s = .next (s.finc 0 CAB_DB_ERR)) ∧
    (w.toNat < 0x800 ∨ 0xBFF < w.toNat ∧ w.toNat ≠ 0xFFE → exec (.cabinetBusWrite w v) s = .next s) ∧
    (w.toNat = 0xFFE → v ≠ 0 → exec (.cabinetBusWrite w v) s = exec (.doorbellRing v) s) ∧
    (w.toNat = 0xFFE → v = 0 → exec (.cabinetBusWrite w v) s = exec .doorbellRelease s)) ∧
  (∀ s : State, ∃ t, exec .mirrorPinTimeout s = .next t ∧ t.fbit 0 CAB_STATUS_PINNED = false ∧ (∀ k, k ≠ 0x1004 → t.rd k = s.rd k) ∧
    t.mem = s.mem ∧ t.events = s.events) ∧
  (∀ (s : State) (len : BitVec 16), s.cabUp = true →
    (s.fget 0 CAB_STATUS_DB_STATE ≠ dbBusy → 24 ≤ len.toNat → len.toNat ≤ 1448 → s.fbit 0 CAB_CTRL_DOORBELL_EN = true →
      let d := s.mbytes doorbellReq len.toNat
      let lost := packetSecure d && !s.authentic d
      ∃ t, exec (.doorbellRing len) s = .next t ∧ t.dbLen = 0 ∧ t.mem = s.mem ∧
        (packetMalformed d = true → t.fget 0 CAB_STATUS_DB_STATE = dbIdle ∧ t.events = s.events ∧
          t.fget 0 EVT_PLIAK_DROP = satAdd 32 (s.fget 0 EVT_PLIAK_DROP) 1 ∧ (∀ k, k ≠ 0x1004 → k ≠ 0x40010 → t.rd k = s.rd k)) ∧
        (packetMalformed d = false → lost = true → t.fget 0 CAB_STATUS_DB_STATE = dbIdle ∧ t.events = s.events ∧
          t.fget 0 EVT_PLIAK_AUTHFAIL = satAdd 32 (s.fget 0 EVT_PLIAK_AUTHFAIL) 1 ∧ (∀ k, k ≠ 0x1004 → k ≠ 0x4000C → t.rd k = s.rd k)) ∧
        (packetMalformed d = false → lost = false → t.fget 0 CAB_STATUS_DB_STATE = dbBusy ∧ t.dbReqLen = len.toNat ∧ t.dbReply = none ∧
          (∀ k, k ≠ 0x1004 → t.rd k = s.rd k) ∧ t.events = s.events)) ∧
    (s.fget 0 CAB_STATUS_DB_STATE = dbBusy ∨ len.toNat < 24 ∨ 1448 < len.toNat ∨ s.fbit 0 CAB_CTRL_DOORBELL_EN = false →
      exec (.doorbellRing len) s = .next (s.finc 0 CAB_DB_ERR))) ∧
  (∀ (s : State) (d : List Byte),
    (s.fget 0 CAB_STATUS_DB_STATE = dbBusy → s.dbReply = some d →
      ∃ t, exec .doorbellReplyReady s = .next t ∧ t.fget 0 CAB_STATUS_DB_STATE = dbDone ∧ t.dbLen = d.length ∧
        t.mbytes doorbellRep d.length = d ∧ t.dbReply = none ∧
        (∀ k, k ≠ 0x1004 → t.rd k = s.rd k) ∧ t.events = s.events) ∧
    (s.fget 0 CAB_STATUS_DB_STATE ≠ dbBusy ∨ s.dbReply = none → exec .doorbellReplyReady s = .next s)) ∧
  (∀ s : State, s.cabUp = true →
    (s.fget 0 CAB_STATUS_DB_STATE = dbDone → ∃ t, exec .doorbellRelease s = .next t ∧ t.fget 0 CAB_STATUS_DB_STATE = dbIdle ∧ t.dbLen = 0 ∧
      (∀ k, k ≠ 0x1004 → t.rd k = s.rd k) ∧ t.mem = s.mem) ∧
    (s.fget 0 CAB_STATUS_DB_STATE = dbIdle → exec .doorbellRelease s = .next s) ∧
    (s.fget 0 CAB_STATUS_DB_STATE ≠ dbBusy → exec .doorbellWriteWhileBusy s = .next s) ∧
    (s.fget 0 CAB_STATUS_DB_STATE = dbBusy → exec .doorbellRelease s = .next (s.finc 0 CAB_DB_ERR) ∧
      exec .doorbellWriteWhileBusy s = .next (s.finc 0 CAB_DB_ERR))) ∧
  (∀ s : State, let p := s.lamps
    (p.pwr = .steady ↔ s.pwr.mainPower = true) ∧
    (s.pwr.aonOut = true →
      (p.run = .steady ↔ s.mode = .paired ∨ s.mode = .wide) ∧ (p.run = .flashing ↔ s.mode = .boot ∨ s.mode = .service) ∧
      (p.hold = .steady ↔ s.mode = .hold ∨ s.mode = .safe) ∧ (p.deg = .steady ↔ s.degraded = true) ∧ (p.force = .steady ↔ s.forces ≠ []) ∧
      (p.laneA = .steady ↔ s.runsCycles .a = true) ∧ (p.laneB = .steady ↔ s.runsCycles .b = true) ∧
      (∀ j, j < 64 → (p.jackGreen[j]? = some .steady ↔ s.linkUp j = true) ∧ (p.jackAmber[j]? = some .steady ↔ s.powered j = true))) ∧
    (s.pwr.aonOut = false → p = { p with run := .off, hold := .off, deg := .off, force := .off, laneA := .off, laneB := .off, jackGreen := List.replicate 64 .off, jackAmber := List.replicate 64 .off })) ∧
  (∀ (s : State) (l : Lane),
    (s.pwr.aonOut = false ∨ s.inReset l.dom.bit = true → s.heartbeatOut l = false) ∧
    (s.pwr.aonOut = true → s.inReset l.dom.bit = false → ∀ n k, k < 250000 → s.now = (s.laneHg l).hbFrom + 250000 * n + k →
      (s.heartbeatOut l = true ↔ k < 1000)))

/-- Snapshots (R540–R543), and applying pending ownership (R129–R132). -/
def Obligations.SnapshotsAndOwnership : Prop :=
  (∀ (s : State) (r : Req) (instant : BitVec 64) (id : BitVec 32) (x : Session) (l : Lane), Safety.Served s r 0x42 12 x l →
    (s.mode = .boot ∨ s.mode = .safe ∨ s.ptpOk = false →
      exec (.snapshotArm r instant id) s = .next (Safety.replied (Safety.took s r x) s r x l 0x42 .state [])) ∧
    (s.mode ≠ .boot → s.mode ≠ .safe → s.ptpOk = true →
      ((instant.toNat < s.ptpTime + 200000 ∨ s.ptpTime + 3600000000000 < instant.toNat) →
        exec (.snapshotArm r instant id) s = .next (Safety.replied (Safety.took s r x) s r x l 0x42 .range [])) ∧
      (s.ptpTime + 200000 ≤ instant.toNat → instant.toNat ≤ s.ptpTime + 3600000000000 →
        ∃ u : State, exec (.snapshotArm r instant id) s = .next (Safety.replied u s r x l 0x42 .ok []) ∧
          u.snap = { s.snap with armed := some (instant.toNat, id.toNat) } ∧ u.fbit 0 SYS_SNAP_STATUS_ARMED = true ∧
          u.fget 0 SYS_SNAP_ID = id.toNat ∧ u.fget 0 SYS_SNAP_INSTANT_LO + 2 ^ 32 * u.fget 0 SYS_SNAP_INSTANT_HI = instant.toNat ∧
          u.fget 0 SYS_SNAP_REPLACED = (if s.snap.armed.isSome then satAdd SYS_SNAP_REPLACED.width (s.fget 0 SYS_SNAP_REPLACED) 1
            else s.fget 0 SYS_SNAP_REPLACED) ∧ u.mem = s.mem ∧ u.events = s.events))) ∧
  (∀ (s : State) (late : Bool),
    (∀ t id, s.pwr.refclkLost = false → s.snap.armed = some (t, id) →
      exec (.snapshotStrobe late) s = .next { s with snap := ⟨none, some (s.snapRecord t id late)⟩ }) ∧
    (s.pwr.refclkLost = true ∨ s.snap.armed = none → exec (.snapshotStrobe late) s = .next s) ∧
    (s.pwr.refclkLost = true ∨ s.snap.building = none → exec .snapshotRecordComplete s = .next s)) ∧
  (∀ (s : State) (ws : List Nat), s.pwr.refclkLost = false → s.snap.building = some ws → ws.length = 256 →
    ∃ t, exec .snapshotRecordComplete s = .next t ∧ t.snap = { s.snap with building := none } ∧ t.fbit 0 SYS_SNAP_STATUS_READY = true ∧
      t.fbit 0 SYS_SNAP_STATUS_ARMED = s.snap.armed.isSome ∧ t.fget 0 SYS_SNAP_STATUS_LATE = ws.getD 5 0 / 4 % 2 ∧
      t.fget 0 SYS_SNAP_STATUS_TIME_NOT_LOCKED = ws.getD 5 0 / 2 % 2 ∧
      (∀ w, w < 256 → w ≠ 7 → t.rd (0x800 + 4 * w) = BitVec.ofNat 32 (ws.getD w 0)) ∧ t.rd 0x81C = BitVec.ofNat 32 (wordsCrc ws) ∧
      t.fget 0 SYS_SNAP_CNT = satAdd 32 (s.fget 0 SYS_SNAP_CNT) 1 ∧ t.mem = s.mem ∧ t.events = s.events) ∧
  (∀ (s : State) (r : Req) (x : Session) (l : Lane), Safety.Sets s r x l 0x13000 1 →
    let u := Safety.took s r x
    (s.applyAt ≠ none → exec (.hgOwnApply r) s = .next (Safety.replied u s r x l 0x12 .ok [])) ∧
    (s.applyAt = none → s.ownCheck = (0, 0) →
      exec (.hgOwnApply r) s = .next (Safety.replied { u with applyAt := some (s.now + 20000) } s r x l 0x12 .ok [])) ∧
    (∀ c o, s.applyAt = none → s.ownCheck = (c, o) → 1 ≤ c →
      ∃ v, exec (.hgOwnApply r) s = .next (Safety.replied v s r x l 0x12 (if c = 1 then .state else .ok) []) ∧
        v.rd 0x13004 = BitVec.ofNat 32 (o * 0x10000 + c) ∧ v.applyAt = none ∧
        Safety.Raised 5 0 false (o * 0x10000 + c) v ∧ Safety.OnlyRegs [0x13004] u v)) ∧
  (∀ s : State, s.pwr.refclkLost = true ∨ s.applyAt = none → exec .ownershipApplyTick s = .next s) ∧
  (∀ (s : State) (t : Nat), s.pwr.refclkLost = false → s.applyAt = some t →
    (s.now < t ∨ (s.mode ≠ .paired ∧ s.mode ≠ .wide ∧ s.mode ≠ .service) → exec .ownershipApplyTick s = .next s) ∧
    (t ≤ s.now → (s.mode = .paired ∨ s.mode = .wide ∨ s.mode = .service) →
      ∃ v n, exec .ownershipApplyTick s = .next v ∧ v.applyAt = none ∧ (∀ a ∈ ownRegs, v.ownLive a = s.ownPending a) ∧ v.rd 0x13004 = 0 ∧
        Safety.Raised 4 0 false ((ownRegs.filter (fun a => s.ownPending a != s.ownLive a)).length * 0x10000 + n) v))

/-- The commands that are a write or a read of one register (R98). -/
def Obligations.RegisterCommands : Prop :=
  ∀ (s : State) (r : Req) (x : Session) (l : Lane),
  let u := Safety.took s r x
  let ok : Nat → Nat → Prop := fun a v => Safety.Writes s r x l a v
  let done : Nat → Nat → Host.Outcome State Fault Refusal := fun a v =>
    .next (Safety.replied (u.regDo l a v).1 s r x l 0x12 .ok []).rstAfter
  let bit : Nat → Nat → Nat := fun a v => u.cmdWord l a v
  (∀ p : PortNo, let a := portB p.val + 0x34
    (ok a (bit a 1) → exec (.portRestart r p) s = done a (bit a 1)) ∧
    (ok a (bit a 2) → exec (.portRemeasure r p) s = done a (bit a 2))) ∧
  (∀ (p : PortNo) (vset : Bool) (w : BitVec 32), let a := portB p.val + (if vset then 4 else 0)
    ok a w.toNat → exec (.portCtrlWrite r p vset w) s = done a w.toNat) ∧
  (ok 0x90130 (bit 0x90130 1) → exec (.allocRestore r) s = done 0x90130 (bit 0x90130 1)) ∧
  (∀ (n : BitVec 8) (t : BitVec 16), let v := t.toNat * 0x10000 + n.toNat
    ok 0x1B003C v → exec (.lumIdentify r n t) s = done 0x1B003C v) ∧
  (∀ k : EthPort, let a := ethB (k.val + 1)
    (ok (a + 4) (bit (a + 4) 2) → exec (.ethPortRaise r k) s = done (a + 4) (bit (a + 4) 2)) ∧
    (ok (a + 4) (bit (a + 4) 1) → exec (.ethPortRelink r k) s = done (a + 4) (bit (a + 4) 1)) ∧
    (ok (a + 0x30) (bit (a + 0x30) 1) → exec (.ethPortSnap r k) s = done (a + 0x30) (bit (a + 0x30) 1))) ∧
  (∀ w : BitVec 32,
    (ok 0x100010 w.toNat → exec (.mgmtVidWrite r w) s = done 0x100010 w.toNat) ∧
    (ok 0x100040 w.toNat → exec (.ptpEnableChange r w) s = done 0x100040 w.toNat)) ∧
  (∀ on : Bool, let v := if on then 2 else 0
    ok 0x1A0030 v → exec (.coldNextWrite r on) s = done 0x1A0030 v) ∧
  (ok 0x1A0030 (bit 0x1A0030 1) → exec (.cycClrStats r) s = done 0x1A0030 (bit 0x1A0030 1)) ∧
  (∀ b : Fin 4, let a := 0x18010C + 0x10 * b.val
    ok a (bit a 1) → exec (.loopCaptureClear r b) s = done a (bit a 1)) ∧
  (ok 0x180000 (bit 0x180000 2) → exec (.loopClrStats r) s = done 0x180000 (bit 0x180000 2)) ∧
  (ok 0xA0020 (bit 0xA0020 1) → exec (.mtrSeal r) s = done 0xA0020 (bit 0xA0020 1)) ∧
  (ok 0xA0020 (bit 0xA0020 2) → exec (.mtrUnseal r) s = done 0xA0020 (bit 0xA0020 2)) ∧
  (∀ (o : BitVec 16) (w : BitVec 32), o.toNat % 4 = 0 →
    ok (0xA0000 + o.toNat) w.toNat → exec (.revenueParamWrite r o w) s = done (0xA0000 + o.toNat) w.toNat) ∧
  (∀ (c : Fin 4) (w : BitVec 32), let a := canB c.val
    (ok a (fieldPut w.toNat 31 1 0) → exec (.canLeaveInit r c w) s = done a (fieldPut w.toNat 31 1 0)) ∧
    (ok a (fieldPut w.toNat 31 1 1) → exec (.canEnterInit r c w) s = done a (fieldPut w.toNat 31 1 1)) ∧
    (ok (a + 0x18) (bit (a + 0x18) 2) → exec (.canRecover r c) s = done (a + 0x18) (bit (a + 0x18) 2)) ∧
    (ok (a + 0x18) (bit (a + 0x18) 1) → exec (.canClrStats r c) s = done (a + 0x18) (bit (a + 0x18) 1)) ∧
    (∀ i : Fin 4, ok (a + 0x20 + 4 * i.val) w.toNat → exec (.canTxreq r c i w) s = done (a + 0x20 + 4 * i.val) w.toNat)) ∧
  (∀ (c : Fin 4) (descr : Bool) (n : Fin 512) (i : Fin 3) (w : BitVec 32),
    let a := (if descr then canSigB c.val n.val else canObjB c.val n.val) + 4 * i.val
    ok a w.toNat → exec (.canHeaderWrite r c descr n i w) s = done a w.toNat) ∧
  (ok 0x10018 (bit 0x10018 2) → exec (.hgRebalance r) s = done 0x10018 (bit 0x10018 2)) ∧
  (ok 0x10018 (bit 0x10018 1) → exec (.hgRejoin r) s = done 0x10018 (bit 0x10018 1)) ∧
  (∀ w : BitVec 32, let v := fieldPut w.toNat 30 1 1
    ok 0x20020 v → exec (.rtcLoad r w) s = done 0x20020 v) ∧
  (ok 0x20024 (bit 0x20024 0x80000000) → exec (.rtcOsfClear r) s = done 0x20024 (bit 0x20024 0x80000000)) ∧
  (ok 0x24010 (bit 0x24010 1) → exec (.recorderClear r) s = done 0x24010 (bit 0x24010 1)) ∧
  (∀ (ext : Bool) (d : Fin 64) (i : Fin 4) (w : BitVec 32), (ext = true → i.val < 2) → let a := flowB ext d.val + 4 * i.val
    ok a w.toNat → exec (.flowDescriptorChange r ext d i w) s = done a w.toNat) ∧
  (Safety.Served s r 0x11 8 x l →
    exec (.rtcSnapSecRead r) s = .next (Safety.replied (u.regRead l 0x20000) s r x l 0x11 .ok (leBytes 4 (u.regShow l 0x20000))) ∧
    exec (.rtcSnapYearRead r) s = .next (Safety.replied (u.regRead l 0x20014) s r x l 0x11 .ok (leBytes 4 (u.regShow l 0x20014))))

/-- Effects of command registers (R309, R356, R412, R427, R448, R463, R472, R473, R476, R480). -/
def Obligations.RegisterEffects : Prop :=
  (∀ (s : State) (on : Bool),
    (s.fbit 0 MTR_SEAL = on → s.sealTo on = s) ∧
    (s.fbit 0 MTR_SEAL ≠ on → (s.sealTo on).fbit 0 MTR_SEAL = on ∧ (s.sealTo on).fbit 0 MTR_STATUS_SEAL = on ∧
      Safety.Raised 379 0 true (if on then 1 else 0) (s.sealTo on) ∧ (s.sealTo on).mem = s.mem)) ∧
  (∀ (s : State) (l : Lane) (o v : Nat), o < 0x10000 → o ≠ 0x20 → o ≠ 0x24 → s.revenueMoves (0xA0000 + o) v = true →
    let t := (s.regDo l (0xA0000 + o) v).1
    t.rd (0xA0000 + o) = BitVec.ofNat 32 (regNext (0xA0000 + o) (s.rd (0xA0000 + o)).toNat v) ∧
    t.fget 0 MTR_CAL_CNT = (s.fget 0 MTR_CAL_CNT + 1) % 2 ^ 32 ∧
    Safety.Raised 378 0 true (o * 0x10000 + t.fget 0 MTR_CAL_CNT % 0x10000) t) ∧
  (∀ (s : State) (l : Lane) (on : Bool), let t := (s.regDo l 0x1A0030 (if on then 2 else 0)).1
    t.fbit (cycB .a) CYC_CMD_COLD_NEXT = on ∧ t.fbit (cycB .b) CYC_CMD_COLD_NEXT = on ∧ t.events = s.events ∧ t.mem = s.mem) ∧
  (∀ (s : State) (l : Lane), s.mode = .wide → (s.regDo l 0x10018 2).1 = { s with hg := { s.hg with rebalance := true } }) ∧
  (∀ (s : State) (l q : Lane), (s.lstate q = .retired → (s.regDo l 0x10018 1).1.lstate q = .reset ∧ ((s.regDo l 0x10018 1).1.laneHg q).rejoin = true) ∧
    (s.lstate q ≠ .retired → (s.regDo l 0x10018 1).1.laneHg q = s.laneHg q) ∧ (s.regDo l 0x10018 1).1.regs = s.regs) ∧
  (∀ (s : State) (l : Lane) (w : Nat), let v := fieldPut w 30 1 1
    let t := (s.regDo l 0x20020 v).1
    (∀ secs, s.calSet = some secs → t.rtc.secs = secs ∧ t.rtc.sub = 0 ∧ Safety.Raised 609 0 false (changeData 2 secs s.rtc.secs) t) ∧
    (s.calSet = none → t.rtc = s.rtc ∧ t.fbit 0 RTC_STATUS_SET_ERR = true ∧ t.events = s.events)) ∧
  (∀ (s : State) (l : Lane), let t := (s.regDo l 0x20024 0x80000000).1
    t.fbit 0 RTC_STATUS_OSF = false ∧ t.fget 0 RTC_FIRST_BKP = 0 ∧ t.rtc = s.rtc ∧ t.events = s.events) ∧
  (∀ (s : State) (l : Lane), (s.regRead l 0x20000).rtc.frozen = true ∧ (s.regRead l 0x20000).rtc.fsecs = s.rtc.secs ∧
    (s.regRead l 0x20014).rtc.frozen = false ∧ (s.regRead l 0x20014).rtc.secs = s.rtc.secs) ∧
  (∀ (s : State) (r : Req) (value : BitVec 32) (x : Session) (l : Lane), Safety.Served s r 0x12 12 x l → s.rd 0x11000 = 0 →
    value.getLsbD 31 = false → value.toNat / 64 % 4 = 0 → value.toNat / 4 % 16 ≠ 0 →
    ((s.mode = .paired ∨ s.mode = .wide ∨ s.mode = .service ∨ s.mode = .hold) →
      ∃ v : State, exec (.hgRstCmdDomain r value) s = .next (Safety.replied v s r x l 0x12 .ok []) ∧
        (∀ d : Dom, d = .switch ∨ d = .meter ∨ d = .aio ∨ d = .can →
          (v.dom d).due = ((s.dom d).due || value.getLsbD d.bit)) ∧ v.events = s.events ∧ v.mem = s.mem ∧ v.mode = s.mode) ∧
    ((s.mode = .boot ∨ s.mode = .safe) →
      exec (.hgRstCmdDomain r value) s = .next (Safety.replied (Safety.took s r x) s r x l 0x12 .state []))) ∧
  (∀ (s : State) (r : Req) (x : Session) (l : Lane), Safety.Served s r 0x12 12 x l → s.rd 0x11000 = 0 →
    (s.mode = .service → ∃ v : State, exec (.enterSafeCommand r) s = .next (v.enterSafe 7) ∧ (v.enterSafe 7).mode = .safe ∧
      v = (Safety.replied ((Safety.took s r x).wr 0x11000 0x80000000) s r x l 0x12 .ok []).wr 0x11000 0) ∧
    (s.mode ≠ .service →
      exec (.enterSafeCommand r) s = .next (Safety.replied (Safety.took s r x) s r x l 0x12 .state []))) ∧
  (∀ (s : State) (r : Req) (word : Fin 126) (words : List (BitVec 32)) (x : Session) (l : Lane), 1 ≤ words.length →
    word.val + words.length ≤ 126 → Safety.Served s r 0x12 (8 + 4 * words.length) x l → s.rd 0x11000 = 0 →
    ∃ v, exec (.cisternUpdate r word words) s = .next (Safety.replied v s r x l 0x12 .ok []) ∧
      (∀ i, i < words.length → v.rd (0x20800 + 4 * (word.val + i)) = words.getD i 0) ∧
      v.fget 0 CISTERN_CHECK = crc32c v.cisBytes % 2 ^ 32 ∧ v.events = s.events ∧ v.mem = s.mem ∧
      (∀ k, k ≠ 0x20024 → (k < 0x20800 ∨ 0x20A00 ≤ k) → v.rd k = s.rd k))
end

