-- ==== Sys2Proof/Laws/State.lean ====
section
/-! SUPPORT. What each write of one part of the state leaves alone: one lemma per part and write. -/

namespace Sys2Proof.Machine
open Sys2Proof

@[simp] theorem State.wr_pending (s : State) (k : Nat) (v : Word) : (s.wr k v).pending = s.pending := rfl
@[simp] theorem State.wr_mem (s : State) (k : Nat) (v : Word) : (s.wr k v).mem = s.mem := rfl
@[simp] theorem State.wr_mode (s : State) (k : Nat) (v : Word) : (s.wr k v).mode = s.mode := rfl
@[simp] theorem State.wr_now (s : State) (k : Nat) (v : Word) : (s.wr k v).now = s.now := rfl
@[simp] theorem State.wr_aon (s : State) (k : Nat) (v : Word) : (s.wr k v).aon = s.aon := rfl
@[simp] theorem State.wr_freeCount (s : State) (k : Nat) (v : Word) : (s.wr k v).freeCount = s.freeCount := rfl
@[simp] theorem State.wr_sent (s : State) (k : Nat) (v : Word) : (s.wr k v).sent = s.sent := rfl
@[simp] theorem State.wr_pwr (s : State) (k : Nat) (v : Word) : (s.wr k v).pwr = s.pwr := rfl
@[simp] theorem State.wr_events (s : State) (k : Nat) (v : Word) : (s.wr k v).events = s.events := rfl
@[simp] theorem State.wr_nextSeq (s : State) (k : Nat) (v : Word) : (s.wr k v).nextSeq = s.nextSeq := rfl
@[simp] theorem State.wr_rates (s : State) (k : Nat) (v : Word) : (s.wr k v).rates = s.rates := rfl
@[simp] theorem State.wr_sessions (s : State) (k : Nat) (v : Word) : (s.wr k v).sessions = s.sessions := rfl
@[simp] theorem State.wr_usedIds (s : State) (k : Nat) (v : Word) : (s.wr k v).usedIds = s.usedIds := rfl
@[simp] theorem State.wr_flights (s : State) (k : Nat) (v : Word) : (s.wr k v).flights = s.flights := rfl
@[simp] theorem State.wr_dying (s : State) (k : Nat) (v : Word) : (s.wr k v).dying = s.dying := rfl
@[simp] theorem State.wr_points (s : State) (k : Nat) (v : Word) : (s.wr k v).points = s.points := rfl
@[simp] theorem State.wr_nodeGen (s : State) (k : Nat) (v : Word) : (s.wr k v).nodeGen = s.nodeGen := rfl
@[simp] theorem State.wr_groupGen (s : State) (k : Nat) (v : Word) : (s.wr k v).groupGen = s.groupGen := rfl
@[simp] theorem State.wr_groupOwner (s : State) (k : Nat) (v : Word) : (s.wr k v).groupOwner = s.groupOwner := rfl
@[simp] theorem State.wr_forces (s : State) (k : Nat) (v : Word) : (s.wr k v).forces = s.forces := rfl
@[simp] theorem State.wr_acts (s : State) (k : Nat) (v : Word) : (s.wr k v).acts = s.acts := rfl
@[simp] theorem State.wr_image (s : State) (k : Nat) (v : Word) : (s.wr k v).image = s.image := rfl
@[simp] theorem State.wr_wideLane (s : State) (k : Nat) (v : Word) : (s.wr k v).wideLane = s.wideLane := rfl
@[simp] theorem State.wr_committed (s : State) (k : Nat) (v : Word) : (s.wr k v).committed = s.committed := rfl
@[simp] theorem State.wr_progIn (s : State) (k : Nat) (v : Word) : (s.wr k v).progIn = s.progIn := rfl
@[simp] theorem State.wr_inBuf (s : State) (k : Nat) (v : Word) : (s.wr k v).inBuf = s.inBuf := rfl
@[simp] theorem State.wr_tickNo (s : State) (k : Nat) (v : Word) : (s.wr k v).tickNo = s.tickNo := rfl
@[simp] theorem State.wr_base (s : State) (k : Nat) (v : Word) : (s.wr k v).base = s.base := rfl
@[simp] theorem State.wr_tickAt (s : State) (k : Nat) (v : Word) : (s.wr k v).tickAt = s.tickAt := rfl
@[simp] theorem State.wr_applyAt (s : State) (k : Nat) (v : Word) : (s.wr k v).applyAt = s.applyAt := rfl
@[simp] theorem State.wr_hg (s : State) (k : Nat) (v : Word) : (s.wr k v).hg = s.hg := rfl
@[simp] theorem State.wr_doms (s : State) (k : Nat) (v : Word) : (s.wr k v).doms = s.doms := rfl
@[simp] theorem State.wr_responder (s : State) (k : Nat) (v : Word) : (s.wr k v).responder = s.responder := rfl
@[simp] theorem State.wr_laneA (s : State) (k : Nat) (v : Word) : (s.wr k v).laneA = s.laneA := rfl
@[simp] theorem State.wr_laneB (s : State) (k : Nat) (v : Word) : (s.wr k v).laneB = s.laneB := rfl
@[simp] theorem State.wr_updatePending (s : State) (k : Nat) (v : Word) : (s.wr k v).updatePending = s.updatePending := rfl
@[simp] theorem State.wr_keyQ (s : State) (k : Nat) (v : Word) : (s.wr k v).keyQ = s.keyQ := rfl
@[simp] theorem State.wr_keys (s : State) (k : Nat) (v : Word) : (s.wr k v).keys = s.keys := rfl
@[simp] theorem State.wr_dbLen (s : State) (k : Nat) (v : Word) : (s.wr k v).dbLen = s.dbLen := rfl
@[simp] theorem State.wr_dbReqLen (s : State) (k : Nat) (v : Word) : (s.wr k v).dbReqLen = s.dbReqLen := rfl
@[simp] theorem State.wr_dbReply (s : State) (k : Nat) (v : Word) : (s.wr k v).dbReply = s.dbReply := rfl
@[simp] theorem State.wr_backDone (s : State) (k : Nat) (v : Word) : (s.wr k v).backDone = s.backDone := rfl
@[simp] theorem State.wr_ports (s : State) (k : Nat) (v : Word) : (s.wr k v).ports = s.ports := rfl
@[simp] theorem State.wr_alloc (s : State) (k : Nat) (v : Word) : (s.wr k v).alloc = s.alloc := rfl
@[simp] theorem State.wr_nodeGroups (s : State) (k : Nat) (v : Word) : (s.wr k v).nodeGroups = s.nodeGroups := rfl
@[simp] theorem State.wr_eth (s : State) (k : Nat) (v : Word) : (s.wr k v).eth = s.eth := rfl
@[simp] theorem State.wr_rtc (s : State) (k : Nat) (v : Word) : (s.wr k v).rtc = s.rtc := rfl
@[simp] theorem State.wr_tickDue (s : State) (k : Nat) (v : Word) : (s.wr k v).tickDue = s.tickDue := rfl
@[simp] theorem State.wr_retSet (s : State) (k : Nat) (v : Word) : (s.wr k v).retSet = s.retSet := rfl
@[simp] theorem State.wr_retSetAt (s : State) (k : Nat) (v : Word) : (s.wr k v).retSetAt = s.retSetAt := rfl
@[simp] theorem State.wr_mapOuts (s : State) (k : Nat) (v : Word) : (s.wr k v).mapOuts = s.mapOuts := rfl
@[simp] theorem State.wr_aio (s : State) (k : Nat) (v : Word) : (s.wr k v).aio = s.aio := rfl
@[simp] theorem State.wr_can (s : State) (k : Nat) (v : Word) : (s.wr k v).can = s.can := rfl
@[simp] theorem State.wr_relActs (s : State) (k : Nat) (v : Word) : (s.wr k v).relActs = s.relActs := rfl
@[simp] theorem State.wr_schedBad (s : State) (k : Nat) (v : Word) : (s.wr k v).schedBad = s.schedBad := rfl
@[simp] theorem State.wr_mtr (s : State) (k : Nat) (v : Word) : (s.wr k v).mtr = s.mtr := rfl
@[simp] theorem State.wr_energy (s : State) (k : Nat) (v : Word) : (s.wr k v).energy = s.energy := rfl
@[simp] theorem State.wr_energySave (s : State) (k : Nat) (v : Word) : (s.wr k v).energySave = s.energySave := rfl
@[simp] theorem State.wr_portMtr (s : State) (k : Nat) (v : Word) : (s.wr k v).portMtr = s.portMtr := rfl
@[simp] theorem State.wr_pulses (s : State) (k : Nat) (v : Word) : (s.wr k v).pulses = s.pulses := rfl
@[simp] theorem State.wr_upd (s : State) (k : Nat) (v : Word) : (s.wr k v).upd = s.upd := rfl
@[simp] theorem State.wr_flow (s : State) (k : Nat) (v : Word) : (s.wr k v).flow = s.flow := rfl
@[simp] theorem State.wr_snap (s : State) (k : Nat) (v : Word) : (s.wr k v).snap = s.snap := rfl
@[simp] theorem State.wr_rl (s : State) (k : Nat) (v : Word) : (s.wr k v).rl = s.rl := rfl
@[simp] theorem State.wr_oldRoles (s : State) (k : Nat) (v : Word) : (s.wr k v).oldRoles = s.oldRoles := rfl
@[simp] theorem State.wr_tickLog (s : State) (k : Nat) (v : Word) : (s.wr k v).tickLog = s.tickLog := rfl
@[simp] theorem State.wr_hidden (s : State) (k : Nat) (v : Word) : (s.wr k v).hidden = s.hidden := rfl
@[simp] theorem State.wr_cellFaults (s : State) (k : Nat) (v : Word) : (s.wr k v).cellFaults = s.cellFaults := rfl

@[simp] theorem State.fset_pending (s : State) (b : Nat) (f : Fld) (v : Nat) : (s.fset b f v).pending = s.pending := rfl
@[simp] theorem State.fset_mem (s : State) (b : Nat) (f : Fld) (v : Nat) : (s.fset b f v).mem = s.mem := rfl
@[simp] theorem State.fset_mode (s : State) (b : Nat) (f : Fld) (v : Nat) : (s.fset b f v).mode = s.mode := rfl
@[simp] theorem State.fset_now (s : State) (b : Nat) (f : Fld) (v : Nat) : (s.fset b f v).now = s.now := rfl
@[simp] theorem State.fset_aon (s : State) (b : Nat) (f : Fld) (v : Nat) : (s.fset b f v).aon = s.aon := rfl
@[simp] theorem State.fset_freeCount (s : State) (b : Nat) (f : Fld) (v : Nat) : (s.fset b f v).freeCount = s.freeCount := rfl
@[simp] theorem State.fset_sent (s : State) (b : Nat) (f : Fld) (v : Nat) : (s.fset b f v).sent = s.sent := rfl
@[simp] theorem State.fset_pwr (s : State) (b : Nat) (f : Fld) (v : Nat) : (s.fset b f v).pwr = s.pwr := rfl
@[simp] theorem State.fset_events (s : State) (b : Nat) (f : Fld) (v : Nat) : (s.fset b f v).events = s.events := rfl
@[simp] theorem State.fset_nextSeq (s : State) (b : Nat) (f : Fld) (v : Nat) : (s.fset b f v).nextSeq = s.nextSeq := rfl
@[simp] theorem State.fset_rates (s : State) (b : Nat) (f : Fld) (v : Nat) : (s.fset b f v).rates = s.rates := rfl
@[simp] theorem State.fset_sessions (s : State) (b : Nat) (f : Fld) (v : Nat) : (s.fset b f v).sessions = s.sessions := rfl
@[simp] theorem State.fset_usedIds (s : State) (b : Nat) (f : Fld) (v : Nat) : (s.fset b f v).usedIds = s.usedIds := rfl
@[simp] theorem State.fset_flights (s : State) (b : Nat) (f : Fld) (v : Nat) : (s.fset b f v).flights = s.flights := rfl
@[simp] theorem State.fset_dying (s : State) (b : Nat) (f : Fld) (v : Nat) : (s.fset b f v).dying = s.dying := rfl
@[simp] theorem State.fset_points (s : State) (b : Nat) (f : Fld) (v : Nat) : (s.fset b f v).points = s.points := rfl
@[simp] theorem State.fset_nodeGen (s : State) (b : Nat) (f : Fld) (v : Nat) : (s.fset b f v).nodeGen = s.nodeGen := rfl
@[simp] theorem State.fset_groupGen (s : State) (b : Nat) (f : Fld) (v : Nat) : (s.fset b f v).groupGen = s.groupGen := rfl
@[simp] theorem State.fset_groupOwner (s : State) (b : Nat) (f : Fld) (v : Nat) : (s.fset b f v).groupOwner = s.groupOwner := rfl
@[simp] theorem State.fset_forces (s : State) (b : Nat) (f : Fld) (v : Nat) : (s.fset b f v).forces = s.forces := rfl
@[simp] theorem State.fset_acts (s : State) (b : Nat) (f : Fld) (v : Nat) : (s.fset b f v).acts = s.acts := rfl
@[simp] theorem State.fset_image (s : State) (b : Nat) (f : Fld) (v : Nat) : (s.fset b f v).image = s.image := rfl
@[simp] theorem State.fset_wideLane (s : State) (b : Nat) (f : Fld) (v : Nat) : (s.fset b f v).wideLane = s.wideLane := rfl
@[simp] theorem State.fset_committed (s : State) (b : Nat) (f : Fld) (v : Nat) : (s.fset b f v).committed = s.committed := rfl
@[simp] theorem State.fset_progIn (s : State) (b : Nat) (f : Fld) (v : Nat) : (s.fset b f v).progIn = s.progIn := rfl
@[simp] theorem State.fset_inBuf (s : State) (b : Nat) (f : Fld) (v : Nat) : (s.fset b f v).inBuf = s.inBuf := rfl
@[simp] theorem State.fset_tickNo (s : State) (b : Nat) (f : Fld) (v : Nat) : (s.fset b f v).tickNo = s.tickNo := rfl
@[simp] theorem State.fset_base (s : State) (b : Nat) (f : Fld) (v : Nat) : (s.fset b f v).base = s.base := rfl
@[simp] theorem State.fset_tickAt (s : State) (b : Nat) (f : Fld) (v : Nat) : (s.fset b f v).tickAt = s.tickAt := rfl
@[simp] theorem State.fset_applyAt (s : State) (b : Nat) (f : Fld) (v : Nat) : (s.fset b f v).applyAt = s.applyAt := rfl
@[simp] theorem State.fset_hg (s : State) (b : Nat) (f : Fld) (v : Nat) : (s.fset b f v).hg = s.hg := rfl
@[simp] theorem State.fset_doms (s : State) (b : Nat) (f : Fld) (v : Nat) : (s.fset b f v).doms = s.doms := rfl
@[simp] theorem State.fset_responder (s : State) (b : Nat) (f : Fld) (v : Nat) : (s.fset b f v).responder = s.responder := rfl
@[simp] theorem State.fset_laneA (s : State) (b : Nat) (f : Fld) (v : Nat) : (s.fset b f v).laneA = s.laneA := rfl
@[simp] theorem State.fset_laneB (s : State) (b : Nat) (f : Fld) (v : Nat) : (s.fset b f v).laneB = s.laneB := rfl
@[simp] theorem State.fset_updatePending (s : State) (b : Nat) (f : Fld) (v : Nat) : (s.fset b f v).updatePending = s.updatePending := rfl
@[simp] theorem State.fset_keyQ (s : State) (b : Nat) (f : Fld) (v : Nat) : (s.fset b f v).keyQ = s.keyQ := rfl
@[simp] theorem State.fset_keys (s : State) (b : Nat) (f : Fld) (v : Nat) : (s.fset b f v).keys = s.keys := rfl
@[simp] theorem State.fset_dbLen (s : State) (b : Nat) (f : Fld) (v : Nat) : (s.fset b f v).dbLen = s.dbLen := rfl
@[simp] theorem State.fset_dbReqLen (s : State) (b : Nat) (f : Fld) (v : Nat) : (s.fset b f v).dbReqLen = s.dbReqLen := rfl
@[simp] theorem State.fset_dbReply (s : State) (b : Nat) (f : Fld) (v : Nat) : (s.fset b f v).dbReply = s.dbReply := rfl
@[simp] theorem State.fset_backDone (s : State) (b : Nat) (f : Fld) (v : Nat) : (s.fset b f v).backDone = s.backDone := rfl
@[simp] theorem State.fset_ports (s : State) (b : Nat) (f : Fld) (v : Nat) : (s.fset b f v).ports = s.ports := rfl
@[simp] theorem State.fset_alloc (s : State) (b : Nat) (f : Fld) (v : Nat) : (s.fset b f v).alloc = s.alloc := rfl
@[simp] theorem State.fset_nodeGroups (s : State) (b : Nat) (f : Fld) (v : Nat) : (s.fset b f v).nodeGroups = s.nodeGroups := rfl
@[simp] theorem State.fset_eth (s : State) (b : Nat) (f : Fld) (v : Nat) : (s.fset b f v).eth = s.eth := rfl
@[simp] theorem State.fset_rtc (s : State) (b : Nat) (f : Fld) (v : Nat) : (s.fset b f v).rtc = s.rtc := rfl
@[simp] theorem State.fset_tickDue (s : State) (b : Nat) (f : Fld) (v : Nat) : (s.fset b f v).tickDue = s.tickDue := rfl
@[simp] theorem State.fset_retSet (s : State) (b : Nat) (f : Fld) (v : Nat) : (s.fset b f v).retSet = s.retSet := rfl
@[simp] theorem State.fset_retSetAt (s : State) (b : Nat) (f : Fld) (v : Nat) : (s.fset b f v).retSetAt = s.retSetAt := rfl
@[simp] theorem State.fset_mapOuts (s : State) (b : Nat) (f : Fld) (v : Nat) : (s.fset b f v).mapOuts = s.mapOuts := rfl
@[simp] theorem State.fset_aio (s : State) (b : Nat) (f : Fld) (v : Nat) : (s.fset b f v).aio = s.aio := rfl
@[simp] theorem State.fset_can (s : State) (b : Nat) (f : Fld) (v : Nat) : (s.fset b f v).can = s.can := rfl
@[simp] theorem State.fset_relActs (s : State) (b : Nat) (f : Fld) (v : Nat) : (s.fset b f v).relActs = s.relActs := rfl
@[simp] theorem State.fset_schedBad (s : State) (b : Nat) (f : Fld) (v : Nat) : (s.fset b f v).schedBad = s.schedBad := rfl
@[simp] theorem State.fset_mtr (s : State) (b : Nat) (f : Fld) (v : Nat) : (s.fset b f v).mtr = s.mtr := rfl
@[simp] theorem State.fset_energy (s : State) (b : Nat) (f : Fld) (v : Nat) : (s.fset b f v).energy = s.energy := rfl
@[simp] theorem State.fset_energySave (s : State) (b : Nat) (f : Fld) (v : Nat) : (s.fset b f v).energySave = s.energySave := rfl
@[simp] theorem State.fset_portMtr (s : State) (b : Nat) (f : Fld) (v : Nat) : (s.fset b f v).portMtr = s.portMtr := rfl
@[simp] theorem State.fset_pulses (s : State) (b : Nat) (f : Fld) (v : Nat) : (s.fset b f v).pulses = s.pulses := rfl
@[simp] theorem State.fset_upd (s : State) (b : Nat) (f : Fld) (v : Nat) : (s.fset b f v).upd = s.upd := rfl
@[simp] theorem State.fset_flow (s : State) (b : Nat) (f : Fld) (v : Nat) : (s.fset b f v).flow = s.flow := rfl
@[simp] theorem State.fset_snap (s : State) (b : Nat) (f : Fld) (v : Nat) : (s.fset b f v).snap = s.snap := rfl
@[simp] theorem State.fset_rl (s : State) (b : Nat) (f : Fld) (v : Nat) : (s.fset b f v).rl = s.rl := rfl
@[simp] theorem State.fset_oldRoles (s : State) (b : Nat) (f : Fld) (v : Nat) : (s.fset b f v).oldRoles = s.oldRoles := rfl
@[simp] theorem State.fset_tickLog (s : State) (b : Nat) (f : Fld) (v : Nat) : (s.fset b f v).tickLog = s.tickLog := rfl
@[simp] theorem State.fset_hidden (s : State) (b : Nat) (f : Fld) (v : Nat) : (s.fset b f v).hidden = s.hidden := rfl
@[simp] theorem State.fset_cellFaults (s : State) (b : Nat) (f : Fld) (v : Nat) : (s.fset b f v).cellFaults = s.cellFaults := rfl

@[simp] theorem State.mset_pending (s : State) (k : Nat) (v : Byte) : (s.mset k v).pending = s.pending := rfl
@[simp] theorem State.mset_regs (s : State) (k : Nat) (v : Byte) : (s.mset k v).regs = s.regs := rfl
@[simp] theorem State.mset_mode (s : State) (k : Nat) (v : Byte) : (s.mset k v).mode = s.mode := rfl
@[simp] theorem State.mset_now (s : State) (k : Nat) (v : Byte) : (s.mset k v).now = s.now := rfl
@[simp] theorem State.mset_aon (s : State) (k : Nat) (v : Byte) : (s.mset k v).aon = s.aon := rfl
@[simp] theorem State.mset_freeCount (s : State) (k : Nat) (v : Byte) : (s.mset k v).freeCount = s.freeCount := rfl
@[simp] theorem State.mset_sent (s : State) (k : Nat) (v : Byte) : (s.mset k v).sent = s.sent := rfl
@[simp] theorem State.mset_pwr (s : State) (k : Nat) (v : Byte) : (s.mset k v).pwr = s.pwr := rfl
@[simp] theorem State.mset_events (s : State) (k : Nat) (v : Byte) : (s.mset k v).events = s.events := rfl
@[simp] theorem State.mset_nextSeq (s : State) (k : Nat) (v : Byte) : (s.mset k v).nextSeq = s.nextSeq := rfl
@[simp] theorem State.mset_rates (s : State) (k : Nat) (v : Byte) : (s.mset k v).rates = s.rates := rfl
@[simp] theorem State.mset_sessions (s : State) (k : Nat) (v : Byte) : (s.mset k v).sessions = s.sessions := rfl
@[simp] theorem State.mset_usedIds (s : State) (k : Nat) (v : Byte) : (s.mset k v).usedIds = s.usedIds := rfl
@[simp] theorem State.mset_flights (s : State) (k : Nat) (v : Byte) : (s.mset k v).flights = s.flights := rfl
@[simp] theorem State.mset_dying (s : State) (k : Nat) (v : Byte) : (s.mset k v).dying = s.dying := rfl
@[simp] theorem State.mset_points (s : State) (k : Nat) (v : Byte) : (s.mset k v).points = s.points := rfl
@[simp] theorem State.mset_nodeGen (s : State) (k : Nat) (v : Byte) : (s.mset k v).nodeGen = s.nodeGen := rfl
@[simp] theorem State.mset_groupGen (s : State) (k : Nat) (v : Byte) : (s.mset k v).groupGen = s.groupGen := rfl
@[simp] theorem State.mset_groupOwner (s : State) (k : Nat) (v : Byte) : (s.mset k v).groupOwner = s.groupOwner := rfl
@[simp] theorem State.mset_forces (s : State) (k : Nat) (v : Byte) : (s.mset k v).forces = s.forces := rfl
@[simp] theorem State.mset_acts (s : State) (k : Nat) (v : Byte) : (s.mset k v).acts = s.acts := rfl
@[simp] theorem State.mset_image (s : State) (k : Nat) (v : Byte) : (s.mset k v).image = s.image := rfl
@[simp] theorem State.mset_wideLane (s : State) (k : Nat) (v : Byte) : (s.mset k v).wideLane = s.wideLane := rfl
@[simp] theorem State.mset_committed (s : State) (k : Nat) (v : Byte) : (s.mset k v).committed = s.committed := rfl
@[simp] theorem State.mset_progIn (s : State) (k : Nat) (v : Byte) : (s.mset k v).progIn = s.progIn := rfl
@[simp] theorem State.mset_inBuf (s : State) (k : Nat) (v : Byte) : (s.mset k v).inBuf = s.inBuf := rfl
@[simp] theorem State.mset_tickNo (s : State) (k : Nat) (v : Byte) : (s.mset k v).tickNo = s.tickNo := rfl
@[simp] theorem State.mset_base (s : State) (k : Nat) (v : Byte) : (s.mset k v).base = s.base := rfl
@[simp] theorem State.mset_tickAt (s : State) (k : Nat) (v : Byte) : (s.mset k v).tickAt = s.tickAt := rfl
@[simp] theorem State.mset_applyAt (s : State) (k : Nat) (v : Byte) : (s.mset k v).applyAt = s.applyAt := rfl
@[simp] theorem State.mset_hg (s : State) (k : Nat) (v : Byte) : (s.mset k v).hg = s.hg := rfl
@[simp] theorem State.mset_doms (s : State) (k : Nat) (v : Byte) : (s.mset k v).doms = s.doms := rfl
@[simp] theorem State.mset_responder (s : State) (k : Nat) (v : Byte) : (s.mset k v).responder = s.responder := rfl
@[simp] theorem State.mset_laneA (s : State) (k : Nat) (v : Byte) : (s.mset k v).laneA = s.laneA := rfl
@[simp] theorem State.mset_laneB (s : State) (k : Nat) (v : Byte) : (s.mset k v).laneB = s.laneB := rfl
@[simp] theorem State.mset_updatePending (s : State) (k : Nat) (v : Byte) : (s.mset k v).updatePending = s.updatePending := rfl
@[simp] theorem State.mset_keyQ (s : State) (k : Nat) (v : Byte) : (s.mset k v).keyQ = s.keyQ := rfl
@[simp] theorem State.mset_keys (s : State) (k : Nat) (v : Byte) : (s.mset k v).keys = s.keys := rfl
@[simp] theorem State.mset_dbLen (s : State) (k : Nat) (v : Byte) : (s.mset k v).dbLen = s.dbLen := rfl
@[simp] theorem State.mset_dbReqLen (s : State) (k : Nat) (v : Byte) : (s.mset k v).dbReqLen = s.dbReqLen := rfl
@[simp] theorem State.mset_dbReply (s : State) (k : Nat) (v : Byte) : (s.mset k v).dbReply = s.dbReply := rfl
@[simp] theorem State.mset_backDone (s : State) (k : Nat) (v : Byte) : (s.mset k v).backDone = s.backDone := rfl
@[simp] theorem State.mset_ports (s : State) (k : Nat) (v : Byte) : (s.mset k v).ports = s.ports := rfl
@[simp] theorem State.mset_alloc (s : State) (k : Nat) (v : Byte) : (s.mset k v).alloc = s.alloc := rfl
@[simp] theorem State.mset_nodeGroups (s : State) (k : Nat) (v : Byte) : (s.mset k v).nodeGroups = s.nodeGroups := rfl
@[simp] theorem State.mset_eth (s : State) (k : Nat) (v : Byte) : (s.mset k v).eth = s.eth := rfl
@[simp] theorem State.mset_rtc (s : State) (k : Nat) (v : Byte) : (s.mset k v).rtc = s.rtc := rfl
@[simp] theorem State.mset_tickDue (s : State) (k : Nat) (v : Byte) : (s.mset k v).tickDue = s.tickDue := rfl
@[simp] theorem State.mset_retSet (s : State) (k : Nat) (v : Byte) : (s.mset k v).retSet = s.retSet := rfl
@[simp] theorem State.mset_retSetAt (s : State) (k : Nat) (v : Byte) : (s.mset k v).retSetAt = s.retSetAt := rfl
@[simp] theorem State.mset_mapOuts (s : State) (k : Nat) (v : Byte) : (s.mset k v).mapOuts = s.mapOuts := rfl
@[simp] theorem State.mset_aio (s : State) (k : Nat) (v : Byte) : (s.mset k v).aio = s.aio := rfl
@[simp] theorem State.mset_can (s : State) (k : Nat) (v : Byte) : (s.mset k v).can = s.can := rfl
@[simp] theorem State.mset_relActs (s : State) (k : Nat) (v : Byte) : (s.mset k v).relActs = s.relActs := rfl
@[simp] theorem State.mset_schedBad (s : State) (k : Nat) (v : Byte) : (s.mset k v).schedBad = s.schedBad := rfl
@[simp] theorem State.mset_mtr (s : State) (k : Nat) (v : Byte) : (s.mset k v).mtr = s.mtr := rfl
@[simp] theorem State.mset_energy (s : State) (k : Nat) (v : Byte) : (s.mset k v).energy = s.energy := rfl
@[simp] theorem State.mset_energySave (s : State) (k : Nat) (v : Byte) : (s.mset k v).energySave = s.energySave := rfl
@[simp] theorem State.mset_portMtr (s : State) (k : Nat) (v : Byte) : (s.mset k v).portMtr = s.portMtr := rfl
@[simp] theorem State.mset_pulses (s : State) (k : Nat) (v : Byte) : (s.mset k v).pulses = s.pulses := rfl
@[simp] theorem State.mset_upd (s : State) (k : Nat) (v : Byte) : (s.mset k v).upd = s.upd := rfl
@[simp] theorem State.mset_flow (s : State) (k : Nat) (v : Byte) : (s.mset k v).flow = s.flow := rfl
@[simp] theorem State.mset_snap (s : State) (k : Nat) (v : Byte) : (s.mset k v).snap = s.snap := rfl
@[simp] theorem State.mset_rl (s : State) (k : Nat) (v : Byte) : (s.mset k v).rl = s.rl := rfl
@[simp] theorem State.mset_oldRoles (s : State) (k : Nat) (v : Byte) : (s.mset k v).oldRoles = s.oldRoles := rfl
@[simp] theorem State.mset_tickLog (s : State) (k : Nat) (v : Byte) : (s.mset k v).tickLog = s.tickLog := rfl
@[simp] theorem State.mset_hidden (s : State) (k : Nat) (v : Byte) : (s.mset k v).hidden = s.hidden := rfl
@[simp] theorem State.mset_cellFaults (s : State) (k : Nat) (v : Byte) : (s.mset k v).cellFaults = s.cellFaults := rfl

@[simp] theorem State.send_pending (s : State) (o : Out) : (s.send o).pending = s.pending := rfl
@[simp] theorem State.send_regs (s : State) (o : Out) : (s.send o).regs = s.regs := rfl
@[simp] theorem State.send_mem (s : State) (o : Out) : (s.send o).mem = s.mem := rfl
@[simp] theorem State.send_mode (s : State) (o : Out) : (s.send o).mode = s.mode := rfl
@[simp] theorem State.send_now (s : State) (o : Out) : (s.send o).now = s.now := rfl
@[simp] theorem State.send_aon (s : State) (o : Out) : (s.send o).aon = s.aon := rfl
@[simp] theorem State.send_freeCount (s : State) (o : Out) : (s.send o).freeCount = s.freeCount := rfl
@[simp] theorem State.send_pwr (s : State) (o : Out) : (s.send o).pwr = s.pwr := rfl
@[simp] theorem State.send_events (s : State) (o : Out) : (s.send o).events = s.events := rfl
@[simp] theorem State.send_nextSeq (s : State) (o : Out) : (s.send o).nextSeq = s.nextSeq := rfl
@[simp] theorem State.send_rates (s : State) (o : Out) : (s.send o).rates = s.rates := rfl
@[simp] theorem State.send_sessions (s : State) (o : Out) : (s.send o).sessions = s.sessions := rfl
@[simp] theorem State.send_usedIds (s : State) (o : Out) : (s.send o).usedIds = s.usedIds := rfl
@[simp] theorem State.send_flights (s : State) (o : Out) : (s.send o).flights = s.flights := rfl
@[simp] theorem State.send_dying (s : State) (o : Out) : (s.send o).dying = s.dying := rfl
@[simp] theorem State.send_points (s : State) (o : Out) : (s.send o).points = s.points := rfl
@[simp] theorem State.send_nodeGen (s : State) (o : Out) : (s.send o).nodeGen = s.nodeGen := rfl
@[simp] theorem State.send_groupGen (s : State) (o : Out) : (s.send o).groupGen = s.groupGen := rfl
@[simp] theorem State.send_groupOwner (s : State) (o : Out) : (s.send o).groupOwner = s.groupOwner := rfl
@[simp] theorem State.send_forces (s : State) (o : Out) : (s.send o).forces = s.forces := rfl
@[simp] theorem State.send_acts (s : State) (o : Out) : (s.send o).acts = s.acts := rfl
@[simp] theorem State.send_image (s : State) (o : Out) : (s.send o).image = s.image := rfl
@[simp] theorem State.send_wideLane (s : State) (o : Out) : (s.send o).wideLane = s.wideLane := rfl
@[simp] theorem State.send_committed (s : State) (o : Out) : (s.send o).committed = s.committed := rfl
@[simp] theorem State.send_progIn (s : State) (o : Out) : (s.send o).progIn = s.progIn := rfl
@[simp] theorem State.send_inBuf (s : State) (o : Out) : (s.send o).inBuf = s.inBuf := rfl
@[simp] theorem State.send_tickNo (s : State) (o : Out) : (s.send o).tickNo = s.tickNo := rfl
@[simp] theorem State.send_base (s : State) (o : Out) : (s.send o).base = s.base := rfl
@[simp] theorem State.send_tickAt (s : State) (o : Out) : (s.send o).tickAt = s.tickAt := rfl
@[simp] theorem State.send_applyAt (s : State) (o : Out) : (s.send o).applyAt = s.applyAt := rfl
@[simp] theorem State.send_hg (s : State) (o : Out) : (s.send o).hg = s.hg := rfl
@[simp] theorem State.send_doms (s : State) (o : Out) : (s.send o).doms = s.doms := rfl
@[simp] theorem State.send_responder (s : State) (o : Out) : (s.send o).responder = s.responder := rfl
@[simp] theorem State.send_laneA (s : State) (o : Out) : (s.send o).laneA = s.laneA := rfl
@[simp] theorem State.send_laneB (s : State) (o : Out) : (s.send o).laneB = s.laneB := rfl
@[simp] theorem State.send_updatePending (s : State) (o : Out) : (s.send o).updatePending = s.updatePending := rfl
@[simp] theorem State.send_keyQ (s : State) (o : Out) : (s.send o).keyQ = s.keyQ := rfl
@[simp] theorem State.send_keys (s : State) (o : Out) : (s.send o).keys = s.keys := rfl
@[simp] theorem State.send_dbLen (s : State) (o : Out) : (s.send o).dbLen = s.dbLen := rfl
@[simp] theorem State.send_dbReqLen (s : State) (o : Out) : (s.send o).dbReqLen = s.dbReqLen := rfl
@[simp] theorem State.send_dbReply (s : State) (o : Out) : (s.send o).dbReply = s.dbReply := rfl
@[simp] theorem State.send_backDone (s : State) (o : Out) : (s.send o).backDone = s.backDone := rfl
@[simp] theorem State.send_ports (s : State) (o : Out) : (s.send o).ports = s.ports := rfl
@[simp] theorem State.send_alloc (s : State) (o : Out) : (s.send o).alloc = s.alloc := rfl
@[simp] theorem State.send_nodeGroups (s : State) (o : Out) : (s.send o).nodeGroups = s.nodeGroups := rfl
@[simp] theorem State.send_eth (s : State) (o : Out) : (s.send o).eth = s.eth := rfl
@[simp] theorem State.send_rtc (s : State) (o : Out) : (s.send o).rtc = s.rtc := rfl
@[simp] theorem State.send_tickDue (s : State) (o : Out) : (s.send o).tickDue = s.tickDue := rfl
@[simp] theorem State.send_retSet (s : State) (o : Out) : (s.send o).retSet = s.retSet := rfl
@[simp] theorem State.send_retSetAt (s : State) (o : Out) : (s.send o).retSetAt = s.retSetAt := rfl
@[simp] theorem State.send_mapOuts (s : State) (o : Out) : (s.send o).mapOuts = s.mapOuts := rfl
@[simp] theorem State.send_aio (s : State) (o : Out) : (s.send o).aio = s.aio := rfl
@[simp] theorem State.send_can (s : State) (o : Out) : (s.send o).can = s.can := rfl
@[simp] theorem State.send_relActs (s : State) (o : Out) : (s.send o).relActs = s.relActs := rfl
@[simp] theorem State.send_schedBad (s : State) (o : Out) : (s.send o).schedBad = s.schedBad := rfl
@[simp] theorem State.send_mtr (s : State) (o : Out) : (s.send o).mtr = s.mtr := rfl
@[simp] theorem State.send_energy (s : State) (o : Out) : (s.send o).energy = s.energy := rfl
@[simp] theorem State.send_energySave (s : State) (o : Out) : (s.send o).energySave = s.energySave := rfl
@[simp] theorem State.send_portMtr (s : State) (o : Out) : (s.send o).portMtr = s.portMtr := rfl
@[simp] theorem State.send_pulses (s : State) (o : Out) : (s.send o).pulses = s.pulses := rfl
@[simp] theorem State.send_upd (s : State) (o : Out) : (s.send o).upd = s.upd := rfl
@[simp] theorem State.send_flow (s : State) (o : Out) : (s.send o).flow = s.flow := rfl
@[simp] theorem State.send_snap (s : State) (o : Out) : (s.send o).snap = s.snap := rfl
@[simp] theorem State.send_rl (s : State) (o : Out) : (s.send o).rl = s.rl := rfl
@[simp] theorem State.send_oldRoles (s : State) (o : Out) : (s.send o).oldRoles = s.oldRoles := rfl
@[simp] theorem State.send_tickLog (s : State) (o : Out) : (s.send o).tickLog = s.tickLog := rfl
@[simp] theorem State.send_hidden (s : State) (o : Out) : (s.send o).hidden = s.hidden := rfl
@[simp] theorem State.send_cellFaults (s : State) (o : Out) : (s.send o).cellFaults = s.cellFaults := rfl

@[simp] theorem State.queued_pending (s : State) (q : List EvEntry) (n : Nat) : (s.queued q n).pending = s.pending := rfl
@[simp] theorem State.queued_regs (s : State) (q : List EvEntry) (n : Nat) : (s.queued q n).regs = s.regs := rfl
@[simp] theorem State.queued_mem (s : State) (q : List EvEntry) (n : Nat) : (s.queued q n).mem = s.mem := rfl
@[simp] theorem State.queued_mode (s : State) (q : List EvEntry) (n : Nat) : (s.queued q n).mode = s.mode := rfl
@[simp] theorem State.queued_now (s : State) (q : List EvEntry) (n : Nat) : (s.queued q n).now = s.now := rfl
@[simp] theorem State.queued_aon (s : State) (q : List EvEntry) (n : Nat) : (s.queued q n).aon = s.aon := rfl
@[simp] theorem State.queued_freeCount (s : State) (q : List EvEntry) (n : Nat) : (s.queued q n).freeCount = s.freeCount := rfl
@[simp] theorem State.queued_sent (s : State) (q : List EvEntry) (n : Nat) : (s.queued q n).sent = s.sent := rfl
@[simp] theorem State.queued_pwr (s : State) (q : List EvEntry) (n : Nat) : (s.queued q n).pwr = s.pwr := rfl
@[simp] theorem State.queued_rates (s : State) (q : List EvEntry) (n : Nat) : (s.queued q n).rates = s.rates := rfl
@[simp] theorem State.queued_sessions (s : State) (q : List EvEntry) (n : Nat) : (s.queued q n).sessions = s.sessions := rfl
@[simp] theorem State.queued_usedIds (s : State) (q : List EvEntry) (n : Nat) : (s.queued q n).usedIds = s.usedIds := rfl
@[simp] theorem State.queued_flights (s : State) (q : List EvEntry) (n : Nat) : (s.queued q n).flights = s.flights := rfl
@[simp] theorem State.queued_dying (s : State) (q : List EvEntry) (n : Nat) : (s.queued q n).dying = s.dying := rfl
@[simp] theorem State.queued_points (s : State) (q : List EvEntry) (n : Nat) : (s.queued q n).points = s.points := rfl
@[simp] theorem State.queued_nodeGen (s : State) (q : List EvEntry) (n : Nat) : (s.queued q n).nodeGen = s.nodeGen := rfl
@[simp] theorem State.queued_groupGen (s : State) (q : List EvEntry) (n : Nat) : (s.queued q n).groupGen = s.groupGen := rfl
@[simp] theorem State.queued_groupOwner (s : State) (q : List EvEntry) (n : Nat) : (s.queued q n).groupOwner = s.groupOwner := rfl
@[simp] theorem State.queued_forces (s : State) (q : List EvEntry) (n : Nat) : (s.queued q n).forces = s.forces := rfl
@[simp] theorem State.queued_acts (s : State) (q : List EvEntry) (n : Nat) : (s.queued q n).acts = s.acts := rfl
@[simp] theorem State.queued_image (s : State) (q : List EvEntry) (n : Nat) : (s.queued q n).image = s.image := rfl
@[simp] theorem State.queued_wideLane (s : State) (q : List EvEntry) (n : Nat) : (s.queued q n).wideLane = s.wideLane := rfl
@[simp] theorem State.queued_committed (s : State) (q : List EvEntry) (n : Nat) : (s.queued q n).committed = s.committed := rfl
@[simp] theorem State.queued_progIn (s : State) (q : List EvEntry) (n : Nat) : (s.queued q n).progIn = s.progIn := rfl
@[simp] theorem State.queued_inBuf (s : State) (q : List EvEntry) (n : Nat) : (s.queued q n).inBuf = s.inBuf := rfl
@[simp] theorem State.queued_tickNo (s : State) (q : List EvEntry) (n : Nat) : (s.queued q n).tickNo = s.tickNo := rfl
@[simp] theorem State.queued_base (s : State) (q : List EvEntry) (n : Nat) : (s.queued q n).base = s.base := rfl
@[simp] theorem State.queued_tickAt (s : State) (q : List EvEntry) (n : Nat) : (s.queued q n).tickAt = s.tickAt := rfl
@[simp] theorem State.queued_applyAt (s : State) (q : List EvEntry) (n : Nat) : (s.queued q n).applyAt = s.applyAt := rfl
@[simp] theorem State.queued_hg (s : State) (q : List EvEntry) (n : Nat) : (s.queued q n).hg = s.hg := rfl
@[simp] theorem State.queued_doms (s : State) (q : List EvEntry) (n : Nat) : (s.queued q n).doms = s.doms := rfl
@[simp] theorem State.queued_responder (s : State) (q : List EvEntry) (n : Nat) : (s.queued q n).responder = s.responder := rfl
@[simp] theorem State.queued_laneA (s : State) (q : List EvEntry) (n : Nat) : (s.queued q n).laneA = s.laneA := rfl
@[simp] theorem State.queued_laneB (s : State) (q : List EvEntry) (n : Nat) : (s.queued q n).laneB = s.laneB := rfl
@[simp] theorem State.queued_updatePending (s : State) (q : List EvEntry) (n : Nat) : (s.queued q n).updatePending = s.updatePending := rfl
@[simp] theorem State.queued_keyQ (s : State) (q : List EvEntry) (n : Nat) : (s.queued q n).keyQ = s.keyQ := rfl
@[simp] theorem State.queued_keys (s : State) (q : List EvEntry) (n : Nat) : (s.queued q n).keys = s.keys := rfl
@[simp] theorem State.queued_dbLen (s : State) (q : List EvEntry) (n : Nat) : (s.queued q n).dbLen = s.dbLen := rfl
@[simp] theorem State.queued_dbReqLen (s : State) (q : List EvEntry) (n : Nat) : (s.queued q n).dbReqLen = s.dbReqLen := rfl
@[simp] theorem State.queued_dbReply (s : State) (q : List EvEntry) (n : Nat) : (s.queued q n).dbReply = s.dbReply := rfl
@[simp] theorem State.queued_backDone (s : State) (q : List EvEntry) (n : Nat) : (s.queued q n).backDone = s.backDone := rfl
@[simp] theorem State.queued_ports (s : State) (q : List EvEntry) (n : Nat) : (s.queued q n).ports = s.ports := rfl
@[simp] theorem State.queued_alloc (s : State) (q : List EvEntry) (n : Nat) : (s.queued q n).alloc = s.alloc := rfl
@[simp] theorem State.queued_nodeGroups (s : State) (q : List EvEntry) (n : Nat) : (s.queued q n).nodeGroups = s.nodeGroups := rfl
@[simp] theorem State.queued_eth (s : State) (q : List EvEntry) (n : Nat) : (s.queued q n).eth = s.eth := rfl
@[simp] theorem State.queued_rtc (s : State) (q : List EvEntry) (n : Nat) : (s.queued q n).rtc = s.rtc := rfl
@[simp] theorem State.queued_tickDue (s : State) (q : List EvEntry) (n : Nat) : (s.queued q n).tickDue = s.tickDue := rfl
@[simp] theorem State.queued_retSet (s : State) (q : List EvEntry) (n : Nat) : (s.queued q n).retSet = s.retSet := rfl
@[simp] theorem State.queued_retSetAt (s : State) (q : List EvEntry) (n : Nat) : (s.queued q n).retSetAt = s.retSetAt := rfl
@[simp] theorem State.queued_mapOuts (s : State) (q : List EvEntry) (n : Nat) : (s.queued q n).mapOuts = s.mapOuts := rfl
@[simp] theorem State.queued_aio (s : State) (q : List EvEntry) (n : Nat) : (s.queued q n).aio = s.aio := rfl
@[simp] theorem State.queued_can (s : State) (q : List EvEntry) (n : Nat) : (s.queued q n).can = s.can := rfl
@[simp] theorem State.queued_relActs (s : State) (q : List EvEntry) (n : Nat) : (s.queued q n).relActs = s.relActs := rfl
@[simp] theorem State.queued_schedBad (s : State) (q : List EvEntry) (n : Nat) : (s.queued q n).schedBad = s.schedBad := rfl
@[simp] theorem State.queued_mtr (s : State) (q : List EvEntry) (n : Nat) : (s.queued q n).mtr = s.mtr := rfl
@[simp] theorem State.queued_energy (s : State) (q : List EvEntry) (n : Nat) : (s.queued q n).energy = s.energy := rfl
@[simp] theorem State.queued_energySave (s : State) (q : List EvEntry) (n : Nat) : (s.queued q n).energySave = s.energySave := rfl
@[simp] theorem State.queued_portMtr (s : State) (q : List EvEntry) (n : Nat) : (s.queued q n).portMtr = s.portMtr := rfl
@[simp] theorem State.queued_pulses (s : State) (q : List EvEntry) (n : Nat) : (s.queued q n).pulses = s.pulses := rfl
@[simp] theorem State.queued_upd (s : State) (q : List EvEntry) (n : Nat) : (s.queued q n).upd = s.upd := rfl
@[simp] theorem State.queued_flow (s : State) (q : List EvEntry) (n : Nat) : (s.queued q n).flow = s.flow := rfl
@[simp] theorem State.queued_snap (s : State) (q : List EvEntry) (n : Nat) : (s.queued q n).snap = s.snap := rfl
@[simp] theorem State.queued_rl (s : State) (q : List EvEntry) (n : Nat) : (s.queued q n).rl = s.rl := rfl
@[simp] theorem State.queued_oldRoles (s : State) (q : List EvEntry) (n : Nat) : (s.queued q n).oldRoles = s.oldRoles := rfl
@[simp] theorem State.queued_tickLog (s : State) (q : List EvEntry) (n : Nat) : (s.queued q n).tickLog = s.tickLog := rfl
@[simp] theorem State.queued_hidden (s : State) (q : List EvEntry) (n : Nat) : (s.queued q n).hidden = s.hidden := rfl
@[simp] theorem State.queued_cellFaults (s : State) (q : List EvEntry) (n : Nat) : (s.queued q n).cellFaults = s.cellFaults := rfl

@[simp] theorem State.setPoint_pending (s : State) (e : Nat) (p : PointEnt) : (s.setPoint e p).pending = s.pending := rfl
@[simp] theorem State.setPoint_regs (s : State) (e : Nat) (p : PointEnt) : (s.setPoint e p).regs = s.regs := rfl
@[simp] theorem State.setPoint_mem (s : State) (e : Nat) (p : PointEnt) : (s.setPoint e p).mem = s.mem := rfl
@[simp] theorem State.setPoint_mode (s : State) (e : Nat) (p : PointEnt) : (s.setPoint e p).mode = s.mode := rfl
@[simp] theorem State.setPoint_now (s : State) (e : Nat) (p : PointEnt) : (s.setPoint e p).now = s.now := rfl
@[simp] theorem State.setPoint_aon (s : State) (e : Nat) (p : PointEnt) : (s.setPoint e p).aon = s.aon := rfl
@[simp] theorem State.setPoint_freeCount (s : State) (e : Nat) (p : PointEnt) : (s.setPoint e p).freeCount = s.freeCount := rfl
@[simp] theorem State.setPoint_sent (s : State) (e : Nat) (p : PointEnt) : (s.setPoint e p).sent = s.sent := rfl
@[simp] theorem State.setPoint_pwr (s : State) (e : Nat) (p : PointEnt) : (s.setPoint e p).pwr = s.pwr := rfl
@[simp] theorem State.setPoint_events (s : State) (e : Nat) (p : PointEnt) : (s.setPoint e p).events = s.events := rfl
@[simp] theorem State.setPoint_nextSeq (s : State) (e : Nat) (p : PointEnt) : (s.setPoint e p).nextSeq = s.nextSeq := rfl
@[simp] theorem State.setPoint_rates (s : State) (e : Nat) (p : PointEnt) : (s.setPoint e p).rates = s.rates := rfl
@[simp] theorem State.setPoint_sessions (s : State) (e : Nat) (p : PointEnt) : (s.setPoint e p).sessions = s.sessions := rfl
@[simp] theorem State.setPoint_usedIds (s : State) (e : Nat) (p : PointEnt) : (s.setPoint e p).usedIds = s.usedIds := rfl
@[simp] theorem State.setPoint_flights (s : State) (e : Nat) (p : PointEnt) : (s.setPoint e p).flights = s.flights := rfl
@[simp] theorem State.setPoint_dying (s : State) (e : Nat) (p : PointEnt) : (s.setPoint e p).dying = s.dying := rfl
@[simp] theorem State.setPoint_nodeGen (s : State) (e : Nat) (p : PointEnt) : (s.setPoint e p).nodeGen = s.nodeGen := rfl
@[simp] theorem State.setPoint_groupGen (s : State) (e : Nat) (p : PointEnt) : (s.setPoint e p).groupGen = s.groupGen := rfl
@[simp] theorem State.setPoint_groupOwner (s : State) (e : Nat) (p : PointEnt) : (s.setPoint e p).groupOwner = s.groupOwner := rfl
@[simp] theorem State.setPoint_forces (s : State) (e : Nat) (p : PointEnt) : (s.setPoint e p).forces = s.forces := rfl
@[simp] theorem State.setPoint_acts (s : State) (e : Nat) (p : PointEnt) : (s.setPoint e p).acts = s.acts := rfl
@[simp] theorem State.setPoint_image (s : State) (e : Nat) (p : PointEnt) : (s.setPoint e p).image = s.image := rfl
@[simp] theorem State.setPoint_wideLane (s : State) (e : Nat) (p : PointEnt) : (s.setPoint e p).wideLane = s.wideLane := rfl
@[simp] theorem State.setPoint_committed (s : State) (e : Nat) (p : PointEnt) : (s.setPoint e p).committed = s.committed := rfl
@[simp] theorem State.setPoint_progIn (s : State) (e : Nat) (p : PointEnt) : (s.setPoint e p).progIn = s.progIn := rfl
@[simp] theorem State.setPoint_inBuf (s : State) (e : Nat) (p : PointEnt) : (s.setPoint e p).inBuf = s.inBuf := rfl
@[simp] theorem State.setPoint_tickNo (s : State) (e : Nat) (p : PointEnt) : (s.setPoint e p).tickNo = s.tickNo := rfl
@[simp] theorem State.setPoint_base (s : State) (e : Nat) (p : PointEnt) : (s.setPoint e p).base = s.base := rfl
@[simp] theorem State.setPoint_tickAt (s : State) (e : Nat) (p : PointEnt) : (s.setPoint e p).tickAt = s.tickAt := rfl
@[simp] theorem State.setPoint_applyAt (s : State) (e : Nat) (p : PointEnt) : (s.setPoint e p).applyAt = s.applyAt := rfl
@[simp] theorem State.setPoint_hg (s : State) (e : Nat) (p : PointEnt) : (s.setPoint e p).hg = s.hg := rfl
@[simp] theorem State.setPoint_doms (s : State) (e : Nat) (p : PointEnt) : (s.setPoint e p).doms = s.doms := rfl
@[simp] theorem State.setPoint_responder (s : State) (e : Nat) (p : PointEnt) : (s.setPoint e p).responder = s.responder := rfl
@[simp] theorem State.setPoint_laneA (s : State) (e : Nat) (p : PointEnt) : (s.setPoint e p).laneA = s.laneA := rfl
@[simp] theorem State.setPoint_laneB (s : State) (e : Nat) (p : PointEnt) : (s.setPoint e p).laneB = s.laneB := rfl
@[simp] theorem State.setPoint_updatePending (s : State) (e : Nat) (p : PointEnt) : (s.setPoint e p).updatePending = s.updatePending := rfl
@[simp] theorem State.setPoint_keyQ (s : State) (e : Nat) (p : PointEnt) : (s.setPoint e p).keyQ = s.keyQ := rfl
@[simp] theorem State.setPoint_keys (s : State) (e : Nat) (p : PointEnt) : (s.setPoint e p).keys = s.keys := rfl
@[simp] theorem State.setPoint_dbLen (s : State) (e : Nat) (p : PointEnt) : (s.setPoint e p).dbLen = s.dbLen := rfl
@[simp] theorem State.setPoint_dbReqLen (s : State) (e : Nat) (p : PointEnt) : (s.setPoint e p).dbReqLen = s.dbReqLen := rfl
@[simp] theorem State.setPoint_dbReply (s : State) (e : Nat) (p : PointEnt) : (s.setPoint e p).dbReply = s.dbReply := rfl
@[simp] theorem State.setPoint_backDone (s : State) (e : Nat) (p : PointEnt) : (s.setPoint e p).backDone = s.backDone := rfl
@[simp] theorem State.setPoint_ports (s : State) (e : Nat) (p : PointEnt) : (s.setPoint e p).ports = s.ports := rfl
@[simp] theorem State.setPoint_alloc (s : State) (e : Nat) (p : PointEnt) : (s.setPoint e p).alloc = s.alloc := rfl
@[simp] theorem State.setPoint_nodeGroups (s : State) (e : Nat) (p : PointEnt) : (s.setPoint e p).nodeGroups = s.nodeGroups := rfl
@[simp] theorem State.setPoint_eth (s : State) (e : Nat) (p : PointEnt) : (s.setPoint e p).eth = s.eth := rfl
@[simp] theorem State.setPoint_rtc (s : State) (e : Nat) (p : PointEnt) : (s.setPoint e p).rtc = s.rtc := rfl
@[simp] theorem State.setPoint_tickDue (s : State) (e : Nat) (p : PointEnt) : (s.setPoint e p).tickDue = s.tickDue := rfl
@[simp] theorem State.setPoint_retSet (s : State) (e : Nat) (p : PointEnt) : (s.setPoint e p).retSet = s.retSet := rfl
@[simp] theorem State.setPoint_retSetAt (s : State) (e : Nat) (p : PointEnt) : (s.setPoint e p).retSetAt = s.retSetAt := rfl
@[simp] theorem State.setPoint_mapOuts (s : State) (e : Nat) (p : PointEnt) : (s.setPoint e p).mapOuts = s.mapOuts := rfl
@[simp] theorem State.setPoint_aio (s : State) (e : Nat) (p : PointEnt) : (s.setPoint e p).aio = s.aio := rfl
@[simp] theorem State.setPoint_can (s : State) (e : Nat) (p : PointEnt) : (s.setPoint e p).can = s.can := rfl
@[simp] theorem State.setPoint_relActs (s : State) (e : Nat) (p : PointEnt) : (s.setPoint e p).relActs = s.relActs := rfl
@[simp] theorem State.setPoint_schedBad (s : State) (e : Nat) (p : PointEnt) : (s.setPoint e p).schedBad = s.schedBad := rfl
@[simp] theorem State.setPoint_mtr (s : State) (e : Nat) (p : PointEnt) : (s.setPoint e p).mtr = s.mtr := rfl
@[simp] theorem State.setPoint_energy (s : State) (e : Nat) (p : PointEnt) : (s.setPoint e p).energy = s.energy := rfl
@[simp] theorem State.setPoint_energySave (s : State) (e : Nat) (p : PointEnt) : (s.setPoint e p).energySave = s.energySave := rfl
@[simp] theorem State.setPoint_portMtr (s : State) (e : Nat) (p : PointEnt) : (s.setPoint e p).portMtr = s.portMtr := rfl
@[simp] theorem State.setPoint_pulses (s : State) (e : Nat) (p : PointEnt) : (s.setPoint e p).pulses = s.pulses := rfl
@[simp] theorem State.setPoint_upd (s : State) (e : Nat) (p : PointEnt) : (s.setPoint e p).upd = s.upd := rfl
@[simp] theorem State.setPoint_flow (s : State) (e : Nat) (p : PointEnt) : (s.setPoint e p).flow = s.flow := rfl
@[simp] theorem State.setPoint_snap (s : State) (e : Nat) (p : PointEnt) : (s.setPoint e p).snap = s.snap := rfl
@[simp] theorem State.setPoint_rl (s : State) (e : Nat) (p : PointEnt) : (s.setPoint e p).rl = s.rl := rfl
@[simp] theorem State.setPoint_oldRoles (s : State) (e : Nat) (p : PointEnt) : (s.setPoint e p).oldRoles = s.oldRoles := rfl
@[simp] theorem State.setPoint_tickLog (s : State) (e : Nat) (p : PointEnt) : (s.setPoint e p).tickLog = s.tickLog := rfl
@[simp] theorem State.setPoint_hidden (s : State) (e : Nat) (p : PointEnt) : (s.setPoint e p).hidden = s.hidden := rfl
@[simp] theorem State.setPoint_cellFaults (s : State) (e : Nat) (p : PointEnt) : (s.setPoint e p).cellFaults = s.cellFaults := rfl

@[simp] theorem State.setDom_pending (s : State) (d : Dom) (x : DomRst) : (s.setDom d x).pending = s.pending := rfl
@[simp] theorem State.setDom_regs (s : State) (d : Dom) (x : DomRst) : (s.setDom d x).regs = s.regs := rfl
@[simp] theorem State.setDom_mem (s : State) (d : Dom) (x : DomRst) : (s.setDom d x).mem = s.mem := rfl
@[simp] theorem State.setDom_mode (s : State) (d : Dom) (x : DomRst) : (s.setDom d x).mode = s.mode := rfl
@[simp] theorem State.setDom_now (s : State) (d : Dom) (x : DomRst) : (s.setDom d x).now = s.now := rfl
@[simp] theorem State.setDom_aon (s : State) (d : Dom) (x : DomRst) : (s.setDom d x).aon = s.aon := rfl
@[simp] theorem State.setDom_freeCount (s : State) (d : Dom) (x : DomRst) : (s.setDom d x).freeCount = s.freeCount := rfl
@[simp] theorem State.setDom_sent (s : State) (d : Dom) (x : DomRst) : (s.setDom d x).sent = s.sent := rfl
@[simp] theorem State.setDom_pwr (s : State) (d : Dom) (x : DomRst) : (s.setDom d x).pwr = s.pwr := rfl
@[simp] theorem State.setDom_events (s : State) (d : Dom) (x : DomRst) : (s.setDom d x).events = s.events := rfl
@[simp] theorem State.setDom_nextSeq (s : State) (d : Dom) (x : DomRst) : (s.setDom d x).nextSeq = s.nextSeq := rfl
@[simp] theorem State.setDom_rates (s : State) (d : Dom) (x : DomRst) : (s.setDom d x).rates = s.rates := rfl
@[simp] theorem State.setDom_sessions (s : State) (d : Dom) (x : DomRst) : (s.setDom d x).sessions = s.sessions := rfl
@[simp] theorem State.setDom_usedIds (s : State) (d : Dom) (x : DomRst) : (s.setDom d x).usedIds = s.usedIds := rfl
@[simp] theorem State.setDom_flights (s : State) (d : Dom) (x : DomRst) : (s.setDom d x).flights = s.flights := rfl
@[simp] theorem State.setDom_dying (s : State) (d : Dom) (x : DomRst) : (s.setDom d x).dying = s.dying := rfl
@[simp] theorem State.setDom_points (s : State) (d : Dom) (x : DomRst) : (s.setDom d x).points = s.points := rfl
@[simp] theorem State.setDom_nodeGen (s : State) (d : Dom) (x : DomRst) : (s.setDom d x).nodeGen = s.nodeGen := rfl
@[simp] theorem State.setDom_groupGen (s : State) (d : Dom) (x : DomRst) : (s.setDom d x).groupGen = s.groupGen := rfl
@[simp] theorem State.setDom_groupOwner (s : State) (d : Dom) (x : DomRst) : (s.setDom d x).groupOwner = s.groupOwner := rfl
@[simp] theorem State.setDom_forces (s : State) (d : Dom) (x : DomRst) : (s.setDom d x).forces = s.forces := rfl
@[simp] theorem State.setDom_acts (s : State) (d : Dom) (x : DomRst) : (s.setDom d x).acts = s.acts := rfl
@[simp] theorem State.setDom_image (s : State) (d : Dom) (x : DomRst) : (s.setDom d x).image = s.image := rfl
@[simp] theorem State.setDom_wideLane (s : State) (d : Dom) (x : DomRst) : (s.setDom d x).wideLane = s.wideLane := rfl
@[simp] theorem State.setDom_committed (s : State) (d : Dom) (x : DomRst) : (s.setDom d x).committed = s.committed := rfl
@[simp] theorem State.setDom_progIn (s : State) (d : Dom) (x : DomRst) : (s.setDom d x).progIn = s.progIn := rfl
@[simp] theorem State.setDom_inBuf (s : State) (d : Dom) (x : DomRst) : (s.setDom d x).inBuf = s.inBuf := rfl
@[simp] theorem State.setDom_tickNo (s : State) (d : Dom) (x : DomRst) : (s.setDom d x).tickNo = s.tickNo := rfl
@[simp] theorem State.setDom_base (s : State) (d : Dom) (x : DomRst) : (s.setDom d x).base = s.base := rfl
@[simp] theorem State.setDom_tickAt (s : State) (d : Dom) (x : DomRst) : (s.setDom d x).tickAt = s.tickAt := rfl
@[simp] theorem State.setDom_applyAt (s : State) (d : Dom) (x : DomRst) : (s.setDom d x).applyAt = s.applyAt := rfl
@[simp] theorem State.setDom_hg (s : State) (d : Dom) (x : DomRst) : (s.setDom d x).hg = s.hg := rfl
@[simp] theorem State.setDom_responder (s : State) (d : Dom) (x : DomRst) : (s.setDom d x).responder = s.responder := rfl
@[simp] theorem State.setDom_laneA (s : State) (d : Dom) (x : DomRst) : (s.setDom d x).laneA = s.laneA := rfl
@[simp] theorem State.setDom_laneB (s : State) (d : Dom) (x : DomRst) : (s.setDom d x).laneB = s.laneB := rfl
@[simp] theorem State.setDom_updatePending (s : State) (d : Dom) (x : DomRst) : (s.setDom d x).updatePending = s.updatePending := rfl
@[simp] theorem State.setDom_keyQ (s : State) (d : Dom) (x : DomRst) : (s.setDom d x).keyQ = s.keyQ := rfl
@[simp] theorem State.setDom_keys (s : State) (d : Dom) (x : DomRst) : (s.setDom d x).keys = s.keys := rfl
@[simp] theorem State.setDom_dbLen (s : State) (d : Dom) (x : DomRst) : (s.setDom d x).dbLen = s.dbLen := rfl
@[simp] theorem State.setDom_dbReqLen (s : State) (d : Dom) (x : DomRst) : (s.setDom d x).dbReqLen = s.dbReqLen := rfl
@[simp] theorem State.setDom_dbReply (s : State) (d : Dom) (x : DomRst) : (s.setDom d x).dbReply = s.dbReply := rfl
@[simp] theorem State.setDom_backDone (s : State) (d : Dom) (x : DomRst) : (s.setDom d x).backDone = s.backDone := rfl
@[simp] theorem State.setDom_ports (s : State) (d : Dom) (x : DomRst) : (s.setDom d x).ports = s.ports := rfl
@[simp] theorem State.setDom_alloc (s : State) (d : Dom) (x : DomRst) : (s.setDom d x).alloc = s.alloc := rfl
@[simp] theorem State.setDom_nodeGroups (s : State) (d : Dom) (x : DomRst) : (s.setDom d x).nodeGroups = s.nodeGroups := rfl
@[simp] theorem State.setDom_eth (s : State) (d : Dom) (x : DomRst) : (s.setDom d x).eth = s.eth := rfl
@[simp] theorem State.setDom_rtc (s : State) (d : Dom) (x : DomRst) : (s.setDom d x).rtc = s.rtc := rfl
@[simp] theorem State.setDom_tickDue (s : State) (d : Dom) (x : DomRst) : (s.setDom d x).tickDue = s.tickDue := rfl
@[simp] theorem State.setDom_retSet (s : State) (d : Dom) (x : DomRst) : (s.setDom d x).retSet = s.retSet := rfl
@[simp] theorem State.setDom_retSetAt (s : State) (d : Dom) (x : DomRst) : (s.setDom d x).retSetAt = s.retSetAt := rfl
@[simp] theorem State.setDom_mapOuts (s : State) (d : Dom) (x : DomRst) : (s.setDom d x).mapOuts = s.mapOuts := rfl
@[simp] theorem State.setDom_aio (s : State) (d : Dom) (x : DomRst) : (s.setDom d x).aio = s.aio := rfl
@[simp] theorem State.setDom_can (s : State) (d : Dom) (x : DomRst) : (s.setDom d x).can = s.can := rfl
@[simp] theorem State.setDom_relActs (s : State) (d : Dom) (x : DomRst) : (s.setDom d x).relActs = s.relActs := rfl
@[simp] theorem State.setDom_schedBad (s : State) (d : Dom) (x : DomRst) : (s.setDom d x).schedBad = s.schedBad := rfl
@[simp] theorem State.setDom_mtr (s : State) (d : Dom) (x : DomRst) : (s.setDom d x).mtr = s.mtr := rfl
@[simp] theorem State.setDom_energy (s : State) (d : Dom) (x : DomRst) : (s.setDom d x).energy = s.energy := rfl
@[simp] theorem State.setDom_energySave (s : State) (d : Dom) (x : DomRst) : (s.setDom d x).energySave = s.energySave := rfl
@[simp] theorem State.setDom_portMtr (s : State) (d : Dom) (x : DomRst) : (s.setDom d x).portMtr = s.portMtr := rfl
@[simp] theorem State.setDom_pulses (s : State) (d : Dom) (x : DomRst) : (s.setDom d x).pulses = s.pulses := rfl
@[simp] theorem State.setDom_upd (s : State) (d : Dom) (x : DomRst) : (s.setDom d x).upd = s.upd := rfl
@[simp] theorem State.setDom_flow (s : State) (d : Dom) (x : DomRst) : (s.setDom d x).flow = s.flow := rfl
@[simp] theorem State.setDom_snap (s : State) (d : Dom) (x : DomRst) : (s.setDom d x).snap = s.snap := rfl
@[simp] theorem State.setDom_rl (s : State) (d : Dom) (x : DomRst) : (s.setDom d x).rl = s.rl := rfl
@[simp] theorem State.setDom_oldRoles (s : State) (d : Dom) (x : DomRst) : (s.setDom d x).oldRoles = s.oldRoles := rfl
@[simp] theorem State.setDom_tickLog (s : State) (d : Dom) (x : DomRst) : (s.setDom d x).tickLog = s.tickLog := rfl
@[simp] theorem State.setDom_hidden (s : State) (d : Dom) (x : DomRst) : (s.setDom d x).hidden = s.hidden := rfl
@[simp] theorem State.setDom_cellFaults (s : State) (d : Dom) (x : DomRst) : (s.setDom d x).cellFaults = s.cellFaults := rfl

@[simp] theorem State.setLaneHg_pending (s : State) (l : Lane) (h : LaneHg) : (s.setLaneHg l h).pending = s.pending := by cases l <;> rfl
@[simp] theorem State.setLaneHg_regs (s : State) (l : Lane) (h : LaneHg) : (s.setLaneHg l h).regs = s.regs := by cases l <;> rfl
@[simp] theorem State.setLaneHg_mem (s : State) (l : Lane) (h : LaneHg) : (s.setLaneHg l h).mem = s.mem := by cases l <;> rfl
@[simp] theorem State.setLaneHg_mode (s : State) (l : Lane) (h : LaneHg) : (s.setLaneHg l h).mode = s.mode := by cases l <;> rfl
@[simp] theorem State.setLaneHg_now (s : State) (l : Lane) (h : LaneHg) : (s.setLaneHg l h).now = s.now := by cases l <;> rfl
@[simp] theorem State.setLaneHg_aon (s : State) (l : Lane) (h : LaneHg) : (s.setLaneHg l h).aon = s.aon := by cases l <;> rfl
@[simp] theorem State.setLaneHg_freeCount (s : State) (l : Lane) (h : LaneHg) : (s.setLaneHg l h).freeCount = s.freeCount := by cases l <;> rfl
@[simp] theorem State.setLaneHg_sent (s : State) (l : Lane) (h : LaneHg) : (s.setLaneHg l h).sent = s.sent := by cases l <;> rfl
@[simp] theorem State.setLaneHg_pwr (s : State) (l : Lane) (h : LaneHg) : (s.setLaneHg l h).pwr = s.pwr := by cases l <;> rfl
@[simp] theorem State.setLaneHg_events (s : State) (l : Lane) (h : LaneHg) : (s.setLaneHg l h).events = s.events := by cases l <;> rfl
@[simp] theorem State.setLaneHg_nextSeq (s : State) (l : Lane) (h : LaneHg) : (s.setLaneHg l h).nextSeq = s.nextSeq := by cases l <;> rfl
@[simp] theorem State.setLaneHg_rates (s : State) (l : Lane) (h : LaneHg) : (s.setLaneHg l h).rates = s.rates := by cases l <;> rfl
@[simp] theorem State.setLaneHg_sessions (s : State) (l : Lane) (h : LaneHg) : (s.setLaneHg l h).sessions = s.sessions := by cases l <;> rfl
@[simp] theorem State.setLaneHg_usedIds (s : State) (l : Lane) (h : LaneHg) : (s.setLaneHg l h).usedIds = s.usedIds := by cases l <;> rfl
@[simp] theorem State.setLaneHg_flights (s : State) (l : Lane) (h : LaneHg) : (s.setLaneHg l h).flights = s.flights := by cases l <;> rfl
@[simp] theorem State.setLaneHg_dying (s : State) (l : Lane) (h : LaneHg) : (s.setLaneHg l h).dying = s.dying := by cases l <;> rfl
@[simp] theorem State.setLaneHg_points (s : State) (l : Lane) (h : LaneHg) : (s.setLaneHg l h).points = s.points := by cases l <;> rfl
@[simp] theorem State.setLaneHg_nodeGen (s : State) (l : Lane) (h : LaneHg) : (s.setLaneHg l h).nodeGen = s.nodeGen := by cases l <;> rfl
@[simp] theorem State.setLaneHg_groupGen (s : State) (l : Lane) (h : LaneHg) : (s.setLaneHg l h).groupGen = s.groupGen := by cases l <;> rfl
@[simp] theorem State.setLaneHg_groupOwner (s : State) (l : Lane) (h : LaneHg) : (s.setLaneHg l h).groupOwner = s.groupOwner := by cases l <;> rfl
@[simp] theorem State.setLaneHg_forces (s : State) (l : Lane) (h : LaneHg) : (s.setLaneHg l h).forces = s.forces := by cases l <;> rfl
@[simp] theorem State.setLaneHg_acts (s : State) (l : Lane) (h : LaneHg) : (s.setLaneHg l h).acts = s.acts := by cases l <;> rfl
@[simp] theorem State.setLaneHg_image (s : State) (l : Lane) (h : LaneHg) : (s.setLaneHg l h).image = s.image := by cases l <;> rfl
@[simp] theorem State.setLaneHg_wideLane (s : State) (l : Lane) (h : LaneHg) : (s.setLaneHg l h).wideLane = s.wideLane := by cases l <;> rfl
@[simp] theorem State.setLaneHg_committed (s : State) (l : Lane) (h : LaneHg) : (s.setLaneHg l h).committed = s.committed := by cases l <;> rfl
@[simp] theorem State.setLaneHg_progIn (s : State) (l : Lane) (h : LaneHg) : (s.setLaneHg l h).progIn = s.progIn := by cases l <;> rfl
@[simp] theorem State.setLaneHg_inBuf (s : State) (l : Lane) (h : LaneHg) : (s.setLaneHg l h).inBuf = s.inBuf := by cases l <;> rfl
@[simp] theorem State.setLaneHg_tickNo (s : State) (l : Lane) (h : LaneHg) : (s.setLaneHg l h).tickNo = s.tickNo := by cases l <;> rfl
@[simp] theorem State.setLaneHg_base (s : State) (l : Lane) (h : LaneHg) : (s.setLaneHg l h).base = s.base := by cases l <;> rfl
@[simp] theorem State.setLaneHg_tickAt (s : State) (l : Lane) (h : LaneHg) : (s.setLaneHg l h).tickAt = s.tickAt := by cases l <;> rfl
@[simp] theorem State.setLaneHg_applyAt (s : State) (l : Lane) (h : LaneHg) : (s.setLaneHg l h).applyAt = s.applyAt := by cases l <;> rfl
@[simp] theorem State.setLaneHg_doms (s : State) (l : Lane) (h : LaneHg) : (s.setLaneHg l h).doms = s.doms := by cases l <;> rfl
@[simp] theorem State.setLaneHg_responder (s : State) (l : Lane) (h : LaneHg) : (s.setLaneHg l h).responder = s.responder := by cases l <;> rfl
@[simp] theorem State.setLaneHg_laneA (s : State) (l : Lane) (h : LaneHg) : (s.setLaneHg l h).laneA = s.laneA := by cases l <;> rfl
@[simp] theorem State.setLaneHg_laneB (s : State) (l : Lane) (h : LaneHg) : (s.setLaneHg l h).laneB = s.laneB := by cases l <;> rfl
@[simp] theorem State.setLaneHg_updatePending (s : State) (l : Lane) (h : LaneHg) : (s.setLaneHg l h).updatePending = s.updatePending := by cases l <;> rfl
@[simp] theorem State.setLaneHg_keyQ (s : State) (l : Lane) (h : LaneHg) : (s.setLaneHg l h).keyQ = s.keyQ := by cases l <;> rfl
@[simp] theorem State.setLaneHg_keys (s : State) (l : Lane) (h : LaneHg) : (s.setLaneHg l h).keys = s.keys := by cases l <;> rfl
@[simp] theorem State.setLaneHg_dbLen (s : State) (l : Lane) (h : LaneHg) : (s.setLaneHg l h).dbLen = s.dbLen := by cases l <;> rfl
@[simp] theorem State.setLaneHg_dbReqLen (s : State) (l : Lane) (h : LaneHg) : (s.setLaneHg l h).dbReqLen = s.dbReqLen := by cases l <;> rfl
@[simp] theorem State.setLaneHg_dbReply (s : State) (l : Lane) (h : LaneHg) : (s.setLaneHg l h).dbReply = s.dbReply := by cases l <;> rfl
@[simp] theorem State.setLaneHg_backDone (s : State) (l : Lane) (h : LaneHg) : (s.setLaneHg l h).backDone = s.backDone := by cases l <;> rfl
@[simp] theorem State.setLaneHg_ports (s : State) (l : Lane) (h : LaneHg) : (s.setLaneHg l h).ports = s.ports := by cases l <;> rfl
@[simp] theorem State.setLaneHg_alloc (s : State) (l : Lane) (h : LaneHg) : (s.setLaneHg l h).alloc = s.alloc := by cases l <;> rfl
@[simp] theorem State.setLaneHg_nodeGroups (s : State) (l : Lane) (h : LaneHg) : (s.setLaneHg l h).nodeGroups = s.nodeGroups := by cases l <;> rfl
@[simp] theorem State.setLaneHg_eth (s : State) (l : Lane) (h : LaneHg) : (s.setLaneHg l h).eth = s.eth := by cases l <;> rfl
@[simp] theorem State.setLaneHg_rtc (s : State) (l : Lane) (h : LaneHg) : (s.setLaneHg l h).rtc = s.rtc := by cases l <;> rfl
@[simp] theorem State.setLaneHg_tickDue (s : State) (l : Lane) (h : LaneHg) : (s.setLaneHg l h).tickDue = s.tickDue := by cases l <;> rfl
@[simp] theorem State.setLaneHg_retSet (s : State) (l : Lane) (h : LaneHg) : (s.setLaneHg l h).retSet = s.retSet := by cases l <;> rfl
@[simp] theorem State.setLaneHg_retSetAt (s : State) (l : Lane) (h : LaneHg) : (s.setLaneHg l h).retSetAt = s.retSetAt := by cases l <;> rfl
@[simp] theorem State.setLaneHg_mapOuts (s : State) (l : Lane) (h : LaneHg) : (s.setLaneHg l h).mapOuts = s.mapOuts := by cases l <;> rfl
@[simp] theorem State.setLaneHg_aio (s : State) (l : Lane) (h : LaneHg) : (s.setLaneHg l h).aio = s.aio := by cases l <;> rfl
@[simp] theorem State.setLaneHg_can (s : State) (l : Lane) (h : LaneHg) : (s.setLaneHg l h).can = s.can := by cases l <;> rfl
@[simp] theorem State.setLaneHg_relActs (s : State) (l : Lane) (h : LaneHg) : (s.setLaneHg l h).relActs = s.relActs := by cases l <;> rfl
@[simp] theorem State.setLaneHg_schedBad (s : State) (l : Lane) (h : LaneHg) : (s.setLaneHg l h).schedBad = s.schedBad := by cases l <;> rfl
@[simp] theorem State.setLaneHg_mtr (s : State) (l : Lane) (h : LaneHg) : (s.setLaneHg l h).mtr = s.mtr := by cases l <;> rfl
@[simp] theorem State.setLaneHg_energy (s : State) (l : Lane) (h : LaneHg) : (s.setLaneHg l h).energy = s.energy := by cases l <;> rfl
@[simp] theorem State.setLaneHg_energySave (s : State) (l : Lane) (h : LaneHg) : (s.setLaneHg l h).energySave = s.energySave := by cases l <;> rfl
@[simp] theorem State.setLaneHg_portMtr (s : State) (l : Lane) (h : LaneHg) : (s.setLaneHg l h).portMtr = s.portMtr := by cases l <;> rfl
@[simp] theorem State.setLaneHg_pulses (s : State) (l : Lane) (h : LaneHg) : (s.setLaneHg l h).pulses = s.pulses := by cases l <;> rfl
@[simp] theorem State.setLaneHg_upd (s : State) (l : Lane) (h : LaneHg) : (s.setLaneHg l h).upd = s.upd := by cases l <;> rfl
@[simp] theorem State.setLaneHg_flow (s : State) (l : Lane) (h : LaneHg) : (s.setLaneHg l h).flow = s.flow := by cases l <;> rfl
@[simp] theorem State.setLaneHg_snap (s : State) (l : Lane) (h : LaneHg) : (s.setLaneHg l h).snap = s.snap := by cases l <;> rfl
@[simp] theorem State.setLaneHg_rl (s : State) (l : Lane) (h : LaneHg) : (s.setLaneHg l h).rl = s.rl := by cases l <;> rfl
@[simp] theorem State.setLaneHg_oldRoles (s : State) (l : Lane) (h : LaneHg) : (s.setLaneHg l h).oldRoles = s.oldRoles := by cases l <;> rfl
@[simp] theorem State.setLaneHg_tickLog (s : State) (l : Lane) (h : LaneHg) : (s.setLaneHg l h).tickLog = s.tickLog := by cases l <;> rfl
@[simp] theorem State.setLaneHg_hidden (s : State) (l : Lane) (h : LaneHg) : (s.setLaneHg l h).hidden = s.hidden := by cases l <;> rfl
@[simp] theorem State.setLaneHg_cellFaults (s : State) (l : Lane) (h : LaneHg) : (s.setLaneHg l h).cellFaults = s.cellFaults := by cases l <;> rfl

@[simp] theorem State.setLane_pending (s : State) (l : Lane) (x : LaneSt) : (s.setLane l x).pending = s.pending := by cases l <;> rfl
@[simp] theorem State.setLane_regs (s : State) (l : Lane) (x : LaneSt) : (s.setLane l x).regs = s.regs := by cases l <;> rfl
@[simp] theorem State.setLane_mem (s : State) (l : Lane) (x : LaneSt) : (s.setLane l x).mem = s.mem := by cases l <;> rfl
@[simp] theorem State.setLane_mode (s : State) (l : Lane) (x : LaneSt) : (s.setLane l x).mode = s.mode := by cases l <;> rfl
@[simp] theorem State.setLane_now (s : State) (l : Lane) (x : LaneSt) : (s.setLane l x).now = s.now := by cases l <;> rfl
@[simp] theorem State.setLane_aon (s : State) (l : Lane) (x : LaneSt) : (s.setLane l x).aon = s.aon := by cases l <;> rfl
@[simp] theorem State.setLane_freeCount (s : State) (l : Lane) (x : LaneSt) : (s.setLane l x).freeCount = s.freeCount := by cases l <;> rfl
@[simp] theorem State.setLane_sent (s : State) (l : Lane) (x : LaneSt) : (s.setLane l x).sent = s.sent := by cases l <;> rfl
@[simp] theorem State.setLane_pwr (s : State) (l : Lane) (x : LaneSt) : (s.setLane l x).pwr = s.pwr := by cases l <;> rfl
@[simp] theorem State.setLane_events (s : State) (l : Lane) (x : LaneSt) : (s.setLane l x).events = s.events := by cases l <;> rfl
@[simp] theorem State.setLane_nextSeq (s : State) (l : Lane) (x : LaneSt) : (s.setLane l x).nextSeq = s.nextSeq := by cases l <;> rfl
@[simp] theorem State.setLane_rates (s : State) (l : Lane) (x : LaneSt) : (s.setLane l x).rates = s.rates := by cases l <;> rfl
@[simp] theorem State.setLane_sessions (s : State) (l : Lane) (x : LaneSt) : (s.setLane l x).sessions = s.sessions := by cases l <;> rfl
@[simp] theorem State.setLane_usedIds (s : State) (l : Lane) (x : LaneSt) : (s.setLane l x).usedIds = s.usedIds := by cases l <;> rfl
@[simp] theorem State.setLane_flights (s : State) (l : Lane) (x : LaneSt) : (s.setLane l x).flights = s.flights := by cases l <;> rfl
@[simp] theorem State.setLane_dying (s : State) (l : Lane) (x : LaneSt) : (s.setLane l x).dying = s.dying := by cases l <;> rfl
@[simp] theorem State.setLane_points (s : State) (l : Lane) (x : LaneSt) : (s.setLane l x).points = s.points := by cases l <;> rfl
@[simp] theorem State.setLane_nodeGen (s : State) (l : Lane) (x : LaneSt) : (s.setLane l x).nodeGen = s.nodeGen := by cases l <;> rfl
@[simp] theorem State.setLane_groupGen (s : State) (l : Lane) (x : LaneSt) : (s.setLane l x).groupGen = s.groupGen := by cases l <;> rfl
@[simp] theorem State.setLane_groupOwner (s : State) (l : Lane) (x : LaneSt) : (s.setLane l x).groupOwner = s.groupOwner := by cases l <;> rfl
@[simp] theorem State.setLane_forces (s : State) (l : Lane) (x : LaneSt) : (s.setLane l x).forces = s.forces := by cases l <;> rfl
@[simp] theorem State.setLane_acts (s : State) (l : Lane) (x : LaneSt) : (s.setLane l x).acts = s.acts := by cases l <;> rfl
@[simp] theorem State.setLane_image (s : State) (l : Lane) (x : LaneSt) : (s.setLane l x).image = s.image := by cases l <;> rfl
@[simp] theorem State.setLane_wideLane (s : State) (l : Lane) (x : LaneSt) : (s.setLane l x).wideLane = s.wideLane := by cases l <;> rfl
@[simp] theorem State.setLane_committed (s : State) (l : Lane) (x : LaneSt) : (s.setLane l x).committed = s.committed := by cases l <;> rfl
@[simp] theorem State.setLane_progIn (s : State) (l : Lane) (x : LaneSt) : (s.setLane l x).progIn = s.progIn := by cases l <;> rfl
@[simp] theorem State.setLane_inBuf (s : State) (l : Lane) (x : LaneSt) : (s.setLane l x).inBuf = s.inBuf := by cases l <;> rfl
@[simp] theorem State.setLane_tickNo (s : State) (l : Lane) (x : LaneSt) : (s.setLane l x).tickNo = s.tickNo := by cases l <;> rfl
@[simp] theorem State.setLane_base (s : State) (l : Lane) (x : LaneSt) : (s.setLane l x).base = s.base := by cases l <;> rfl
@[simp] theorem State.setLane_tickAt (s : State) (l : Lane) (x : LaneSt) : (s.setLane l x).tickAt = s.tickAt := by cases l <;> rfl
@[simp] theorem State.setLane_applyAt (s : State) (l : Lane) (x : LaneSt) : (s.setLane l x).applyAt = s.applyAt := by cases l <;> rfl
@[simp] theorem State.setLane_hg (s : State) (l : Lane) (x : LaneSt) : (s.setLane l x).hg = s.hg := by cases l <;> rfl
@[simp] theorem State.setLane_doms (s : State) (l : Lane) (x : LaneSt) : (s.setLane l x).doms = s.doms := by cases l <;> rfl
@[simp] theorem State.setLane_responder (s : State) (l : Lane) (x : LaneSt) : (s.setLane l x).responder = s.responder := by cases l <;> rfl
@[simp] theorem State.setLane_updatePending (s : State) (l : Lane) (x : LaneSt) : (s.setLane l x).updatePending = s.updatePending := by cases l <;> rfl
@[simp] theorem State.setLane_keyQ (s : State) (l : Lane) (x : LaneSt) : (s.setLane l x).keyQ = s.keyQ := by cases l <;> rfl
@[simp] theorem State.setLane_keys (s : State) (l : Lane) (x : LaneSt) : (s.setLane l x).keys = s.keys := by cases l <;> rfl
@[simp] theorem State.setLane_dbLen (s : State) (l : Lane) (x : LaneSt) : (s.setLane l x).dbLen = s.dbLen := by cases l <;> rfl
@[simp] theorem State.setLane_dbReqLen (s : State) (l : Lane) (x : LaneSt) : (s.setLane l x).dbReqLen = s.dbReqLen := by cases l <;> rfl
@[simp] theorem State.setLane_dbReply (s : State) (l : Lane) (x : LaneSt) : (s.setLane l x).dbReply = s.dbReply := by cases l <;> rfl
@[simp] theorem State.setLane_backDone (s : State) (l : Lane) (x : LaneSt) : (s.setLane l x).backDone = s.backDone := by cases l <;> rfl
@[simp] theorem State.setLane_ports (s : State) (l : Lane) (x : LaneSt) : (s.setLane l x).ports = s.ports := by cases l <;> rfl
@[simp] theorem State.setLane_alloc (s : State) (l : Lane) (x : LaneSt) : (s.setLane l x).alloc = s.alloc := by cases l <;> rfl
@[simp] theorem State.setLane_nodeGroups (s : State) (l : Lane) (x : LaneSt) : (s.setLane l x).nodeGroups = s.nodeGroups := by cases l <;> rfl
@[simp] theorem State.setLane_eth (s : State) (l : Lane) (x : LaneSt) : (s.setLane l x).eth = s.eth := by cases l <;> rfl
@[simp] theorem State.setLane_rtc (s : State) (l : Lane) (x : LaneSt) : (s.setLane l x).rtc = s.rtc := by cases l <;> rfl
@[simp] theorem State.setLane_tickDue (s : State) (l : Lane) (x : LaneSt) : (s.setLane l x).tickDue = s.tickDue := by cases l <;> rfl
@[simp] theorem State.setLane_retSet (s : State) (l : Lane) (x : LaneSt) : (s.setLane l x).retSet = s.retSet := by cases l <;> rfl
@[simp] theorem State.setLane_retSetAt (s : State) (l : Lane) (x : LaneSt) : (s.setLane l x).retSetAt = s.retSetAt := by cases l <;> rfl
@[simp] theorem State.setLane_mapOuts (s : State) (l : Lane) (x : LaneSt) : (s.setLane l x).mapOuts = s.mapOuts := by cases l <;> rfl
@[simp] theorem State.setLane_aio (s : State) (l : Lane) (x : LaneSt) : (s.setLane l x).aio = s.aio := by cases l <;> rfl
@[simp] theorem State.setLane_can (s : State) (l : Lane) (x : LaneSt) : (s.setLane l x).can = s.can := by cases l <;> rfl
@[simp] theorem State.setLane_relActs (s : State) (l : Lane) (x : LaneSt) : (s.setLane l x).relActs = s.relActs := by cases l <;> rfl
@[simp] theorem State.setLane_schedBad (s : State) (l : Lane) (x : LaneSt) : (s.setLane l x).schedBad = s.schedBad := by cases l <;> rfl
@[simp] theorem State.setLane_mtr (s : State) (l : Lane) (x : LaneSt) : (s.setLane l x).mtr = s.mtr := by cases l <;> rfl
@[simp] theorem State.setLane_energy (s : State) (l : Lane) (x : LaneSt) : (s.setLane l x).energy = s.energy := by cases l <;> rfl
@[simp] theorem State.setLane_energySave (s : State) (l : Lane) (x : LaneSt) : (s.setLane l x).energySave = s.energySave := by cases l <;> rfl
@[simp] theorem State.setLane_portMtr (s : State) (l : Lane) (x : LaneSt) : (s.setLane l x).portMtr = s.portMtr := by cases l <;> rfl
@[simp] theorem State.setLane_pulses (s : State) (l : Lane) (x : LaneSt) : (s.setLane l x).pulses = s.pulses := by cases l <;> rfl
@[simp] theorem State.setLane_upd (s : State) (l : Lane) (x : LaneSt) : (s.setLane l x).upd = s.upd := by cases l <;> rfl
@[simp] theorem State.setLane_flow (s : State) (l : Lane) (x : LaneSt) : (s.setLane l x).flow = s.flow := by cases l <;> rfl
@[simp] theorem State.setLane_snap (s : State) (l : Lane) (x : LaneSt) : (s.setLane l x).snap = s.snap := by cases l <;> rfl
@[simp] theorem State.setLane_rl (s : State) (l : Lane) (x : LaneSt) : (s.setLane l x).rl = s.rl := by cases l <;> rfl
@[simp] theorem State.setLane_oldRoles (s : State) (l : Lane) (x : LaneSt) : (s.setLane l x).oldRoles = s.oldRoles := by cases l <;> rfl
@[simp] theorem State.setLane_tickLog (s : State) (l : Lane) (x : LaneSt) : (s.setLane l x).tickLog = s.tickLog := by cases l <;> rfl
@[simp] theorem State.setLane_hidden (s : State) (l : Lane) (x : LaneSt) : (s.setLane l x).hidden = s.hidden := by cases l <;> rfl
@[simp] theorem State.setLane_cellFaults (s : State) (l : Lane) (x : LaneSt) : (s.setLane l x).cellFaults = s.cellFaults := by cases l <;> rfl

end Sys2Proof.Machine
end

