-- ==== Sys2Proof/Laws/Tab.lean ====
section
/-! SUPPORT. Reading after writing a sparse table, its canonical form, and bit fields of a number. -/

namespace Sys2Proof.Machine

variable {α : Type}

theorem tabGet_insert_same (d : Nat → α) (t : Tab α) (k : Nat) (v : α) (h : ∀ e ∈ t, e.1 ≠ k) :
    tabGet d (tabInsert k v t) k = v := by
  induction t with
  | nil => simp [tabInsert, tabGet]
  | cons e t ih =>
    obtain ⟨k', v'⟩ := e
    have hk : k' ≠ k := h (k', v') (by simp)
    by_cases hl : k < k'
    · simp [tabInsert, hl, tabGet]
    · simp [tabInsert, hl, tabGet, Ne.symm hk]
      exact ih (fun e he => h e (by simp [he]))

theorem tabGet_insert_other (d : Nat → α) (t : Tab α) (k j : Nat) (v : α) (h : j ≠ k) :
    tabGet d (tabInsert k v t) j = tabGet d t j := by
  induction t with
  | nil => simp [tabInsert, tabGet, h]
  | cons e t ih =>
    obtain ⟨k', v'⟩ := e
    by_cases hl : k < k'
    · simp [tabInsert, hl, tabGet, h]
    · simp only [tabInsert, hl, if_false, tabGet]; rw [ih]

/-- A dropped key reads as an unlisted one; every other key reads as before. -/
theorem tabGet_drop (d : Nat → α) (p : Nat → Bool) (t : Tab α) (k : Nat) :
    tabGet d (tabDrop p t) k = if p k then d k else tabGet d t k := by
  induction t with
  | nil => simp [tabDrop, tabGet]
  | cons e t ih =>
    obtain ⟨k', v'⟩ := e
    simp only [tabDrop] at ih ⊢
    by_cases hp : p k' = true
    · by_cases hk : k = k'
      · subst hk; simp [List.filter, hp, ih]
      · simp [List.filter, hp, ih, tabGet, hk]
    · by_cases hk : k = k'
      · subst hk; simp [List.filter, hp, tabGet]
      · simp [List.filter, hp, ih, tabGet, hk]

variable [DecidableEq α]

/-- A key reads what was last written to it. -/
@[simp] theorem tabGet_set_same (d : Nat → α) (t : Tab α) (k : Nat) (v : α) : tabGet d (tabSet d t k v) k = v := by
  unfold tabSet
  split
  · rename_i h; simp [tabGet_drop, h]
  · exact tabGet_insert_same d _ k v (fun e he => by simp [tabDrop] at he; exact he.2)

/-- A write leaves every other key alone. -/
theorem tabGet_set_other (d : Nat → α) (t : Tab α) (k j : Nat) (v : α) (h : j ≠ k) :
    tabGet d (tabSet d t k v) j = tabGet d t j := by
  unfold tabSet
  split
  · simp [tabGet_drop, h]
  · rw [tabGet_insert_other d _ k j v h]; simp [tabGet_drop, h]

theorem tabGet_set (d : Nat → α) (t : Tab α) (k j : Nat) (v : α) :
    tabGet d (tabSet d t k v) j = if j = k then v else tabGet d t j := by
  split
  · rename_i h; subst h; simp
  · exact tabGet_set_other d t k j v ‹_›

omit [DecidableEq α] in
/-- Every key of a table sorted above `lo` is above `lo`. -/
theorem tabSorted_lt {lo : Nat} {t : Tab α} (h : tabSorted (some lo) t = true) : ∀ e ∈ t, lo < e.1 := by
  induction t generalizing lo with
  | nil => simp
  | cons e t ih =>
    obtain ⟨k, v⟩ := e
    simp only [tabSorted, Bool.and_eq_true, decide_eq_true_eq] at h
    intro e he
    rcases List.mem_cons.1 he with rfl | he
    · exact h.1
    · exact lt_trans h.1 (ih h.2 e he)

omit [DecidableEq α] in
theorem tabSorted_mono {lo : Option Nat} {k : Nat} {t : Tab α} (h : tabSorted (some k) t = true)
    (hl : ∀ l, lo = some l → l ≤ k) : tabSorted lo t = true := by
  cases t with
  | nil => cases lo <;> rfl
  | cons e t =>
    obtain ⟨k', v⟩ := e
    cases lo with
    | none => simp only [tabSorted, Bool.and_eq_true] at h ⊢; exact h.2
    | some l =>
      have := hl l rfl
      simp only [tabSorted, Bool.and_eq_true, decide_eq_true_eq] at h ⊢
      exact ⟨by omega, h.2⟩

omit [DecidableEq α] in
theorem tabSorted_filter {lo : Option Nat} {t : Tab α} (p : Nat × α → Bool) (h : tabSorted lo t = true) :
    tabSorted lo (t.filter p) = true := by
  induction t generalizing lo with
  | nil => simpa using h
  | cons e t ih =>
    obtain ⟨k, v⟩ := e
    have h2 : tabSorted (some k) t = true := by
      cases lo <;> simp only [tabSorted, Bool.and_eq_true] at h
      · exact h
      · exact h.2
    by_cases hp : p (k, v) = true
    · rw [List.filter_cons_of_pos hp]
      cases lo with
      | none => exact ih h2
      | some l =>
        simp only [tabSorted, Bool.and_eq_true, decide_eq_true_eq] at h ⊢
        exact ⟨h.1, ih h2⟩
    · rw [List.filter_cons_of_neg hp]
      refine tabSorted_mono (ih h2) ?_
      rintro l rfl
      simp only [tabSorted, Bool.and_eq_true, decide_eq_true_eq] at h
      omega

omit [DecidableEq α] in
theorem tabSorted_insert {lo : Option Nat} {t : Tab α} (k : Nat) (v : α) (h : tabSorted lo t = true)
    (hl : ∀ l, lo = some l → l < k) (hk : ∀ e ∈ t, e.1 ≠ k) : tabSorted lo (tabInsert k v t) = true := by
  induction t generalizing lo with
  | nil => cases lo <;> simp [tabInsert, tabSorted]; exact hl _ rfl
  | cons e t ih =>
    obtain ⟨k', v'⟩ := e
    have hne : k' ≠ k := hk (k', v') (by simp)
    have h2 : tabSorted (some k') t = true := by
      cases lo <;> simp only [tabSorted, Bool.and_eq_true] at h
      · exact h
      · exact h.2
    by_cases hlt : k < k'
    · cases lo with
      | none => simp [tabInsert, hlt, tabSorted, h2]
      | some l => simp [tabInsert, hlt, tabSorted, h2, hl l rfl]
    · have := ih (lo := some k') h2 (fun l hl => by cases hl; omega) (fun e he => hk e (by simp [he]))
      cases lo with
      | none => simpa [tabInsert, hlt, tabSorted] using this
      | some l =>
        simp only [tabSorted, Bool.and_eq_true, decide_eq_true_eq] at h
        simp [tabInsert, hlt, tabSorted, h.1, this]

/-- Dropping keys keeps the canonical form. -/
theorem tabWf_filter (d : Nat → α) (t : Tab α) (p : Nat × α → Bool) (h : tabWf d t = true) : tabWf d (t.filter p) = true := by
  simp only [tabWf, Bool.and_eq_true, List.all_eq_true] at h ⊢
  exact ⟨tabSorted_filter p h.1, fun e he => h.2 e (List.mem_filter.1 he).1⟩

omit [DecidableEq α] in
theorem mem_tabInsert {t : Tab α} {k : Nat} {v : α} {e : Nat × α} (h : e ∈ tabInsert k v t) : e = (k, v) ∨ e ∈ t := by
  induction t with
  | nil => simpa [tabInsert] using h
  | cons x t ih =>
    obtain ⟨k', v'⟩ := x
    by_cases hl : k < k'
    · simpa [tabInsert, hl] using h
    · simp only [tabInsert, hl, if_false, List.mem_cons] at h ⊢
      rcases h with h | h
      · exact .inr (.inl h)
      · rcases ih h with h | h
        · exact .inl h
        · exact .inr (.inr h)

/-- A write keeps the canonical form. -/
theorem tabWf_set (d : Nat → α) (t : Tab α) (k : Nat) (v : α) (h : tabWf d t = true) : tabWf d (tabSet d t k v) = true := by
  have hd : tabWf d (tabDrop (fun x => x == k) t) = true := tabWf_filter d t _ h
  unfold tabSet
  split
  · exact hd
  · rename_i hv
    simp only [tabWf, Bool.and_eq_true, List.all_eq_true] at hd ⊢
    refine ⟨tabSorted_insert k v hd.1 (by simp) (fun e he => by simp [tabDrop] at he; exact he.2), fun e he => ?_⟩
    rcases mem_tabInsert he with rfl | he
    · simp [hv]
    · exact hd.2 e he

/-! ### Numbers in fields -/

/-- A field reads what was last written to it, reduced to its width. -/
theorem fieldGet_put_same (x lo w v : Nat) : fieldGet (fieldPut x lo w v) lo w = v % 2 ^ w := by
  unfold fieldGet fieldPut
  have h1 : x % 2 ^ lo < 2 ^ lo := Nat.mod_lt _ (by positivity)
  have : x % 2 ^ lo + 2 ^ lo * (v % 2 ^ w) + 2 ^ (lo + w) * (x / 2 ^ (lo + w)) =
      x % 2 ^ lo + 2 ^ lo * (v % 2 ^ w + 2 ^ w * (x / 2 ^ (lo + w))) := by rw [pow_add]; ring
  rw [this, Nat.add_mul_div_left _ _ (by positivity), Nat.div_eq_of_lt h1, Nat.zero_add, Nat.add_mul_mod_self_left,
    Nat.mod_mod]

theorem fieldPut_testBit (x lo w v i : Nat) :
    (fieldPut x lo w v).testBit i = if lo ≤ i ∧ i < lo + w then v.testBit (i - lo) else x.testBit i := by
  unfold fieldPut
  have h1 : x % 2 ^ lo < 2 ^ lo := Nat.mod_lt _ (by positivity)
  have h2 : v % 2 ^ w < 2 ^ w := Nat.mod_lt _ (by positivity)
  have e : x % 2 ^ lo + 2 ^ lo * (v % 2 ^ w) + 2 ^ (lo + w) * (x / 2 ^ (lo + w)) =
      2 ^ lo * (2 ^ w * (x / 2 ^ (lo + w)) + v % 2 ^ w) + x % 2 ^ lo := by rw [pow_add]; ring
  rw [e, Nat.testBit_two_pow_mul_add _ h1]
  by_cases hi : i < lo
  · have : ¬ (lo ≤ i ∧ i < lo + w) := by omega
    simp [hi, this, Nat.testBit_mod_two_pow]
  · rw [if_neg hi, Nat.testBit_two_pow_mul_add _ h2]
    by_cases hw : i - lo < w
    · have : lo ≤ i ∧ i < lo + w := by omega
      simp [hw, this, Nat.testBit_mod_two_pow]
    · have h3 : ¬ (lo ≤ i ∧ i < lo + w) := by omega
      rw [if_neg hw, if_neg h3, Nat.testBit_div_two_pow]
      congr 1; omega

theorem fieldGet_testBit (x lo w i : Nat) : (fieldGet x lo w).testBit i = (decide (i < w) && x.testBit (i + lo)) := by
  simp [fieldGet, Nat.testBit_mod_two_pow, Nat.testBit_div_two_pow]

/-- Fields without a common bit do not disturb each other. -/
theorem fieldGet_put_other (x lo w v lo' w' : Nat) (h : lo' + w' ≤ lo ∨ lo + w ≤ lo') :
    fieldGet (fieldPut x lo w v) lo' w' = fieldGet x lo' w' := by
  apply Nat.eq_of_testBit_eq
  intro i
  simp only [fieldGet_testBit, fieldPut_testBit]
  by_cases hi : i < w'
  · have : ¬ (lo ≤ i + lo' ∧ i + lo' < lo + w) := by omega
    simp [hi, this]
  · simp [hi]

theorem fieldPut_lt (x lo w v n : Nat) (hx : x < 2 ^ n) (h : lo + w ≤ n) : fieldPut x lo w v < 2 ^ n := by
  apply Nat.lt_pow_two_of_testBit
  intro i hi
  rw [fieldPut_testBit, if_neg (by omega)]
  exact Nat.testBit_lt_two_pow (lt_of_lt_of_le hx (Nat.pow_le_pow_right (by norm_num) hi))

theorem fieldGet_lt (x lo w : Nat) : fieldGet x lo w < 2 ^ w := Nat.mod_lt _ (by positivity)

end Sys2Proof.Machine
end

