-- ==== Sys2Proof/Laws/Ops.lean ====
section
/-! SUPPORT. What the shared operations do: registers and fields, memories, the event queue, and serving a request. -/

namespace Sys2Proof.Machine
open Sys2Proof

/-! ### Registers and fields -/

theorem State.rd_wr (s : State) (k j : Nat) (v : Word) : (s.wr k v).rd j = if j = k then v else s.rd j :=
  tabGet_set regReset s.regs k j v

@[simp] theorem State.rd_wr_same (s : State) (k : Nat) (v : Word) : (s.wr k v).rd k = v := by simp [State.rd_wr]

theorem State.rd_wr_other (s : State) (k j : Nat) (v : Word) (h : j ≠ k) : (s.wr k v).rd j = s.rd j := by simp [State.rd_wr, h]

/-- A write of a field leaves every other register alone. -/
theorem State.rd_fset_other (s : State) (b : Nat) (f : Fld) (v j : Nat) (h : j ≠ b + f.off) : (s.fset b f v).rd j = s.rd j :=
  s.rd_wr_other _ _ _ h

/-- The number a field's register holds after the field is written. -/
theorem State.rd_fset_same (s : State) (b : Nat) (f : Fld) (v : Nat) (hf : f.lo + f.width ≤ 32) :
    ((s.fset b f v).rd (b + f.off)).toNat = fieldPut (s.rd (b + f.off)).toNat f.lo f.width v := by
  simp only [State.fset, State.rd_wr_same, BitVec.toNat_ofNat]
  exact Nat.mod_eq_of_lt (fieldPut_lt _ _ _ _ 32 (s.rd (b + f.off)).isLt hf)

/-- A field reads what was last written to it. -/
theorem State.fget_fset_same (s : State) (b : Nat) (f : Fld) (v : Nat) (hf : f.lo + f.width ≤ 32) :
    (s.fset b f v).fget b f = v % 2 ^ f.width := by
  unfold State.fget
  rw [s.rd_fset_same b f v hf, fieldGet_put_same]

/-- A write of a field leaves every field without a common bit alone. -/
theorem State.fget_fset_other (s : State) (b c : Nat) (f g : Fld) (v : Nat)
    (h : c + g.off ≠ b + f.off ∨ (f.lo + f.width ≤ 32 ∧ (g.lo + g.width ≤ f.lo ∨ f.lo + f.width ≤ g.lo))) :
    (s.fset b f v).fget c g = s.fget c g := by
  unfold State.fget
  by_cases he : c + g.off = b + f.off
  · rw [he]
    rcases h with h | ⟨hf, h⟩
    · exact absurd he h
    · rw [s.rd_fset_same b f v hf, fieldGet_put_other _ _ _ _ _ _ h]
  · rw [s.rd_fset_other b f v _ he]

theorem State.fget_lt (s : State) (b : Nat) (f : Fld) : s.fget b f < 2 ^ f.width := fieldGet_lt _ _ _

/-- A write of a whole register leaves the fields of every other register alone. -/
theorem State.fget_wr_other (s : State) (k : Nat) (v : Word) (c : Nat) (g : Fld) (h : c + g.off ≠ k) :
    (s.wr k v).fget c g = s.fget c g := by
  unfold State.fget
  rw [s.rd_wr_other k _ v h]

/-- Reading a field needs the registers only. -/
theorem State.fget_regs (s t : State) (c : Nat) (g : Fld) (h : t.regs = s.regs) : t.fget c g = s.fget c g := by
  unfold State.fget State.rd
  rw [h]

theorem State.rd_regs (s t : State) (k : Nat) (h : t.regs = s.regs) : t.rd k = s.rd k := by
  unfold State.rd
  rw [h]

/-! ### Memories -/

theorem State.mget_mset (s : State) (k j : Nat) (v : Byte) : (s.mset k v).mget j = if j = k then v else s.mget j :=
  tabGet_set memDefault s.mem k j v

/-- A byte reads what was last written to it. -/
@[simp] theorem State.mget_mset_same (s : State) (k : Nat) (v : Byte) : (s.mset k v).mget k = v := by simp [State.mget_mset]

/-- Bytes outside a write read as before. -/
theorem State.mget_mwrite_other (s : State) (k : Nat) (vs : List Byte) (j : Nat) (h : j < k ∨ k + vs.length ≤ j) :
    (s.mwrite k vs).mget j = s.mget j := by
  induction vs generalizing s k with
  | nil => rfl
  | cons v vs ih =>
    simp only [State.mwrite, List.length_cons] at h ⊢
    rw [ih _ _ (by omega), State.mget_mset, if_neg (by omega)]

/-- Bytes of a write read as written. -/
theorem State.mget_mwrite (s : State) (k : Nat) (vs : List Byte) (i : Nat) (h : i < vs.length) :
    (s.mwrite k vs).mget (k + i) = vs[i] := by
  induction vs generalizing s k i with
  | nil => simp at h
  | cons v vs ih =>
    simp only [State.mwrite]
    cases i with
    | zero => rw [State.mget_mwrite_other _ _ _ _ (by omega), Nat.add_zero, State.mget_mset_same]; rfl
    | succ i =>
      have := ih (s.mset k v) (k + 1) i (by simpa using h)
      rw [show k + (i + 1) = k + 1 + i by omega, this]; rfl

/-- Writing a byte keeps the canonical form of the memory. -/
theorem State.mset_wf (s : State) (k : Nat) (v : Byte) (h : Memory.wf s.mem = true) : Memory.wf (s.mset k v).mem = true :=
  tabWf_set memDefault s.mem k v h

/-- Writing bytes keeps it. -/
theorem State.mwrite_wf (s : State) (k : Nat) (vs : List Byte) (h : Memory.wf s.mem = true) :
    Memory.wf (s.mwrite k vs).mem = true := by
  induction vs generalizing s k with
  | nil => exact h
  | cons v vs ih => exact ih _ _ (s.mset_wf k v h)

/-- Clearing bytes keeps it. -/
theorem State.memClear_wf (s : State) (p : Nat → Bool) (h : Memory.wf s.mem = true) : Memory.wf (s.memClear p).mem = true :=
  tabWf_filter memDefault s.mem _ h

@[simp] theorem State.mwrite_regs (s : State) (k : Nat) (vs : List Byte) : (s.mwrite k vs).regs = s.regs := by
  induction vs generalizing s k with
  | nil => rfl
  | cons v vs ih => exact ih _ _

/-! ### The event queue -/

theorem evPush_length (q : List EvEntry) (e : EvEntry) (h : q.length ≤ 1024) : (evPush q e).1.length ≤ 1024 := by
  unfold evPush
  split
  · simp; omega
  · split
    · rename_i i hi
      have hlt : i < q.length := (List.findIdx?_eq_some_iff_findIdx_eq.1 hi).1
      simp [List.length_eraseIdx, hlt]; omega
    · simp; omega

/-- One occurrence of a source changes the queue and the SEQ to come, and nothing else. -/
theorem State.evAdd_eq (s : State) (src gal : Nat) (u : Bool) (d : Nat) :
    ∃ q, (s.evAdd src gal u d).1 = s.queued q (seqAfter s.nextSeq) := by
  unfold State.evAdd
  cases s.events.find? (fun e => e.source == src && e.gallery == gal && !e.full) <;> exact ⟨_, rfl⟩

theorem State.fset_queued (s : State) (q : List EvEntry) (n b : Nat) (f : Fld) (v : Nat) :
    (s.queued q n).fset b f v = (s.fset b f v).queued q n := rfl

@[simp] theorem State.queued_queued (s : State) (q q' : List EvEntry) (n n' : Nat) :
    (s.queued q n).queued q' n' = s.queued q' n' := rfl

theorem State.evAdd_length (s : State) (src gal : Nat) (u : Bool) (d : Nat) (h : s.events.length ≤ 1024) :
    (s.evAdd src gal u d).1.events.length ≤ 1024 := by
  unfold State.evAdd
  cases he : s.events.find? (fun e => e.source == src && e.gallery == gal && !e.full) with
  | some e =>
    have hm : e ∈ s.events := List.mem_of_find?_eq_some he
    have := List.length_pos_of_mem hm
    show (s.events.erase e ++ [_]).length ≤ 1024
    rw [List.length_append, List.length_erase_of_mem hm, List.length_singleton]
    omega
  | none => exact evPush_length _ _ h

/-- One occurrence leaves its own entry last, unmarked. -/
theorem State.evAdd_last (s : State) (src gal : Nat) (u : Bool) (d : Nat) :
    ∃ q e, (s.evAdd src gal u d).1.events = q ++ [e] ∧ e.source = src ∧ e.gallery = gal ∧ e.data = d ∧
      (u = true → e.urgent = true) ∧ e.ackOwner = false ∧ e.ackOp = false ∧ ((s.evAdd src gal u d).2 = true → 1 ≤ q.length) := by
  unfold State.evAdd
  cases he : s.events.find? (fun e => e.source == src && e.gallery == gal && !e.full) with
  | some e =>
    have hp := List.find?_some he
    simp only [Bool.and_eq_true, beq_iff_eq] at hp
    exact ⟨_, _, rfl, hp.1.1, hp.1.2, rfl, fun h => by simp [h], rfl, rfl, fun h => by simp at h⟩
  | none =>
    dsimp only
    unfold evPush
    split
    · exact ⟨_, _, rfl, rfl, rfl, rfl, fun h => h, rfl, rfl, fun h => by simp at h⟩
    · split
      · exact ⟨_, _, rfl, rfl, rfl, rfl, fun h => h, rfl, rfl, fun h => by simp at h⟩
      · refine ⟨_, _, rfl, rfl, rfl, rfl, fun h => h, rfl, rfl, fun _ => ?_⟩
        simp; omega

/-- An unmarked entry of another source stays in the queue, unless it is the oldest of a full one. -/
theorem State.evAdd_mem (s : State) (src gal : Nat) (u : Bool) (d : Nat) (e : EvEntry) (hm : e ∈ s.events) (hf : e.full = false)
    (hs : e.source ≠ src ∨ e.gallery ≠ gal) (hd : e ∈ s.events.drop 1) : e ∈ (s.evAdd src gal u d).1.events := by
  unfold State.evAdd
  cases he : s.events.find? (fun e => e.source == src && e.gallery == gal && !e.full) with
  | some x =>
    have hp := List.find?_some he
    simp only [Bool.and_eq_true, beq_iff_eq] at hp
    have hne : e ≠ x := by
      rintro rfl
      rcases hs with h | h
      · exact h hp.1.1
      · exact h hp.1.2
    exact List.mem_append_left _ ((List.mem_erase_of_ne hne).2 hm)
  | none =>
    show e ∈ (evPush s.events _).1
    unfold evPush
    split
    · exact List.mem_append_left _ hm
    · split
      · rename_i i hi
        obtain ⟨hlt, hfull, -⟩ := List.findIdx?_eq_some_iff_getElem.1 hi
        refine List.mem_append_left _ ?_
        obtain ⟨j, hj, rfl⟩ := List.getElem_of_mem hm
        refine List.mem_eraseIdx_iff_getElem.2 ⟨j, hj, ?_, rfl⟩
        rintro rfl
        rw [hf] at hfull
        cases hfull
      · exact List.mem_append_left _ hd

/-- What an event does (R105). -/
theorem State.event_def (s : State) (src gal : Nat) (u : Bool) (d : Nat) :
    s.event src gal u d = if (s.evAdd src gal u d).2 = true then
      (((s.evAdd src gal u d).1.fset 0 EVT_STATUS_OVERRUN 1).evAdd 508 0 true 0).1 else (s.evAdd src gal u d).1 := by
  unfold State.event
  rfl

/-- An event changes the queue, the SEQ to come and `EVT_STATUS.OVERRUN`, and nothing else. -/
theorem State.event_eq (s : State) (src gal : Nat) (u : Bool) (d : Nat) :
    ∃ q n, s.event src gal u d = s.queued q n ∨ s.event src gal u d = (s.fset 0 EVT_STATUS_OVERRUN 1).queued q n := by
  obtain ⟨q, hq⟩ := s.evAdd_eq src gal u d
  rw [State.event_def]
  by_cases h : (s.evAdd src gal u d).2 = true
  · rw [if_pos h, hq, State.fset_queued]
    obtain ⟨q', hq'⟩ := State.evAdd_eq ((s.fset 0 EVT_STATUS_OVERRUN 1).queued q (seqAfter s.nextSeq)) 508 0 true 0
    rw [hq', State.queued_queued]
    exact ⟨_, _, .inr rfl⟩
  · rw [if_neg h, hq]
    exact ⟨_, _, .inl rfl⟩

theorem State.event_length (s : State) (src gal : Nat) (u : Bool) (d : Nat) (h : s.events.length ≤ 1024) :
    (s.event src gal u d).events.length ≤ 1024 := by
  have h1 := s.evAdd_length src gal u d h
  rw [State.event_def]
  split
  · exact State.evAdd_length _ _ _ _ _ (by rw [State.fset_events]; exact h1)
  · exact h1

/-- An event leaves every register but `EVT_STATUS` alone. -/
theorem State.rd_event (s : State) (src gal : Nat) (u : Bool) (d k : Nat) (h : k ≠ 0x40000) :
    (s.event src gal u d).rd k = s.rd k := by
  obtain ⟨q, n, he | he⟩ := s.event_eq src gal u d
  · rw [he]; exact s.rd_regs _ k (State.queued_regs s q n)
  · rw [he, (s.fset 0 EVT_STATUS_OVERRUN 1).rd_regs _ k (State.queued_regs _ q n)]
    exact s.rd_fset_other 0 EVT_STATUS_OVERRUN 1 k h

/-- An event leaves every field of every other register alone. -/
theorem State.fget_event (s : State) (src gal : Nat) (u : Bool) (d c : Nat) (g : Fld) (h : c + g.off ≠ 0x40000) :
    (s.event src gal u d).fget c g = s.fget c g := by
  unfold State.fget
  rw [s.rd_event src gal u d _ h]

end Sys2Proof.Machine
end

