-- ==== Sys2Proof/Laws/Frame.lean ====
section
/-! SUPPORT. Frames, raised events, and the requests that a lane serves. -/

namespace Sys2Proof.Safety
open Sys2Proof Sys2Proof.Machine

/-! ### Only registers change -/

theorem OnlyRegs.refl (ks : List Nat) (s : State) : OnlyRegs ks s s := ⟨fun _ _ _ => rfl, rfl⟩

theorem OnlyRegs.of_literal {ks : List Nat} {s t : State} (r : Tab Word) (q : List EvEntry) (n : Nat)
    (ht : t = { s with regs := r, events := q, nextSeq := n }) (h : ∀ k, k ∉ ks → k ≠ 0x40000 → t.rd k = s.rd k) : OnlyRegs ks s t :=
  ⟨h, by subst ht; rfl⟩

/-- A write of a field of a listed register keeps the frame. -/
theorem OnlyRegs.fset {ks : List Nat} {s t : State} (h : OnlyRegs ks s t) (b : Nat) (f : Fld) (v : Nat) (hk : b + f.off ∈ ks) :
    OnlyRegs ks s (t.fset b f v) := by
  refine OnlyRegs.of_literal (t.fset b f v).regs t.events t.nextSeq ?_ (fun k hk1 hk2 => ?_)
  · have := h.2
    generalize ht : t.fset b f v = u
    have hu : u = { t with regs := u.regs } := by subst ht; rfl
    rw [hu]
    generalize u.regs = r
    rw [this]
  · rw [State.rd_fset_other _ _ _ _ _ (fun he => hk1 (by rw [he]; exact hk))]
    exact h.1 k hk1 hk2

/-- So does a write of a listed register. -/
theorem OnlyRegs.wr {ks : List Nat} {s t : State} (h : OnlyRegs ks s t) (j : Nat) (v : Word) (hk : j ∈ ks) : OnlyRegs ks s (t.wr j v) := by
  refine OnlyRegs.of_literal (t.wr j v).regs t.events t.nextSeq ?_ (fun k hk1 hk2 => ?_)
  · have := h.2
    generalize ht : t.wr j v = u
    have hu : u = { t with regs := u.regs } := by subst ht; rfl
    rw [hu]
    generalize u.regs = r
    rw [this]
  · rw [State.rd_wr_other _ _ _ _ (fun he => hk1 (by rw [he]; exact hk))]
    exact h.1 k hk1 hk2

theorem OnlyRegs.queued {ks : List Nat} {s t : State} (h : OnlyRegs ks s t) (q : List EvEntry) (n : Nat) : OnlyRegs ks s (t.queued q n) := by
  refine OnlyRegs.of_literal t.regs q n ?_ (fun k hk1 hk2 => ?_)
  · have := h.2
    generalize ht : t.queued q n = u
    have hu : u = { t with events := q, nextSeq := n } := by subst ht; rfl
    rw [hu, this]
  · rw [State.rd_regs _ _ _ (State.queued_regs t q n)]
    exact h.1 k hk1 hk2

/-- An event keeps the frame. -/
theorem OnlyRegs.event {ks : List Nat} {s t : State} (h : OnlyRegs ks s t) (src gal : Nat) (u : Bool) (d : Nat) :
    OnlyRegs ks s (t.event src gal u d) := by
  obtain ⟨q, n, he | he⟩ := t.event_eq src gal u d
  · rw [he]; exact h.queued q n
  · rw [he]
    refine OnlyRegs.queued ?_ q n
    have h2 : OnlyRegs (0x40000 :: ks) s (t.fset 0 EVT_STATUS_OVERRUN 1) :=
      OnlyRegs.fset ⟨fun k hk => h.1 k (fun hm => hk (List.mem_cons_of_mem _ hm)), h.2⟩ 0 EVT_STATUS_OVERRUN 1 (by simp [EVT_STATUS_OVERRUN])
    exact ⟨fun k hk hn => h2.1 k (by simp [hn, hk]) hn, h2.2⟩

/-! ### Raised events -/

theorem Raised.of_events {src gal d : Nat} {u : Bool} {s t : State} (h : Raised src gal u d s) (he : t.events = s.events) : Raised src gal u d t := by
  unfold Raised at *
  rw [he]
  exact h

/-- An event leaves its entry in the queue, also when the queue overflows (R105). -/
theorem Raised.event (s : State) (src gal : Nat) (u : Bool) (d : Nat) (h : src ≠ 508) : Raised src gal u d (s.event src gal u d) := by
  obtain ⟨q, e, he, h1, h2, h3, h4, h5, h6, h7⟩ := s.evAdd_last src gal u d
  rw [State.event_def]
  split
  · rename_i hc
    refine ⟨e, ?_, h1, h2, h3, h4, h5, h6⟩
    apply State.evAdd_mem
    · rw [State.fset_events, he]; simp
    · simp [EvEntry.full, h5]
    · exact .inl (h1 ▸ h)
    · rw [State.fset_events, he, List.drop_append_of_le_length (h7 hc)]
      simp
  · exact ⟨e, by rw [he]; simp, h1, h2, h3, h4, h5, h6⟩

end Sys2Proof.Safety
end

