-- ==== Sys2Proof/Laws/Inv.lean ====
section
/-! SUPPORT. The invariant under the shared operations. -/

namespace Sys2Proof.Machine
open Sys2Proof

variable {que : List Instr}

/-- What is kept is about the queue of commands, the memory, the forces, the event queue, its SEQ and the tick alone. -/
def Kept (q p : List Instr) (m : Tab Byte) (f : List ForceEnt) (e : List EvEntry) (n k : Nat) : Prop :=
  p = q ∧ Memory.wf m = true ∧ f.length ≤ 512 ∧ e.length ≤ 1024 ∧ (1 ≤ n ∧ n < 2 ^ 32) ∧ k < 2 ^ 32

theorem inv_of_kept {s : State} (h : Kept que s.pending s.mem s.forces s.events s.nextSeq s.tickNo) : Safety.Keeps que s :=
  ⟨⟨h.2.1, h.2.2.1, h.2.2.2.1, h.2.2.2.2.1, h.2.2.2.2.2⟩, h.1⟩

theorem kept_of_inv {s : State} (h : Safety.Keeps que s) : Kept que s.pending s.mem s.forces s.events s.nextSeq s.tickNo :=
  ⟨h.pending, h.mem, h.forces, h.events, h.seq, h.tick⟩

theorem inv_of_eq {s t : State} (hp : t.pending = s.pending) (hm : t.mem = s.mem) (hf : t.forces = s.forces) (he : t.events = s.events)
    (hn : t.nextSeq = s.nextSeq) (ht : t.tickNo = s.tickNo) (h : Safety.Keeps que s) : Safety.Keeps que t :=
  ⟨⟨hm ▸ h.mem, hf ▸ h.forces, he ▸ h.events, hn ▸ h.seq, ht ▸ h.tick⟩, hp ▸ h.pending⟩

theorem inv_ite {c : Prop} [Decidable c] {a b : State} (ha : c → Safety.Keeps que a) (hb : ¬ c → Safety.Keeps que b) : Safety.Keeps que (if c then a else b) := by
  split
  · exact ha ‹_›
  · exact hb ‹_›

theorem inv_ite_fst {β : Type} {c : Prop} [Decidable c] {a b : State × β} (ha : c → Safety.Keeps que a.1) (hb : ¬ c → Safety.Keeps que b.1) :
    Safety.Keeps que (if c then a else b).1 := by
  split
  · exact ha ‹_›
  · exact hb ‹_›

theorem inv_ite_st {c : Prop} [Decidable c] {a b : Answer} (ha : c → Safety.Keeps que a.st) (hb : ¬ c → Safety.Keeps que b.st) :
    Safety.Keeps que (if c then a else b).st := by
  split
  · exact ha ‹_›
  · exact hb ‹_›

theorem inv_foldl {α : Type} {f : State → α → State} {l : List α} {s : State} (hf : ∀ s a, Safety.Keeps que s → Safety.Keeps que (f s a)) (h : Safety.Keeps que s) :
    Safety.Keeps que (l.foldl f s) := by
  induction l generalizing s with
  | nil => exact h
  | cons a l ih => exact ih (hf s a h)

/-- A fold that carries a second value beside the state. -/
theorem inv_foldl_fst {α β : Type} {f : State × β → α → State × β} {l : List α} {s : State × β}
    (hf : ∀ s a, Safety.Keeps que s.1 → Safety.Keeps que (f s a).1) (h : Safety.Keeps que s.1) : Safety.Keeps que (l.foldl f s).1 := by
  induction l generalizing s with
  | nil => exact h
  | cons a l ih => exact ih (hf s a h)

/-- Marks of queued entries may change. -/
theorem inv_marks {s t : State} (f : EvEntry → EvEntry) (hp : t.pending = s.pending) (hm : t.mem = s.mem) (hf : t.forces = s.forces)
    (he : t.events = s.events.map f) (hn : t.nextSeq = s.nextSeq) (ht : t.tickNo = s.tickNo) (h : Safety.Keeps que s) : Safety.Keeps que t :=
  ⟨⟨hm ▸ h.mem, hf ▸ h.forces, by rw [he, List.length_map]; exact h.events, hn ▸ h.seq, ht ▸ h.tick⟩, hp ▸ h.pending⟩

/-- Forces may go. -/
theorem inv_fewer {s t : State} (hp : t.pending = s.pending) (hm : t.mem = s.mem) (hf : t.forces.length ≤ s.forces.length) (he : t.events = s.events)
    (hn : t.nextSeq = s.nextSeq) (ht : t.tickNo = s.tickNo) (h : Safety.Keeps que s) : Safety.Keeps que t :=
  ⟨⟨hm ▸ h.mem, le_trans hf h.forces, he ▸ h.events, hn ▸ h.seq, ht ▸ h.tick⟩, hp ▸ h.pending⟩

theorem State.nextTick_lt (s : State) : s.nextTick < 2 ^ 32 := Nat.mod_lt _ (by norm_num)

theorem kept_fewer {s : State} (p : ForceEnt → Bool) (h : Safety.Keeps que s) :
    Kept que s.pending s.mem (s.forces.filter p) s.events s.nextSeq s.tickNo :=
  ⟨h.pending, h.mem, le_trans (List.length_filter_le _ _) h.forces, h.events, h.seq, h.tick⟩

theorem kept_marks {s : State} (f : EvEntry → EvEntry) (h : Safety.Keeps que s) :
    Kept que s.pending s.mem s.forces (s.events.map f) s.nextSeq s.tickNo :=
  ⟨h.pending, h.mem, h.forces, by rw [List.length_map]; exact h.events, h.seq, h.tick⟩

/-- The tick may take the next number. -/
theorem kept_tick {s r : State} (h : Safety.Keeps que s) : Kept que s.pending s.mem s.forces s.events s.nextSeq r.nextTick :=
  ⟨h.pending, h.mem, h.forces, h.events, h.seq, r.nextTick_lt⟩

theorem State.wr_inv (s : State) (k : Nat) (v : Word) (h : Safety.Keeps que s) : Safety.Keeps que (s.wr k v) := inv_of_eq (s := s) rfl rfl rfl rfl rfl rfl h

theorem State.fset_inv (s : State) (b : Nat) (f : Fld) (v : Nat) (h : Safety.Keeps que s) : Safety.Keeps que (s.fset b f v) := s.wr_inv _ _ h

theorem State.fsetB_inv (s : State) (b : Nat) (f : Fld) (v : Bool) (h : Safety.Keeps que s) : Safety.Keeps que (s.fsetB b f v) := s.fset_inv _ _ _ h

theorem State.fadd_inv (s : State) (b : Nat) (f : Fld) (n : Nat) (h : Safety.Keeps que s) : Safety.Keeps que (s.fadd b f n) := s.fset_inv _ _ _ h

theorem State.finc_inv (s : State) (b : Nat) (f : Fld) (h : Safety.Keeps que s) : Safety.Keeps que (s.finc b f) := s.fset_inv _ _ _ h

theorem State.fmax_inv (s : State) (b : Nat) (f : Fld) (v : Nat) (h : Safety.Keeps que s) : Safety.Keeps que (s.fmax b f v) := s.fset_inv _ _ _ h

theorem State.fsat_inv (s : State) (b : Nat) (f : Fld) (v : Nat) (h : Safety.Keeps que s) : Safety.Keeps que (s.fsat b f v) := s.fset_inv _ _ _ h

theorem State.regClear_inv (s : State) (p : Nat → Bool) (h : Safety.Keeps que s) : Safety.Keeps que (s.regClear p) := inv_of_eq (s := s) rfl rfl rfl rfl rfl rfl h

theorem State.mset_inv (s : State) (k : Nat) (v : Byte) (h : Safety.Keeps que s) : Safety.Keeps que (s.mset k v) :=
  ⟨⟨s.mset_wf k v h.mem, h.forces, h.events, h.seq, h.tick⟩, h.pending⟩

theorem State.mwrite_inv (s : State) (k : Nat) (vs : List Byte) (h : Safety.Keeps que s) : Safety.Keeps que (s.mwrite k vs) := by
  induction vs generalizing s k with
  | nil => exact h
  | cons v vs ih => exact ih _ _ (s.mset_inv k v h)

theorem State.memClear_inv (s : State) (p : Nat → Bool) (h : Safety.Keeps que s) : Safety.Keeps que (s.memClear p) :=
  ⟨⟨s.memClear_wf p h.mem, h.forces, h.events, h.seq, h.tick⟩, h.pending⟩

theorem seqAfter_range (n : Nat) (h : 1 ≤ n ∧ n < 2 ^ 32) : 1 ≤ seqAfter n ∧ seqAfter n < 2 ^ 32 := by
  unfold seqAfter
  split <;> omega

theorem State.evAdd_inv (s : State) (src gal : Nat) (u : Bool) (d : Nat) (h : Safety.Keeps que s) : Safety.Keeps que (s.evAdd src gal u d).1 := by
  have hl := s.evAdd_length src gal u d h.events
  obtain ⟨_, hq⟩ := s.evAdd_eq src gal u d
  rw [hq] at hl ⊢
  exact ⟨⟨h.mem, h.forces, hl, seqAfter_range _ h.seq, h.tick⟩, h.pending⟩

theorem State.event_inv (s : State) (src gal : Nat) (u : Bool) (d : Nat) (h : Safety.Keeps que s) : Safety.Keeps que (s.event src gal u d) := by
  have h1 := s.evAdd_inv src gal u d h
  rw [State.event_def]
  exact inv_ite (fun _ => State.evAdd_inv _ _ _ _ _ (State.fset_inv _ _ _ _ h1)) (fun _ => h1)

end Sys2Proof.Machine
end

