-- ==== Sys2Proof/Laws/InvOps.lean ====
section
/-! SUPPORT. The invariant under what Machine/Ops.lean does. -/

namespace Sys2Proof.Machine
open Sys2Proof

variable {que : List Instr}

theorem State.free_inv (s : State) (hs : Safety.Keeps que s) : Safety.Keeps que (State.free s).2 := by
  unfold State.free; dsimp only
  repeat' with_reducible first | assumption | (refine inv_of_kept ?_; dsimp only; refine kept_of_inv ?_)

theorem State.send_inv (s : State) (o : Out) (hs : Safety.Keeps que s) : Safety.Keeps que (State.send s o) := by
  unfold State.send
  repeat' with_reducible first | assumption | (refine inv_of_kept ?_; dsimp only; refine kept_of_inv ?_)

theorem State.sysPage_inv (s : State) (hs : Safety.Keeps que s) : Safety.Keeps que (State.sysPage s) := by
  unfold State.sysPage; dsimp only
  repeat' with_reducible first | assumption | (apply inv_ite <;> intros) | (refine inv_of_kept ?_; dsimp only; refine kept_of_inv ?_)

theorem State.eventLimited_inv (s : State) (src obj gal : Nat) (urgent : Bool) (data len : Nat) (hs : Safety.Keeps que s) : Safety.Keeps que (State.eventLimited s src obj gal urgent data len) := by
  unfold State.eventLimited; dsimp only
  repeat' with_reducible first | assumption | apply State.event_inv | (apply inv_ite <;> intros) | (refine inv_of_kept ?_; dsimp only; refine kept_of_inv ?_)

theorem State.eventCounted_inv (s : State) (src obj gal : Nat) (urgent : Bool) (data len n : Nat) (hs : Safety.Keeps que s) : Safety.Keeps que (State.eventCounted s src obj gal urgent data len n) := by
  unfold State.eventCounted
  repeat' with_reducible first | assumption | (apply inv_ite <;> intros) | (refine inv_of_kept ?_; dsimp only; refine kept_of_inv ?_)

theorem State.setInReset_inv (s : State) (d : Nat) (v : Bool) (hs : Safety.Keeps que s) : Safety.Keeps que (State.setInReset s d v) := by
  unfold State.setInReset; dsimp only
  repeat' with_reducible first | assumption | apply State.fset_inv

theorem State.setDom_inv (s : State) (d : Dom) (r : DomRst) (hs : Safety.Keeps que s) : Safety.Keeps que (State.setDom s d r) := by
  unfold State.setDom
  repeat' with_reducible first | assumption | (refine inv_of_kept ?_; dsimp only; refine kept_of_inv ?_)

theorem State.setLaneHg_inv (s : State) (l : Lane) (h : LaneHg) (hs : Safety.Keeps que s) : Safety.Keeps que (State.setLaneHg s l h) := by
  unfold State.setLaneHg; dsimp only
  repeat' with_reducible first | assumption | (refine inv_of_kept ?_; dsimp only; refine kept_of_inv ?_) | (refine inv_of_kept ?_; dsimp only; first | refine kept_fewer _ ?_ | refine kept_marks _ ?_ | refine kept_tick ?_) | split

theorem State.setLstate_inv (s : State) (l : Lane) (x : LState) (hs : Safety.Keeps que s) : Safety.Keeps que (State.setLstate s l x) := by
  unfold State.setLstate; dsimp only
  repeat' with_reducible first | assumption | apply State.setLaneHg_inv

theorem State.setLane_inv (s : State) (l : Lane) (x : LaneSt) (hs : Safety.Keeps que s) : Safety.Keeps que (State.setLane s l x) := by
  unfold State.setLane
  repeat' with_reducible first | assumption | (refine inv_of_kept ?_; dsimp only; refine kept_of_inv ?_) | (refine inv_of_kept ?_; dsimp only; first | refine kept_fewer _ ?_ | refine kept_marks _ ?_ | refine kept_tick ?_) | split

theorem State.setCyc_inv (s : State) (l : Lane) (c : CycSt) (hs : Safety.Keeps que s) : Safety.Keeps que (State.setCyc s l c) := by
  unfold State.setCyc; dsimp only
  repeat' with_reducible first | assumption | apply State.setLane_inv

theorem State.setGrant_inv (s : State) (g : Nat) (l : Lane) (shed takenOver : Bool) (hs : Safety.Keeps que s) : Safety.Keeps que (State.setGrant s g l shed takenOver) := by
  unfold State.setGrant
  repeat' with_reducible first | assumption | apply State.fset_inv | apply State.fsetB_inv

theorem State.setPoint_inv (s : State) (e : Nat) (p : PointEnt) (hs : Safety.Keeps que s) : Safety.Keeps que (State.setPoint s e p) := by
  unfold State.setPoint
  repeat' with_reducible first | assumption | (refine inv_of_kept ?_; dsimp only; refine kept_of_inv ?_)

theorem State.grantReject_inv (s : State) (l : Lane) (g : Nat) (hs : Safety.Keeps que s) : Safety.Keeps que (State.grantReject s l g) := by
  unfold State.grantReject
  repeat' with_reducible first | assumption | apply State.finc_inv | apply State.eventLimited_inv

end Sys2Proof.Machine
end

