-- ==== Sys2Proof/Laws/InvAioOps.lean ====
section
/-! SUPPORT. The invariant under what Machine/AioOps.lean does. -/

namespace Sys2Proof.Machine
open Sys2Proof

variable {que : List Instr}

theorem State.setAioX_inv (s : State) (c : Nat) (x : AioX) (hs : Safety.Keeps que s) : Safety.Keeps que (State.setAioX s c x) := by
  unfold State.setAioX
  repeat' with_reducible first | assumption | (refine inv_of_kept ?_; dsimp only; refine kept_of_inv ?_)

theorem State.aioShow_inv (s : State) (c : Nat) (hs : Safety.Keeps que s) : Safety.Keeps que (State.aioShow s c) := by
  unfold State.aioShow; dsimp only
  repeat' with_reducible first | assumption | apply State.fset_inv

theorem State.aioFaultShow_inv (s : State) (c : Nat) (hs : Safety.Keeps que s) : Safety.Keeps que (State.aioFaultShow s c) := by
  unfold State.aioFaultShow; dsimp only
  repeat' with_reducible first | assumption | apply State.fset_inv | apply State.fsetB_inv

theorem State.aioSafeDrive_inv (s : State) (c : Nat) (hs : Safety.Keeps que s) : Safety.Keeps que (State.aioSafeDrive s c) := by
  unfold State.aioSafeDrive; dsimp only
  repeat' with_reducible first | assumption | apply State.fset_inv | (apply inv_ite <;> intros)

theorem State.aioDeclare_inv (s : State) (c cause : Nat) (hs : Safety.Keeps que s) : Safety.Keeps que (State.aioDeclare s c cause) := by
  unfold State.aioDeclare; dsimp only
  repeat' with_reducible first | assumption | apply State.finc_inv | apply State.event_inv | apply State.setAioX_inv | apply State.aioFaultShow_inv | apply State.aioSafeDrive_inv | (apply inv_ite <;> intros)

theorem State.aioUndeclare_inv (s : State) (c cause : Nat) (hs : Safety.Keeps que s) : Safety.Keeps que (State.aioUndeclare s c cause) := by
  unfold State.aioUndeclare; dsimp only
  repeat' with_reducible first | assumption | apply State.event_inv | apply State.setAioX_inv | apply State.aioFaultShow_inv | (apply inv_ite <;> intros)

theorem State.aioCode_inv (s : State) (c code : Nat) (hs : Safety.Keeps que s) : Safety.Keeps que (State.aioCode s c code) := by
  unfold State.aioCode; dsimp only
  repeat' with_reducible first | assumption | apply State.fset_inv | apply State.setAioX_inv | apply State.aioShow_inv | (apply inv_ite <;> intros)

theorem State.aioWrite_inv (s : State) (c v : Nat) (hs : Safety.Keeps que s) : Safety.Keeps que (State.aioWrite s c v) := by
  unfold State.aioWrite
  repeat' with_reducible first | assumption | apply State.aioCode_inv | (apply inv_ite <;> intros) | (refine inv_of_kept ?_; dsimp only; refine kept_of_inv ?_) | (refine inv_of_kept ?_; dsimp only; first | refine kept_fewer _ ?_ | refine kept_marks _ ?_ | refine kept_tick ?_) | split

theorem State.aioApply_inv (s : State) (c : Nat) (hs : Safety.Keeps que s) : Safety.Keeps que (State.aioApply s c) := by
  unfold State.aioApply; dsimp only
  repeat' with_reducible first | assumption | apply State.fset_inv | apply State.fsetB_inv | apply State.setAioX_inv | apply State.aioSafeDrive_inv | apply State.aioShow_inv | apply State.aioFaultShow_inv | (apply inv_ite <;> intros)

theorem State.aioConfig_inv (s : State) (hs : Safety.Keeps que s) : Safety.Keeps que (State.aioConfig s) := by
  unfold State.aioConfig; dsimp only
  repeat' with_reducible first | assumption | apply State.fset_inv | apply State.fsetB_inv | apply State.aioShow_inv | apply State.aioApply_inv | (apply inv_foldl <;> intros)

theorem State.aioReset_inv (s : State) (hs : Safety.Keeps que s) : Safety.Keeps que (State.aioReset s) := by
  unfold State.aioReset; dsimp only
  repeat' with_reducible first | assumption | apply State.fset_inv | apply State.regClear_inv | (refine inv_of_kept ?_; dsimp only; refine kept_of_inv ?_)

theorem State.aioSafe_inv (s : State) (hs : Safety.Keeps que s) : Safety.Keeps que (State.aioSafe s) := by
  unfold State.aioSafe
  repeat' with_reducible first | assumption | apply State.fset_inv | apply State.aioCode_inv | (apply inv_foldl <;> intros) | (apply inv_ite <;> intros)

end Sys2Proof.Machine
end

