-- ==== Sys2Proof/Laws/InvAio.lean ====
section
/-! SUPPORT. The invariant under what Machine/Aio.lean does. -/

namespace Sys2Proof.Machine
open Sys2Proof

variable {que : List Instr}

theorem execAioConversion_inv (ch : Fin 16) (code readback : BitVec 16) (s : State) (hs : Safety.Keeps que s) : ∃ t, execAioConversion ch code readback s = .next t ∧ Safety.Keeps que t := by
  refine ⟨_, rfl, ?_⟩; dsimp only
  repeat' with_reducible first | assumption | apply State.fset_inv | apply State.setAioX_inv | apply State.aioShow_inv | (apply inv_ite <;> intros)

theorem execAioReadbackMismatch_inv (ch : Fin 16) (s : State) (hs : Safety.Keeps que s) : ∃ t, execAioReadbackMismatch ch s = .next t ∧ Safety.Keeps que t := by
  refine ⟨_, rfl, ?_⟩
  repeat' with_reducible first | assumption | apply State.aioDeclare_inv | (apply inv_ite <;> intros)

theorem execAioDriverFault_inv (ch : Fin 16) (headroom current : BitVec 16) (s : State) (hs : Safety.Keeps que s) : ∃ t, execAioDriverFault ch headroom current s = .next t ∧ Safety.Keeps que t := by
  refine ⟨_, rfl, ?_⟩
  repeat' with_reducible first | assumption | apply State.aioDeclare_inv | (apply inv_ite <;> intros)

theorem execAioInputFault_inv (ch : Fin 16) (cause : Fin 5) (s : State) (hs : Safety.Keeps que s) : ∃ t, execAioInputFault ch cause s = .next t ∧ Safety.Keeps que t := by
  refine ⟨_, rfl, ?_⟩; dsimp only
  repeat' with_reducible first | assumption | apply State.fset_inv | apply State.aioDeclare_inv | (apply inv_ite <;> intros)

theorem execAioGroupSupplyFault_inv (group : Fin 4) (s : State) (hs : Safety.Keeps que s) : ∃ t, execAioGroupSupplyFault group s = .next t ∧ Safety.Keeps que t := by
  refine ⟨_, rfl, ?_⟩; dsimp only
  repeat' with_reducible first | assumption | apply State.fset_inv | apply State.aioDeclare_inv | (apply inv_foldl <;> intros) | (apply inv_ite <;> intros)

theorem execAioFaultCleared_inv (ch : Fin 16) (cause : Fin 10) (s : State) (hs : Safety.Keeps que s) : ∃ t, execAioFaultCleared ch cause s = .next t ∧ Safety.Keeps que t := by
  refine ⟨_, rfl, ?_⟩; dsimp only
  repeat' with_reducible first | assumption | apply State.fset_inv | apply State.aioUndeclare_inv | (apply inv_ite <;> intros)

theorem execAioLsRetry_inv (ch : Fin 16) (current : BitVec 16) (s : State) (hs : Safety.Keeps que s) : ∃ t, execAioLsRetry ch current s = .next t ∧ Safety.Keeps que t := by
  refine ⟨_, rfl, ?_⟩
  repeat' with_reducible first | assumption | apply State.fsetB_inv | (apply inv_ite <;> intros)

theorem execAioSurge_inv (ch : Fin 16) (s : State) (hs : Safety.Keeps que s) : ∃ t, execAioSurge ch s = .next t ∧ Safety.Keeps que t := by
  refine ⟨_, rfl, ?_⟩; dsimp only
  repeat' with_reducible first | assumption | apply State.fset_inv | (apply inv_ite <;> intros)

theorem execAioSurgeSuspendEnd_inv (ch : Fin 16) (s : State) (hs : Safety.Keeps que s) : ∃ t, execAioSurgeSuspendEnd ch s = .next t ∧ Safety.Keeps que t := by
  refine ⟨_, rfl, ?_⟩
  repeat' with_reducible first | assumption | apply State.fset_inv | (apply inv_ite <;> intros)

theorem execAioCfgApply_inv (ch : Fin 16) (s : State) (hs : Safety.Keeps que s) : ∃ t, execAioCfgApply ch s = .next t ∧ Safety.Keeps que t := by
  refine ⟨_, rfl, ?_⟩
  repeat' with_reducible first | assumption | apply State.aioApply_inv | (apply inv_ite <;> intros)

end Sys2Proof.Machine
end

