-- ==== Sys2Proof/Laws/InvPortState.lean ====
section
/-! SUPPORT. The invariant under what Machine/PortState.lean does. -/

namespace Sys2Proof.Machine
open Sys2Proof

variable {que : List Instr}

theorem State.setPortX_inv (s : State) (p : Nat) (x : PortX) (hs : Safety.Keeps que s) : Safety.Keeps que (State.setPortX s p x) := by
  unfold State.setPortX
  repeat' with_reducible first | assumption | (refine inv_of_kept ?_; dsimp only; refine kept_of_inv ?_)

theorem State.setPst_inv (s : State) (p : Nat) (ps : PairSet) (st : Nat) (hs : Safety.Keeps que s) : Safety.Keeps que (State.setPst s p ps st) := by
  unfold State.setPst
  repeat' with_reducible first | assumption | apply State.fset_inv | (apply inv_ite <;> intros) | (refine inv_of_kept ?_; dsimp only; refine kept_of_inv ?_) | (refine inv_of_kept ?_; dsimp only; first | refine kept_fewer _ ?_ | refine kept_marks _ ?_ | refine kept_tick ?_) | split

theorem State.setBoth_inv (s : State) (p st : Nat) (hs : Safety.Keeps que s) : Safety.Keeps que (State.setBoth s p st) := by
  unfold State.setBoth
  repeat' with_reducible first | assumption | apply State.fset_inv

theorem State.forPorts_inv (s : State) (f : State → Nat → State) (hf : ∀ s p, Safety.Keeps que s → Safety.Keeps que (f s p)) (hs : Safety.Keeps que s) :
    Safety.Keeps que (s.forPorts f) := inv_foldl hf hs

theorem State.setEthX_inv (s : State) (k : Nat) (x : EthX) (hs : Safety.Keeps que s) : Safety.Keeps que (State.setEthX s k x) := by
  unfold State.setEthX; dsimp only
  repeat' with_reducible first | assumption | (refine inv_of_kept ?_; dsimp only; refine kept_of_inv ?_)

theorem State.rateAbandon_inv (s : State) (p : Nat) (hs : Safety.Keeps que s) : Safety.Keeps que (State.rateAbandon s p) := by
  unfold State.rateAbandon; dsimp only
  repeat' with_reducible first | assumption | apply State.setEthX_inv

end Sys2Proof.Machine
end

