-- ==== Sys2Proof/Laws/InvPliakOps.lean ====
section
/-! SUPPORT. The invariant under what Machine/PliakOps.lean does. -/

namespace Sys2Proof.Machine
open Sys2Proof

variable {que : List Instr}

theorem State.setSession_inv (s : State) (x : Session) (hs : Safety.Keeps que s) : Safety.Keeps que (State.setSession s x) := by
  unfold State.setSession
  repeat' with_reducible first | assumption | (refine inv_of_kept ?_; dsimp only; refine kept_of_inv ?_)

theorem State.xferKeep_inv (s : State) (hs : Safety.Keeps que s) : Safety.Keeps que (State.xferKeep s) := by
  unfold State.xferKeep; dsimp only
  repeat' with_reducible first | assumption | (apply inv_ite <;> intros) | (refine inv_of_kept ?_; dsimp only; refine kept_of_inv ?_) | (refine inv_of_kept ?_; dsimp only; first | refine kept_fewer _ ?_ | refine kept_marks _ ?_ | refine kept_tick ?_) | split

theorem State.dropSession_inv (s : State) (id : Nat) (hs : Safety.Keeps que s) : Safety.Keeps que (State.dropSession s id) := by
  unfold State.dropSession; dsimp only
  repeat' with_reducible first | assumption | apply State.xferKeep_inv | (refine inv_of_kept ?_; dsimp only; refine kept_of_inv ?_)

theorem State.closeSessions_inv (s : State) (p : Session → Bool) (hs : Safety.Keeps que s) : Safety.Keeps que (State.closeSessions s p) := by
  unfold State.closeSessions; dsimp only
  repeat' with_reducible first | assumption | apply State.xferKeep_inv | (refine inv_of_kept ?_; dsimp only; refine kept_of_inv ?_)

theorem State.closeSession_inv (s : State) (id : Nat) (hs : Safety.Keeps que s) : Safety.Keeps que (State.closeSession s id) := by
  unfold State.closeSession
  repeat' with_reducible first | assumption | apply State.closeSessions_inv

theorem State.sendReply_inv (s : State) (t : Transport) (secure : Bool) (id seq tag opcode : Nat) (body wire : List Byte) (hs : Safety.Keeps que s) : Safety.Keeps que (State.sendReply s t secure id seq tag opcode body wire) := by
  unfold State.sendReply; dsimp only
  repeat' with_reducible first | assumption | apply State.send_inv | (apply inv_ite <;> intros) | (refine inv_of_kept ?_; dsimp only; refine kept_of_inv ?_)

theorem State.replyTo_inv (s : State) (x : Session) (t : Transport) (tag opcode : Nat) (l : Lane) (r : Res) (body : List Byte) (hs : Safety.Keeps que s) : Safety.Keeps que (State.replyTo s x t tag opcode l r body) := by
  unfold State.replyTo; dsimp only
  repeat' with_reducible first | assumption | apply State.setSession_inv | apply State.dropSession_inv | apply State.sendReply_inv | (apply inv_ite <;> intros)

theorem State.settle_inv (s : State) (id : Nat) (l : Lane) (hs : Safety.Keeps que s) : Safety.Keeps que (State.settle s id l) := by
  unfold State.settle; dsimp only
  repeat' with_reducible first | assumption | apply State.dropSession_inv | apply State.replyTo_inv | (apply inv_ite <;> intros) | (refine inv_of_kept ?_; dsimp only; refine kept_of_inv ?_) | (refine inv_of_kept ?_; dsimp only; first | refine kept_fewer _ ?_ | refine kept_marks _ ?_ | refine kept_tick ?_) | split

theorem State.answerBy_inv (s : State) (l : Lane) (f : Flight) (r : Res) (body : List Byte) (hs : Safety.Keeps que s) : Safety.Keeps que (State.answerBy s l f r body) := by
  unfold State.answerBy; dsimp only
  repeat' with_reducible first | assumption | apply State.replyTo_inv | apply State.settle_inv | (refine inv_of_kept ?_; dsimp only; refine kept_of_inv ?_) | (refine inv_of_kept ?_; dsimp only; first | refine kept_fewer _ ?_ | refine kept_marks _ ?_ | refine kept_tick ?_) | split

theorem State.answerFlight_inv (s : State) (f : Flight) (r : Res) (body : List Byte) (hs : Safety.Keeps que s) : Safety.Keeps que (State.answerFlight s f r body) := by
  unfold State.answerFlight
  repeat' with_reducible first | assumption | apply State.answerBy_inv | (refine inv_of_kept ?_; dsimp only; refine kept_of_inv ?_) | (refine inv_of_kept ?_; dsimp only; first | refine kept_fewer _ ?_ | refine kept_marks _ ?_ | refine kept_tick ?_) | split

theorem State.dbDrop_inv (s : State) (t : Transport) (hs : Safety.Keeps que s) : Safety.Keeps que (State.dbDrop s t) := by
  unfold State.dbDrop
  repeat' with_reducible first | assumption | apply State.fset_inv | (apply inv_ite <;> intros)

theorem State.authFail_inv (s : State) (t : Transport) (hs : Safety.Keeps que s) : Safety.Keeps que (State.authFail s t) := by
  unfold State.authFail
  repeat' with_reducible first | assumption | apply State.finc_inv | apply State.eventCounted_inv | apply State.dbDrop_inv | (apply inv_ite <;> intros)

theorem State.dropPacket_inv (s : State) (t : Transport) (hs : Safety.Keeps que s) : Safety.Keeps que (State.dropPacket s t) := by
  unfold State.dropPacket
  repeat' with_reducible first | assumption | apply State.finc_inv | apply State.dbDrop_inv

theorem State.ans_inv (s : State) (r : Res) (hs : Safety.Keeps que s) : Safety.Keeps que (State.ans s r).st := by
  unfold State.ans; dsimp only
  repeat' with_reducible assumption

theorem State.ansB_inv (s : State) (r : Res) (b : List Byte) (hs : Safety.Keeps que s) : Safety.Keeps que (State.ansB s r b).st := by
  unfold State.ansB; dsimp only
  repeat' with_reducible assumption

theorem State.ansOk_inv (s : State) (r : Res) (b : List Byte) (hs : Safety.Keeps que s) : Safety.Keeps que (State.ansOk s r b).st := by
  unfold State.ansOk
  repeat' with_reducible first | assumption | apply State.ansB_inv

theorem State.runReq_inv (s : State) (x : Session) (r : Req) (opcode want : Nat) (l : Lane) (run : State → Session → Lane → Answer)
    (hr : ∀ s x l, Safety.Keeps que s → Safety.Keeps que (run s x l).st) (hs : Safety.Keeps que s) : Safety.Keeps que (s.runReq x r opcode want l run).st := by
  unfold State.runReq
  split
  · exact hs
  · exact hr _ _ _ hs

theorem Answer.sendTo_inv (a : Answer) (id : Nat) (r : Req) (opcode : Nat) (l : Lane) (next : State → State)
    (hn : ∀ s, Safety.Keeps que s → Safety.Keeps que (next s)) (ha : Safety.Keeps que a.st) : Safety.Keeps que (a.sendTo id r opcode l next) := by
  unfold Answer.sendTo
  split
  · exact ha
  · split
    · exact ha
    · exact inv_ite (fun _ => hn _ (State.replyTo_inv _ _ _ _ _ _ _ _ ha)) (fun _ => State.replyTo_inv _ _ _ _ _ _ _ _ ha)

theorem State.serveThen_inv (s : State) (r : Req) (opcode want : Nat) (run : State → Session → Lane → Answer) (next : State → State)
    (hr : ∀ s x l, Safety.Keeps que s → Safety.Keeps que (run s x l).st) (hn : ∀ s, Safety.Keeps que s → Safety.Keeps que (next s)) (hs : Safety.Keeps que s) :
    Safety.Keeps que (s.serveThen r opcode want run next) := by
  unfold State.serveThen
  refine inv_ite (fun _ => hs) (fun _ => ?_)
  split
  · exact State.authFail_inv _ _ hs
  · rename_i x _
    split
    · exact hs
    · have h2 : ∀ l, Safety.Keeps que _ := fun l => Answer.sendTo_inv _ (x.accepted r.seq.toNat s.now).id r opcode l next hn
        (State.runReq_inv _ (x.accepted r.seq.toNat s.now) r opcode want l run hr (s.setSession_inv (x.accepted r.seq.toNat s.now) hs))
      refine inv_ite (fun _ => ?_) (fun _ => inv_ite (fun _ => State.closeSession_inv _ _ (h2 _)) (fun _ => h2 _))
      exact State.replyTo_inv _ _ _ _ _ _ _ _ (State.eventCounted_inv _ _ _ _ _ _ _ _ (State.finc_inv _ _ _ hs))

theorem State.serve_inv (s : State) (r : Req) (opcode want : Nat) (run : State → Session → Lane → Answer)
    (hr : ∀ s x l, Safety.Keeps que s → Safety.Keeps que (run s x l).st) (hs : Safety.Keeps que s) : Safety.Keeps que (s.serve r opcode want run) :=
  s.serveThen_inv r opcode want run _ hr (fun _ h => h) hs

end Sys2Proof.Machine
end

