-- ==== Sys2Proof/Laws/InvSwitchOps.lean ====
section
/-! SUPPORT. The invariant under what Machine/SwitchOps.lean does. -/

namespace Sys2Proof.Machine
open Sys2Proof

variable {que : List Instr}

theorem State.cnt_inv (s : State) (k i n : Nat) (hs : Safety.Keeps que s) : Safety.Keeps que (State.cnt s k i n) := by
  unfold State.cnt; dsimp only
  repeat' with_reducible first | assumption | apply State.fset_inv | apply State.eventLimited_inv | (apply inv_ite <;> intros)

theorem State.cntFrame_inv (s : State) (k b n dst : Nat) (hs : Safety.Keeps que s) : Safety.Keeps que (State.cntFrame s k b n dst) := by
  unfold State.cntFrame
  repeat' with_reducible first | assumption | apply State.cnt_inv

theorem State.octets_inv (s : State) (k rx tx : Nat) (hs : Safety.Keeps que s) : Safety.Keeps que (State.octets s k rx tx) := by
  unfold State.octets; dsimp only
  repeat' with_reducible first | assumption | apply State.setEthX_inv

theorem State.sendPause_inv (s : State) (k q : Nat) (hs : Safety.Keeps que s) : Safety.Keeps que (State.sendPause s k q) := by
  unfold State.sendPause
  repeat' with_reducible first | assumption | apply State.send_inv | apply State.cnt_inv

theorem State.pauseHigh_inv (s : State) (k use : Nat) (hs : Safety.Keeps que s) : Safety.Keeps que (State.pauseHigh s k use) := by
  unfold State.pauseHigh
  repeat' with_reducible first | assumption | apply State.fset_inv | apply State.cnt_inv | apply State.sendPause_inv | (apply inv_ite <;> intros)

theorem State.lpiEnter_inv (s : State) (k : Nat) (hs : Safety.Keeps que s) : Safety.Keeps que (State.lpiEnter s k) := by
  unfold State.lpiEnter; dsimp only
  repeat' with_reducible first | assumption | apply State.fset_inv | apply State.setEthX_inv | apply State.cnt_inv | (apply inv_ite <;> intros)

theorem State.lpiLeave_inv (s : State) (k : Nat) (hs : Safety.Keeps que s) : Safety.Keeps que (State.lpiLeave s k) := by
  unfold State.lpiLeave; dsimp only
  repeat' with_reducible first | assumption | apply State.fset_inv | apply State.setEthX_inv | apply State.cnt_inv | (refine inv_of_kept ?_; dsimp only; refine kept_of_inv ?_) | (refine inv_of_kept ?_; dsimp only; first | refine kept_fewer _ ?_ | refine kept_marks _ ?_ | refine kept_tick ?_) | split

theorem State.lpiCount_inv (s : State) (k : Nat) (hs : Safety.Keeps que s) : Safety.Keeps que (State.lpiCount s k) := by
  unfold State.lpiCount; dsimp only
  repeat' with_reducible first | assumption | apply State.setEthX_inv | apply State.cnt_inv | (refine inv_of_kept ?_; dsimp only; refine kept_of_inv ?_) | (refine inv_of_kept ?_; dsimp only; first | refine kept_fewer _ ?_ | refine kept_marks _ ?_ | refine kept_tick ?_) | split

theorem State.emit_inv (s : State) (q : EthQ) (hs : Safety.Keeps que s) : Safety.Keeps que (State.emit s q) := by
  unfold State.emit; dsimp only
  repeat' with_reducible first | assumption | apply State.send_inv | apply State.cntFrame_inv | apply State.octets_inv | apply State.lpiLeave_inv | (apply inv_ite <;> intros)

theorem State.drain_inv (s : State) (k : Nat) (hs : Safety.Keeps que s) : Safety.Keeps que (State.drain s k) := by
  unfold State.drain; dsimp only
  repeat' with_reducible first | assumption | apply State.lpiEnter_inv | apply State.emit_inv | (apply inv_foldl <;> intros) | (apply inv_ite <;> intros) | (refine inv_of_kept ?_; dsimp only; refine kept_of_inv ?_)

theorem State.dropQueue_inv (s : State) (k : Nat) (hs : Safety.Keeps que s) : Safety.Keeps que (State.dropQueue s k) := by
  unfold State.dropQueue; dsimp only
  repeat' with_reducible first | assumption | apply State.cnt_inv | (apply inv_ite <;> intros) | (refine inv_of_kept ?_; dsimp only; refine kept_of_inv ?_)

theorem State.forwardTo_inv (s : State) (e v pcp : Nat) (q : EthQ) (hs : Safety.Keeps que s) : Safety.Keeps que (State.forwardTo s e v pcp q) := by
  unfold State.forwardTo; dsimp only
  repeat' with_reducible first | assumption | apply State.cnt_inv | apply State.lpiEnter_inv | apply State.emit_inv | (apply inv_ite <;> intros) | (refine inv_of_kept ?_; dsimp only; refine kept_of_inv ?_)

theorem State.frameIn_inv (s : State) (k n v pcp queue : Nat) (u : List Byte) (stomped event : Bool) (es : List Nat) (hs : Safety.Keeps que s) : Safety.Keeps que (State.frameIn s k n v pcp queue u stomped event es) := by
  unfold State.frameIn; dsimp only
  repeat' with_reducible first | assumption | apply State.event_inv | apply State.cnt_inv | apply State.pauseHigh_inv | apply State.forwardTo_inv | (apply inv_foldl <;> intros) | (apply inv_ite <;> intros) | (refine inv_of_kept ?_; dsimp only; refine kept_of_inv ?_)

theorem State.learn_inv (s : State) (k v mac : Nat) (hs : Safety.Keeps que s) : Safety.Keeps que (State.learn s k v mac) := by
  unfold State.learn; dsimp only
  repeat' with_reducible first | assumption | (apply inv_ite <;> intros) | (refine inv_of_kept ?_; dsimp only; refine kept_of_inv ?_)

theorem State.laneSend_inv (s : State) (l : Lane) (v : Nat) (es : List Nat) (u : List Byte) (hs : Safety.Keeps que s) : Safety.Keeps que (State.laneSend s l v es u) := by
  unfold State.laneSend; dsimp only
  repeat' with_reducible first | assumption | apply State.cnt_inv | apply State.cntFrame_inv | apply State.octets_inv | apply State.frameIn_inv

theorem State.solicited_inv (s : State) (k v : Nat) (u : List Byte) (hs : Safety.Keeps que s) : Safety.Keeps que (State.solicited s k v u) := by
  unfold State.solicited
  repeat' with_reducible first | assumption | apply State.laneSend_inv | (apply inv_ite <;> intros) | (refine inv_of_kept ?_; dsimp only; refine kept_of_inv ?_) | (refine inv_of_kept ?_; dsimp only; first | refine kept_fewer _ ?_ | refine kept_marks _ ?_ | refine kept_tick ?_) | split

theorem State.switchFrame_inv (s : State) (k n : Nat) (d : List Byte) (stomped : Bool) (hs : Safety.Keeps que s) : Safety.Keeps que (State.switchFrame s k n d stomped) := by
  unfold State.switchFrame; dsimp only
  repeat' with_reducible first | assumption | apply State.cnt_inv | apply State.frameIn_inv | apply State.learn_inv | apply State.solicited_inv | (apply inv_ite <;> intros) | (refine inv_of_kept ?_; dsimp only; refine kept_of_inv ?_) | (refine inv_of_kept ?_; dsimp only; first | refine kept_fewer _ ?_ | refine kept_marks _ ?_ | refine kept_tick ?_) | split

end Sys2Proof.Machine
end

