-- ==== Sys2Proof/Laws/InvLumOps.lean ====
section
/-! SUPPORT. The invariant under what Machine/LumOps.lean does. -/

namespace Sys2Proof.Machine
open Sys2Proof

variable {que : List Instr}

theorem State.setDstate_inv (s : State) (l : Lane) (p d : Nat) (hs : Safety.Keeps que s) : Safety.Keeps que (State.setDstate s l p d) := by
  unfold State.setDstate
  repeat' with_reducible first | assumption | apply State.fset_inv

theorem State.setLum_inv (s : State) (l : Lane) (x : LumSt) (hs : Safety.Keeps que s) : Safety.Keeps que (State.setLum s l x) := by
  unfold State.setLum; dsimp only
  repeat' with_reducible first | assumption | apply State.setLane_inv

theorem State.lumRx_inv (s : State) (l : Lane) (hs : Safety.Keeps que s) : Safety.Keeps que (State.lumRx s l) := by
  unfold State.lumRx
  repeat' with_reducible first | assumption | apply State.fset_inv

theorem State.lumBad_inv (s : State) (l : Lane) (hs : Safety.Keeps que s) : Safety.Keeps que (State.lumBad s l) := by
  unfold State.lumBad
  repeat' with_reducible first | assumption | apply State.finc_inv

theorem State.lumTx_inv (s : State) (l : Lane) (hs : Safety.Keeps que s) : Safety.Keeps que (State.lumTx s l) := by
  unfold State.lumTx
  repeat' with_reducible first | assumption | apply State.fset_inv

theorem State.lumSend_inv (s : State) (l : Lane) (p : Nat) (d : List Byte) (hs : Safety.Keeps que s) : Safety.Keeps que (State.lumSend s l p d) := by
  unfold State.lumSend; dsimp only
  repeat' with_reducible first | assumption | apply State.laneSend_inv | apply State.lumTx_inv | (apply inv_ite <;> intros)

theorem State.lumCast_inv (s : State) (l : Lane) (g : Nat) (d : List Byte) (hs : Safety.Keeps que s) : Safety.Keeps que (State.lumCast s l g d) := by
  unfold State.lumCast; dsimp only
  repeat' with_reducible first | assumption | apply State.laneSend_inv | apply State.lumTx_inv | (apply inv_ite <;> intros)

theorem State.lumConfig_inv (s : State) (l : Lane) (p : Nat) (hs : Safety.Keeps que s) : Safety.Keeps que (State.lumConfig s l p) := by
  unfold State.lumConfig
  repeat' with_reducible first | assumption | apply State.lumSend_inv | (apply inv_foldl <;> intros) | (apply inv_ite <;> intros)

theorem State.lumTodo_inv (s : State) (l : Lane) (p mask : Nat) (hs : Safety.Keeps que s) : Safety.Keeps que (State.lumTodo s l p mask) := by
  unfold State.lumTodo; dsimp only
  repeat' with_reducible first | assumption | apply State.setLum_inv

theorem State.lumChanged_inv (s : State) (l : Lane) (n : Nat) (hs : Safety.Keeps que s) : Safety.Keeps que (State.lumChanged s l n) := by
  unfold State.lumChanged
  repeat' with_reducible first | assumption | apply State.lumConfig_inv | apply State.lumTodo_inv | (apply inv_ite <;> intros)

theorem State.lumForget_inv (s : State) (l : Lane) (p : Nat) (hs : Safety.Keeps que s) : Safety.Keeps que (State.lumForget s l p) := by
  unfold State.lumForget; dsimp only
  repeat' with_reducible first | assumption | apply State.setLum_inv

theorem State.lumNone_inv (s : State) (p : Nat) (hs : Safety.Keeps que s) : Safety.Keeps que (State.lumNone s p) := by
  unfold State.lumNone
  repeat' with_reducible first | assumption | apply State.fset_inv | apply State.setDstate_inv | apply State.lumForget_inv | (apply inv_foldl <;> intros)

theorem State.lumArrive_inv (s : State) (p : Nat) (hs : Safety.Keeps que s) : Safety.Keeps que (State.lumArrive s p) := by
  unfold State.lumArrive
  repeat' with_reducible first | assumption | apply State.setDstate_inv | (apply inv_ite <;> intros) | (refine inv_of_kept ?_; dsimp only; refine kept_of_inv ?_) | (refine inv_of_kept ?_; dsimp only; first | refine kept_fewer _ ?_ | refine kept_marks _ ?_ | refine kept_tick ?_) | split

theorem State.nodeWrite_inv (s : State) (l : Lane) (n v : Nat) (hs : Safety.Keeps que s) : Safety.Keeps que (State.nodeWrite s l n v) := by
  unfold State.nodeWrite; dsimp only
  repeat' with_reducible first | assumption | apply State.setLum_inv

theorem State.groupWrite_inv (s : State) (l : Lane) (g v : Nat) (hs : Safety.Keeps que s) : Safety.Keeps que (State.groupWrite s l g v) := by
  unfold State.groupWrite; dsimp only
  repeat' with_reducible first | assumption | apply State.setLum_inv | apply State.nodeWrite_inv | (apply inv_foldl <;> intros) | (apply inv_ite <;> intros)

theorem State.lumScene_inv (s : State) (l : Lane) (m : Nat) (w : Nat × Nat × Nat) (hs : Safety.Keeps que s) : Safety.Keeps que (State.lumScene s l m w) := by
  unfold State.lumScene; dsimp only
  repeat' with_reducible first | assumption | apply State.finc_inv | apply State.lumCast_inv | (apply inv_ite <;> intros)

theorem State.lumForce_inv (s : State) (l : Lane) (hs : Safety.Keeps que s) : Safety.Keeps que (State.lumForce s l) := by
  unfold State.lumForce; dsimp only
  repeat' with_reducible first | assumption | apply State.fset_inv | apply State.setLum_inv | apply State.lumChanged_inv | (apply inv_foldl <;> intros) | (apply inv_ite <;> intros)

theorem State.lightTick_inv (s : State) (l : Lane) (n : Nat) (hs : Safety.Keeps que s) : Safety.Keeps que (State.lightTick s l n) := by
  unfold State.lightTick; dsimp only
  repeat' with_reducible first | assumption | apply State.fset_inv | apply State.grantReject_inv | (apply State.forPorts_inv <;> intros) | apply State.setLum_inv | apply State.lumSend_inv | apply State.lumScene_inv | apply State.lumForce_inv | (apply inv_foldl <;> intros) | (apply inv_ite <;> intros)

theorem State.lumNote_inv (s : State) (l : Lane) (n : Nat) (hs : Safety.Keeps que s) : Safety.Keeps que (State.lumNote s l n) := by
  unfold State.lumNote; dsimp only
  repeat' with_reducible first | assumption | apply State.setLum_inv

theorem State.wholeDeg_inv (s : State) (t : Nat) (hs : Safety.Keeps que s) : Safety.Keeps que (State.wholeDeg s t).2 := by
  unfold State.wholeDeg; dsimp only
  repeat' with_reducible first | assumption | apply State.free_inv | (refine inv_of_kept ?_; dsimp only; refine kept_of_inv ?_) | (refine inv_of_kept ?_; dsimp only; first | refine kept_fewer _ ?_ | refine kept_marks _ ?_ | refine kept_tick ?_) | split

theorem State.lumLatchNode_inv (s : State) (l : Lane) (n : Nat) (e : LumStatus) (hs : Safety.Keeps que s) : Safety.Keeps que (State.lumLatchNode s l n e) := by
  unfold State.lumLatchNode; dsimp only
  repeat' with_reducible first | assumption | apply State.fset_inv | apply State.wholeDeg_inv

theorem State.lumLatch_inv (s : State) (l : Lane) (hs : Safety.Keeps que s) : Safety.Keeps que (State.lumLatch s l) := by
  unfold State.lumLatch; dsimp only
  repeat' with_reducible first | assumption | apply State.setLum_inv | apply State.lumLatchNode_inv | (apply inv_foldl <;> intros) | (apply inv_ite <;> intros) | (refine inv_of_kept ?_; dsimp only; refine kept_of_inv ?_) | (refine inv_of_kept ?_; dsimp only; first | refine kept_fewer _ ?_ | refine kept_marks _ ?_ | refine kept_tick ?_) | split

theorem State.lumMove_inv (s : State) (p : Nat) (src dst : Lane) (hs : Safety.Keeps que s) : Safety.Keeps que (State.lumMove s p src dst) := by
  unfold State.lumMove; dsimp only
  repeat' with_reducible first | assumption | apply State.wr_inv | apply State.setLum_inv | (apply inv_foldl <;> intros)

theorem State.lumOwner_inv (s : State) (p : Nat) (hs : Safety.Keeps que s) : Safety.Keeps que (State.lumOwner s p) := by
  unfold State.lumOwner; dsimp only
  repeat' with_reducible first | assumption | apply State.lumChanged_inv | (apply inv_foldl <;> intros) | (apply inv_ite <;> intros) | (refine inv_of_kept ?_; dsimp only; refine kept_of_inv ?_) | (refine inv_of_kept ?_; dsimp only; first | refine kept_fewer _ ?_ | refine kept_marks _ ?_ | refine kept_tick ?_) | split

theorem State.lumStart_inv (s : State) (l : Lane) (hs : Safety.Keeps que s) : Safety.Keeps que (State.lumStart s l) := by
  unfold State.lumStart
  repeat' with_reducible first | assumption | apply State.fset_inv | (apply State.forPorts_inv <;> intros) | apply State.setDstate_inv | apply State.lumForget_inv | apply State.lumArrive_inv

end Sys2Proof.Machine
end

