-- ==== Sys2Proof/Laws/InvPortOps.lean ====
section
/-! SUPPORT. The invariant under what Machine/PortOps.lean does. -/

namespace Sys2Proof.Machine
open Sys2Proof

variable {que : List Instr}

theorem State.showLimit_inv (s : State) (p : Nat) (hs : Safety.Keeps que s) : Safety.Keeps que (State.showLimit s p) := by
  unfold State.showLimit
  repeat' with_reducible first | assumption | apply State.fsetB_inv

theorem State.showV_inv (s : State) (p : Nat) (hs : Safety.Keeps que s) : Safety.Keeps que (State.showV s p) := by
  unfold State.showV; dsimp only
  repeat' with_reducible first | assumption | apply State.fset_inv | apply State.fsetB_inv

theorem State.retarget_inv (s : State) (p : Nat) (hs : Safety.Keeps que s) : Safety.Keeps que (State.retarget s p) := by
  unfold State.retarget
  repeat' with_reducible first | assumption | apply State.fset_inv | (apply inv_ite <;> intros)

theorem State.ceiling_inv (s : State) (hs : Safety.Keeps que s) : Safety.Keeps que (State.ceiling s) := by
  unfold State.ceiling; dsimp only
  repeat' with_reducible first | assumption | apply State.setPortX_inv | (apply State.forPorts_inv <;> intros) | apply State.showV_inv | apply State.retarget_inv | (apply inv_ite <;> intros) | (refine inv_of_kept ?_; dsimp only; refine kept_of_inv ?_) | (refine inv_of_kept ?_; dsimp only; first | refine kept_fewer _ ?_ | refine kept_marks _ ?_ | refine kept_tick ?_) | split

theorem State.adopt_inv (s : State) (p : Nat) (hs : Safety.Keeps que s) : Safety.Keeps que (State.adopt s p) := by
  unfold State.adopt; dsimp only
  repeat' with_reducible first | assumption | apply State.fset_inv | (apply inv_ite <;> intros)

theorem State.toDetect_inv (s : State) (p : Nat) (ps : PairSet) (hs : Safety.Keeps que s) : Safety.Keeps que (State.toDetect s p ps) := by
  unfold State.toDetect; dsimp only
  repeat' with_reducible first | assumption | apply State.fset_inv | apply State.setPortX_inv | apply State.setPst_inv | apply State.setBoth_inv | apply State.adopt_inv | (apply inv_ite <;> intros)

theorem State.portStart_inv (s : State) (p : Nat) (hs : Safety.Keeps que s) : Safety.Keeps que (State.portStart s p) := by
  unfold State.portStart; dsimp only
  repeat' with_reducible first | assumption | apply State.setPortX_inv | apply State.setBoth_inv | apply State.adopt_inv | (apply inv_ite <;> intros)

theorem State.reason_inv (s : State) (p r : Nat) (hs : Safety.Keeps que s) : Safety.Keeps que (State.reason s p r) := by
  unfold State.reason; dsimp only
  repeat' with_reducible first | assumption | apply State.fset_inv | (apply inv_ite <;> intros)

theorem State.faultEvent_inv (s : State) (p r : Nat) (hs : Safety.Keeps que s) : Safety.Keeps que (State.faultEvent s p r) := by
  unfold State.faultEvent
  repeat' with_reducible first | assumption | apply State.event_inv | (apply inv_ite <;> intros)

theorem State.countFault_inv (s : State) (p : Nat) (hs : Safety.Keeps que s) : Safety.Keeps que (State.countFault s p) := by
  unfold State.countFault; dsimp only
  repeat' with_reducible first | assumption | apply State.finc_inv | apply State.setPortX_inv

theorem State.weirEnd_inv (s : State) (p trip : Nat) (hs : Safety.Keeps que s) : Safety.Keeps que (State.weirEnd s p trip) := by
  unfold State.weirEnd; dsimp only
  repeat' with_reducible first | assumption | apply State.fset_inv | apply State.event_inv | apply State.setPortX_inv | apply State.faultEvent_inv | (apply inv_ite <;> intros)

theorem State.depower_inv (s : State) (p : Nat) (ps : PairSet) (st trip : Nat) (hs : Safety.Keeps que s) : Safety.Keeps que (State.depower s p ps st trip) := by
  unfold State.depower; dsimp only
  repeat' with_reducible first | assumption | apply State.fset_inv | apply State.setPortX_inv | apply State.setPst_inv | apply State.rateAbandon_inv | apply State.lumNone_inv | apply State.showLimit_inv | apply State.showV_inv | apply State.weirEnd_inv | apply State.measDue_inv | (apply inv_ite <;> intros)

theorem State.removeFault_inv (s : State) (p : Nat) (ps : PairSet) (r trip : Nat) (hs : Safety.Keeps que s) : Safety.Keeps que (State.removeFault s p ps r trip) := by
  unfold State.removeFault; dsimp only
  repeat' with_reducible first | assumption | apply State.setPortX_inv | apply State.adopt_inv | apply State.reason_inv | apply State.faultEvent_inv | apply State.countFault_inv | apply State.depower_inv | (apply inv_ite <;> intros)

theorem State.removeWeir_inv (s : State) (p : Nat) (pss : List PairSet) (r code : Nat) (hs : Safety.Keeps que s) : Safety.Keeps que (State.removeWeir s p pss r code) := by
  unfold State.removeWeir; dsimp only
  repeat' with_reducible first | assumption | apply State.finc_inv | apply State.event_inv | apply State.setPortX_inv | apply State.adopt_inv | apply State.reason_inv | apply State.faultEvent_inv | apply State.countFault_inv | apply State.depower_inv | (apply inv_foldl <;> intros) | (apply inv_ite <;> intros)

theorem State.shedPort_inv (s : State) (p : Nat) (hs : Safety.Keeps que s) : Safety.Keeps que (State.shedPort s p) := by
  unfold State.shedPort; dsimp only
  repeat' with_reducible first | assumption | apply State.setPortX_inv | apply State.adopt_inv | apply State.reason_inv | apply State.depower_inv | (apply inv_ite <;> intros)

theorem State.adminOff_inv (s : State) (p : Nat) (hs : Safety.Keeps que s) : Safety.Keeps que (State.adminOff s p) := by
  unfold State.adminOff; dsimp only
  repeat' with_reducible first | assumption | apply State.fset_inv | apply State.setPortX_inv | apply State.adopt_inv | apply State.reason_inv | apply State.depower_inv | (apply inv_ite <;> intros)

theorem State.portEnable_inv (s : State) (p : Nat) (hs : Safety.Keeps que s) : Safety.Keeps que (State.portEnable s p) := by
  unfold State.portEnable
  repeat' with_reducible first | assumption | apply State.portStart_inv | apply State.adminOff_inv | (apply inv_ite <;> intros)

theorem State.portRequest_inv (s : State) (p : Nat) (on : Bool) (hs : Safety.Keeps que s) : Safety.Keeps que (State.portRequest s p on) := by
  unfold State.portRequest
  repeat' with_reducible first | assumption | apply State.fsetB_inv | apply State.portEnable_inv

theorem State.portSafe_inv (s : State) (p : Nat) (hs : Safety.Keeps que s) : Safety.Keeps que (State.portSafe s p) := by
  unfold State.portSafe; dsimp only
  repeat' with_reducible first | assumption | apply State.setPortX_inv | apply State.reason_inv | apply State.depower_inv | (apply inv_ite <;> intros)

theorem State.measSkip_inv (s : State) (p : Nat) (hs : Safety.Keeps que s) : Safety.Keeps que (State.measSkip s p) := by
  unfold State.measSkip; dsimp only
  repeat' with_reducible first | assumption | apply State.fset_inv | apply State.finc_inv | apply State.setPortX_inv

theorem State.measDue_inv (s : State) (p : Nat) (hs : Safety.Keeps que s) : Safety.Keeps que (State.measDue s p) := by
  unfold State.measDue; dsimp only
  repeat' with_reducible first | assumption | apply State.setPortX_inv | apply State.measSkip_inv | (apply inv_ite <;> intros)

theorem State.portRestart_inv (s : State) (p : Nat) (hs : Safety.Keeps que s) : Safety.Keeps que (State.portRestart s p) := by
  unfold State.portRestart; dsimp only
  repeat' with_reducible first | assumption | apply State.fset_inv | apply State.toDetect_inv | (apply inv_foldl <;> intros) | (apply inv_ite <;> intros)

theorem State.portCtrlChanged_inv (s : State) (p : Nat) (hs : Safety.Keeps que s) : Safety.Keeps que (State.portCtrlChanged s p) := by
  unfold State.portCtrlChanged
  repeat' with_reducible first | assumption | apply State.showV_inv | apply State.retarget_inv | apply State.portEnable_inv

end Sys2Proof.Machine
end

