-- ==== Sys2Proof/Laws/InvAllocOps.lean ====
section
/-! SUPPORT. The invariant under what Machine/AllocOps.lean does. -/

namespace Sys2Proof.Machine
open Sys2Proof

variable {que : List Instr}

theorem State.setDeg_inv (s : State) (k : Nat) (on : Bool) (hs : Safety.Keeps que s) : Safety.Keeps que (State.setDeg s k on) := by
  unfold State.setDeg; dsimp only
  repeat' with_reducible first | assumption | (refine inv_of_kept ?_; dsimp only; refine kept_of_inv ?_)

theorem State.sluEnergy_inv (s : State) (hs : Safety.Keeps que s) : Safety.Keeps que (State.sluEnergy s) := by
  unfold State.sluEnergy; dsimp only
  repeat' with_reducible first | assumption | apply State.fsat_inv

theorem State.sluFault_inv (s : State) (hs : Safety.Keeps que s) : Safety.Keeps que (State.sluFault s) := by
  unfold State.sluFault
  repeat' with_reducible first | assumption | apply State.event_inv

theorem State.sluJudge_inv (s : State) (hs : Safety.Keeps que s) : Safety.Keeps que (State.sluJudge s) := by
  unfold State.sluJudge
  repeat' with_reducible first | assumption | apply State.fset_inv | apply State.setDeg_inv | apply State.sluFault_inv | (apply inv_ite <;> intros)

theorem State.portpwrUp_inv (s : State) (hs : Safety.Keeps que s) : Safety.Keeps que (State.portpwrUp s) := by
  unfold State.portpwrUp
  repeat' with_reducible first | assumption | apply State.setInReset_inv | apply State.sluJudge_inv

theorem State.sluVmax_inv (s : State) (hs : Safety.Keeps que s) : Safety.Keeps que (State.sluVmax s) := by
  unfold State.sluVmax; dsimp only
  repeat' with_reducible first | assumption | apply State.fset_inv

theorem shedLoop_inv (b : Nat) (l : List Nat) (r d : Nat) (s : State) (k : Nat) (hs : Safety.Keeps que s) : Safety.Keeps que (shedLoop b l r d s k).1 := by
  induction l generalizing r d s k with
  | nil => exact hs
  | cons p ps ih =>
    unfold shedLoop
    split
    · exact hs
    · exact ih _ _ _ _ (State.shedPort_inv _ _ hs)

theorem State.allocShed_inv (s : State) (cause : Nat) (hs : Safety.Keeps que s) : Safety.Keeps que (State.allocShed s cause) := by
  unfold State.allocShed; dsimp only
  repeat' with_reducible first | assumption | apply State.fset_inv | apply State.fsetB_inv | apply State.fadd_inv | apply State.event_inv | apply shedLoop_inv | (apply inv_ite <;> intros) | (refine inv_of_kept ?_; dsimp only; refine kept_of_inv ?_)

theorem State.allocGrant_inv (s : State) (p : Nat) (hs : Safety.Keeps que s) : Safety.Keeps que (State.allocGrant s p) := by
  unfold State.allocGrant; dsimp only
  repeat' with_reducible first | assumption | apply State.fset_inv | apply State.event_inv | apply State.setPortX_inv | (apply inv_ite <;> intros) | (refine inv_of_kept ?_; dsimp only; refine kept_of_inv ?_)

theorem State.allocReport_inv (s : State) (p st : Nat) (hs : Safety.Keeps que s) : Safety.Keeps que (State.allocReport s p st) := by
  unfold State.allocReport; dsimp only
  repeat' with_reducible first | assumption | apply State.setPortX_inv | apply State.toDetect_inv | (apply inv_foldl <;> intros) | (apply inv_ite <;> intros)

theorem grantLoop_inv (st : Nat) (f : State → Nat → State) (hf : ∀ s p, Safety.Keeps que s → Safety.Keeps que (f s p)) (l : List Nat) (r : State × Nat × Bool)
    (hs : Safety.Keeps que r.1) : Safety.Keeps que (grantLoop st f l r).1 := by
  induction l generalizing r with
  | nil => exact hs
  | cons p ps ih =>
    obtain ⟨s, free, blocked⟩ := r
    unfold grantLoop
    dsimp only
    split
    · exact hs
    · split
      · exact ih _ (hf _ _ hs)
      · exact hs

theorem State.allocServe_inv (s : State) (hs : Safety.Keeps que s) : Safety.Keeps que (State.allocServe s) := by
  unfold State.allocServe; dsimp only
  repeat' with_reducible first | assumption | apply State.free_inv | apply State.queued_inv | apply State.allocGrant_inv | apply State.allocReport_inv | (apply grantLoop_inv <;> intros) | (apply inv_foldl <;> intros) | (apply inv_ite <;> intros) | (refine inv_of_kept ?_; dsimp only; refine kept_of_inv ?_)

theorem State.portMeas_inv (s : State) (m : PortMeas) (hs : Safety.Keeps que s) : Safety.Keeps que (State.portMeas s m) := by
  unfold State.portMeas; dsimp only
  repeat' with_reducible first | assumption | apply State.fset_inv | apply State.fsetB_inv | apply State.fsat_inv | apply State.setPortX_inv | apply State.showLimit_inv | (apply inv_ite <;> intros)

theorem State.sluSpent_inv (s : State) (hs : Safety.Keeps que s) : Safety.Keeps que (State.sluSpent s) := by
  unfold State.sluSpent
  repeat' with_reducible first | assumption | apply State.fset_inv | (apply inv_ite <;> intros)

theorem State.entryMeas_inv (s : State) (m : EntryMeas) (hs : Safety.Keeps que s) : Safety.Keeps que (State.entryMeas s m) := by
  unfold State.entryMeas; dsimp only
  repeat' with_reducible first | assumption | apply State.fset_inv | apply State.ceiling_inv | apply State.sluEnergy_inv | apply State.sluVmax_inv | apply State.sluSpent_inv

theorem State.allocDip_inv (s : State) (hs : Safety.Keeps que s) : Safety.Keeps que (State.allocDip s) := by
  unfold State.allocDip; dsimp only
  repeat' with_reducible first | assumption | apply State.fset_inv | apply State.fsetB_inv | apply State.fsat_inv | apply State.event_inv | (apply State.forPorts_inv <;> intros) | (apply inv_ite <;> intros) | (refine inv_of_kept ?_; dsimp only; refine kept_of_inv ?_)

theorem State.pfwPorts_inv (s : State) (cause : Nat) (hs : Safety.Keeps que s) : Safety.Keeps que (State.pfwPorts s cause) := by
  unfold State.pfwPorts; dsimp only
  repeat' with_reducible first | assumption | apply State.fset_inv | apply State.finc_inv | apply State.event_inv | (apply State.forPorts_inv <;> intros) | apply State.shedPort_inv | apply State.measSkip_inv | (apply inv_ite <;> intros) | (refine inv_of_kept ?_; dsimp only; refine kept_of_inv ?_)

theorem State.rideStop_inv (s : State) (shed : Bool) (hs : Safety.Keeps que s) : Safety.Keeps que (State.rideStop s shed) := by
  unfold State.rideStop; dsimp only
  repeat' with_reducible first | assumption | apply State.fsat_inv | (apply State.forPorts_inv <;> intros) | apply State.shedPort_inv | (apply inv_ite <;> intros) | (refine inv_of_kept ?_; dsimp only; refine kept_of_inv ?_)

end Sys2Proof.Machine
end

