-- ==== Sys2Proof/Laws/InvEthOps.lean ====
section
/-! SUPPORT. The invariant under what Machine/EthOps.lean does. -/

namespace Sys2Proof.Machine
open Sys2Proof

variable {que : List Instr}

theorem State.pauseEnd_inv (s : State) (k : Nat) (hs : Safety.Keeps que s) : Safety.Keeps que (State.pauseEnd s k) := by
  unfold State.pauseEnd; dsimp only
  repeat' with_reducible first | assumption | apply State.fset_inv | apply State.setEthX_inv | apply State.cnt_inv | (apply inv_ite <;> intros)

theorem State.linkDown_inv (s : State) (k : Nat) (hs : Safety.Keeps que s) : Safety.Keeps que (State.linkDown s k) := by
  unfold State.linkDown; dsimp only
  repeat' with_reducible first | assumption | apply State.fset_inv | apply State.event_inv | apply State.setEthX_inv | apply State.cnt_inv | apply State.lpiLeave_inv | apply State.dropQueue_inv | apply State.lumNone_inv | apply State.pauseEnd_inv | (apply inv_ite <;> intros)

theorem State.phyDown_inv (s : State) (hs : Safety.Keeps que s) : Safety.Keeps que (State.phyDown s) := by
  unfold State.phyDown
  repeat' with_reducible first | assumption | apply State.rateAbandon_inv | apply State.linkDown_inv | (apply inv_foldl <;> intros) | (apply inv_ite <;> intros)

theorem State.rateBegin_inv (s : State) (k speed : Nat) (hs : Safety.Keeps que s) : Safety.Keeps que (State.rateBegin s k speed) := by
  unfold State.rateBegin; dsimp only
  repeat' with_reducible first | assumption | apply State.setEthX_inv | apply State.lpiLeave_inv

theorem State.rateRaise_inv (s : State) (k : Nat) (hs : Safety.Keeps que s) : Safety.Keeps que (State.rateRaise s k) := by
  unfold State.rateRaise
  repeat' with_reducible first | assumption | apply State.rateBegin_inv | (apply inv_ite <;> intros)

theorem State.ethRelink_inv (s : State) (k : Nat) (hs : Safety.Keeps que s) : Safety.Keeps que (State.ethRelink s k) := by
  unfold State.ethRelink
  repeat' with_reducible first | assumption | apply State.linkDown_inv | (apply inv_ite <;> intros)

theorem State.ethSnap_inv (s : State) (k : Nat) (hs : Safety.Keeps que s) : Safety.Keeps que (State.ethSnap s k) := by
  unfold State.ethSnap
  repeat' with_reducible first | assumption | apply State.wr_inv | (apply inv_foldl <;> intros)

theorem State.ptpTo_inv (s : State) (n : Nat) (hs : Safety.Keeps que s) : Safety.Keeps que (State.ptpTo s n) := by
  unfold State.ptpTo; dsimp only
  repeat' with_reducible first | assumption | apply State.fset_inv | apply State.event_inv | (apply inv_ite <;> intros)

theorem State.ptpSet_inv (s : State) (rate by_ : Int) (hs : Safety.Keeps que s) : Safety.Keeps que (State.ptpSet s rate by_) := by
  unfold State.ptpSet; dsimp only
  repeat' with_reducible first | assumption | (refine inv_of_kept ?_; dsimp only; refine kept_of_inv ?_)

theorem State.ptpGm_inv (s : State) (uplink : Bus) (gm steps : Nat) (hs : Safety.Keeps que s) : Safety.Keeps que (State.ptpGm s uplink gm steps) := by
  unfold State.ptpGm; dsimp only
  repeat' with_reducible first | assumption | apply State.fset_inv | apply State.event_inv | (apply inv_ite <;> intros)

theorem State.ptpEnable_inv (s : State) (hs : Safety.Keeps que s) : Safety.Keeps que (State.ptpEnable s) := by
  unfold State.ptpEnable
  repeat' with_reducible first | assumption | apply State.ptpTo_inv | (apply inv_ite <;> intros)

theorem State.ptpSend_inv (s : State) (k kind : Nat) (hs : Safety.Keeps que s) : Safety.Keeps que (State.ptpSend s k kind) := by
  unfold State.ptpSend
  repeat' with_reducible first | assumption | apply State.send_inv | apply State.cnt_inv | apply State.cntFrame_inv | apply State.octets_inv | (apply inv_ite <;> intros)

theorem State.ptpArrive_inv (s : State) (k : Nat) (u : List Byte) (hs : Safety.Keeps que s) : Safety.Keeps que (State.ptpArrive s k u) := by
  unfold State.ptpArrive; dsimp only
  repeat' with_reducible first | assumption | apply State.cnt_inv | apply State.ptpSend_inv | (apply inv_ite <;> intros)

theorem State.rateTenth_inv (s : State) (k : Nat) (hs : Safety.Keeps que s) : Safety.Keeps que (State.rateTenth s k) := by
  unfold State.rateTenth; dsimp only
  repeat' with_reducible first | assumption | apply State.setEthX_inv | apply State.lpiCount_inv

theorem State.rateSecond_inv (s : State) (k : Nat) (hs : Safety.Keeps que s) : Safety.Keeps que (State.rateSecond s k) := by
  unfold State.rateSecond; dsimp only
  repeat' with_reducible first | assumption | apply State.fsat_inv | apply State.setEthX_inv

theorem State.ethClock_inv (s : State) (t : Nat) (hs : Safety.Keeps que s) : Safety.Keeps que (State.ethClock s t) := by
  unfold State.ethClock; dsimp only
  repeat' with_reducible first | assumption | apply State.ptpSend_inv | apply State.rateTenth_inv | apply State.rateSecond_inv | (apply inv_foldl <;> intros) | (apply inv_ite <;> intros)

end Sys2Proof.Machine
end

