-- ==== Sys2Proof/Laws/InvAlloc.lean ====
section
/-! SUPPORT. The invariant under what Machine/Alloc.lean does. -/

namespace Sys2Proof.Machine
open Sys2Proof

variable {que : List Instr}

theorem execMateNLowFiltered_inv (s : State) (hs : Safety.Keeps que s) : ∃ t, execMateNLowFiltered s = .next t ∧ Safety.Keeps que t := by
  unfold execMateNLowFiltered; split
  · exact ⟨_, rfl, hs⟩
  refine ⟨_, rfl, ?_⟩
  repeat' with_reducible first | assumption | apply State.fset_inv

theorem execBusPresent_inv (bus : Bus) (mv : BitVec 16) (s : State) (hs : Safety.Keeps que s) : ∃ t, execBusPresent bus mv s = .next t ∧ Safety.Keeps que t := by
  unfold execBusPresent; split
  · exact ⟨_, rfl, hs⟩
  refine ⟨_, rfl, ?_⟩
  repeat' with_reducible first | assumption | apply State.fset_inv | apply State.ceiling_inv | (apply inv_ite <;> intros)

theorem execBusLost_inv (bus : Bus) (mv : BitVec 16) (s : State) (hs : Safety.Keeps que s) : ∃ t, execBusLost bus mv s = .next t ∧ Safety.Keeps que t := by
  refine ⟨_, rfl, ?_⟩
  repeat' with_reducible first | assumption | apply State.fset_inv | apply State.event_inv | apply State.ceiling_inv | (apply inv_ite <;> intros)

theorem execBusOvervoltage_inv (bus : Bus) (mv : BitVec 16) (s : State) (hs : Safety.Keeps que s) : ∃ t, execBusOvervoltage bus mv s = .next t ∧ Safety.Keeps que t := by
  refine ⟨_, rfl, ?_⟩
  repeat' with_reducible first | assumption | apply State.fset_inv | apply State.event_inv | apply State.ceiling_inv

theorem execBusOvervoltageCleared_inv (bus : Bus) (s : State) (hs : Safety.Keeps que s) : ∃ t, execBusOvervoltageCleared bus s = .next t ∧ Safety.Keeps que t := by
  unfold execBusOvervoltageCleared; split
  · exact ⟨_, rfl, hs⟩
  refine ⟨_, rfl, ?_⟩
  repeat' with_reducible first | assumption | apply State.fset_inv

theorem execBusReversed_inv (bus : Bus) (s : State) (hs : Safety.Keeps que s) : ∃ t, execBusReversed bus s = .next t ∧ Safety.Keeps que t := by
  refine ⟨_, rfl, ?_⟩
  repeat' with_reducible first | assumption | apply State.fset_inv | apply State.event_inv | apply State.ceiling_inv

theorem execBusReversalCleared_inv (bus : Bus) (s : State) (hs : Safety.Keeps que s) : ∃ t, execBusReversalCleared bus s = .next t ∧ Safety.Keeps que t := by
  unfold execBusReversalCleared; split
  · exact ⟨_, rfl, hs⟩
  refine ⟨_, rfl, ?_⟩
  repeat' with_reducible first | assumption | apply State.fset_inv

theorem execThermalDerateChange_inv (inlet : BitVec 16) (s : State) (hs : Safety.Keeps que s) : ∃ t, execThermalDerateChange inlet s = .next t ∧ Safety.Keeps que t := by
  unfold execThermalDerateChange; split
  · exact ⟨_, rfl, hs⟩
  refine ⟨_, rfl, ?_⟩; dsimp only
  repeat' with_reducible first | assumption | apply State.fset_inv | apply State.event_inv | (apply inv_ite <;> intros) | (refine inv_of_kept ?_; dsimp only; refine kept_of_inv ?_)

theorem execFanFail_inv (fan : Fin 4) (s : State) (hs : Safety.Keeps que s) : ∃ t, execFanFail fan s = .next t ∧ Safety.Keeps que t := by
  unfold execFanFail; split
  · exact ⟨_, rfl, hs⟩
  refine ⟨_, rfl, ?_⟩; dsimp only
  repeat' with_reducible first | assumption | apply State.fset_inv | apply State.event_inv | (apply inv_ite <;> intros)

theorem execAllocTick_inv (m : EntryMeas) (ports : List PortMeas) (s : State) (hs : Safety.Keeps que s) : ∃ t, execAllocTick m ports s = .next t ∧ Safety.Keeps que t := by
  refine ⟨_, rfl, ?_⟩; dsimp only
  repeat' with_reducible first | assumption | apply State.fset_inv | apply State.fsetB_inv | apply State.allocShed_inv | apply State.allocServe_inv | apply State.portMeas_inv | apply State.entryMeas_inv | apply State.allocDip_inv | (apply inv_foldl <;> intros) | (apply inv_ite <;> intros) | (refine inv_of_kept ?_; dsimp only; refine kept_of_inv ?_) | (refine inv_of_kept ?_; dsimp only; first | refine kept_fewer _ ?_ | refine kept_marks _ ?_ | refine kept_tick ?_) | split

theorem execDipRideExpired_inv (cause : Fin 4) (s : State) (hs : Safety.Keeps que s) : ∃ t, execDipRideExpired cause s = .next t ∧ Safety.Keeps que t := by
  refine ⟨_, rfl, ?_⟩
  repeat' with_reducible first | assumption | apply State.allocShed_inv | (apply inv_ite <;> intros)

theorem execEarmarkExpired_inv (port : PortNo) (s : State) (hs : Safety.Keeps que s) : ∃ t, execEarmarkExpired port s = .next t ∧ Safety.Keeps que t := by
  unfold execEarmarkExpired; split
  · exact ⟨_, rfl, hs⟩
  refine ⟨_, rfl, ?_⟩; dsimp only
  repeat' with_reducible first | assumption | apply State.setPortX_inv | (apply inv_ite <;> intros)

theorem execShedRestoreWaitExpired_inv (s : State) (hs : Safety.Keeps que s) : ∃ t, execShedRestoreWaitExpired s = .next t ∧ Safety.Keeps que t := by
  refine ⟨_, rfl, ?_⟩; dsimp only
  repeat' with_reducible first | assumption | apply State.allocServe_inv | (apply inv_ite <;> intros) | (refine inv_of_kept ?_; dsimp only; refine kept_of_inv ?_)

theorem execSluiceDischargeStart_inv (s : State) (hs : Safety.Keeps que s) : ∃ t, execSluiceDischargeStart s = .next t ∧ Safety.Keeps que t := by
  refine ⟨_, rfl, ?_⟩
  repeat' with_reducible first | assumption | apply State.fset_inv | (apply inv_ite <;> intros)

theorem execSluiceDischargeStop_inv (s : State) (hs : Safety.Keeps que s) : ∃ t, execSluiceDischargeStop s = .next t ∧ Safety.Keeps que t := by
  refine ⟨_, rfl, ?_⟩
  repeat' with_reducible first | assumption | apply State.fset_inv

theorem execSluiceFull_inv (s : State) (hs : Safety.Keeps que s) : ∃ t, execSluiceFull s = .next t ∧ Safety.Keeps que t := by
  unfold execSluiceFull; split
  · exact ⟨_, rfl, hs⟩
  refine ⟨_, rfl, ?_⟩
  repeat' with_reducible first | assumption | apply State.fset_inv

theorem execSluiceChargeResume_inv (s : State) (hs : Safety.Keeps que s) : ∃ t, execSluiceChargeResume s = .next t ∧ Safety.Keeps que t := by
  unfold execSluiceChargeResume; split
  · exact ⟨_, rfl, hs⟩
  refine ⟨_, rfl, ?_⟩
  repeat' with_reducible first | assumption | apply State.fset_inv | apply State.fsetB_inv

theorem execReserveOkSet_inv (s : State) (hs : Safety.Keeps que s) : ∃ t, execReserveOkSet s = .next t ∧ Safety.Keeps que t := by
  unfold execReserveOkSet; split
  · exact ⟨_, rfl, hs⟩
  refine ⟨_, rfl, ?_⟩; dsimp only
  repeat' with_reducible first | assumption | apply State.fset_inv | apply State.setDeg_inv | (refine inv_of_kept ?_; dsimp only; refine kept_of_inv ?_)

theorem execReserveLost_inv (s : State) (hs : Safety.Keeps que s) : ∃ t, execReserveLost s = .next t ∧ Safety.Keeps que t := by
  unfold execReserveLost; split
  · exact ⟨_, rfl, hs⟩
  refine ⟨_, rfl, ?_⟩; dsimp only
  repeat' with_reducible first | assumption | apply State.fset_inv | apply State.event_inv | (apply inv_ite <;> intros)

theorem execReserveGrantTimeout_inv (s : State) (hs : Safety.Keeps que s) : ∃ t, execReserveGrantTimeout s = .next t ∧ Safety.Keeps que t := by
  unfold execReserveGrantTimeout; split
  · exact ⟨_, rfl, hs⟩
  refine ⟨_, rfl, ?_⟩; dsimp only
  repeat' with_reducible first | assumption | apply State.event_inv | apply State.setDeg_inv | (apply inv_ite <;> intros) | (refine inv_of_kept ?_; dsimp only; refine kept_of_inv ?_)

theorem State.takeCap_inv (s : State) (c : Nat) (hs : Safety.Keeps que s) : Safety.Keeps que (State.takeCap s c) := by
  unfold State.takeCap; dsimp only
  repeat' with_reducible first | assumption | apply State.fset_inv | apply State.sysPage_inv | apply State.event_inv | apply State.sluEnergy_inv | apply State.sluJudge_inv | (apply inv_ite <;> intros) | (refine inv_of_kept ?_; dsimp only; refine kept_of_inv ?_)

theorem execSluiceCapMeasured_inv (c : BitVec 16) (s : State) (hs : Safety.Keeps que s) : ∃ t, execSluiceCapMeasured c s = .next t ∧ Safety.Keeps que t := by
  unfold execSluiceCapMeasured; split
  · exact ⟨_, rfl, hs⟩
  refine ⟨_, rfl, ?_⟩; dsimp only
  repeat' with_reducible first | assumption | apply State.takeCap_inv | (apply inv_ite <;> intros) | (refine inv_of_kept ?_; dsimp only; refine kept_of_inv ?_)

theorem execSluiceHot_inv (temp : BitVec 16) (s : State) (hs : Safety.Keeps que s) : ∃ t, execSluiceHot temp s = .next t ∧ Safety.Keeps que t := by
  unfold execSluiceHot; split
  · exact ⟨_, rfl, hs⟩
  refine ⟨_, rfl, ?_⟩; dsimp only
  repeat' with_reducible first | assumption | apply State.fsetB_inv | apply State.sluEnergy_inv | apply State.sluFault_inv | apply State.sluJudge_inv | apply State.sluVmax_inv | (apply inv_ite <;> intros) | (refine inv_of_kept ?_; dsimp only; refine kept_of_inv ?_)

theorem execSluiceCellFault_inv (present : Bool) (vmax : BitVec 16) (s : State) (hs : Safety.Keeps que s) : ∃ t, execSluiceCellFault present vmax s = .next t ∧ Safety.Keeps que t := by
  unfold execSluiceCellFault; split
  · exact ⟨_, rfl, hs⟩
  refine ⟨_, rfl, ?_⟩; dsimp only
  repeat' with_reducible first | assumption | apply State.fsetB_inv | apply State.sluEnergy_inv | apply State.sluFault_inv | apply State.sluJudge_inv | apply State.sluVmax_inv | (apply inv_ite <;> intros) | (refine inv_of_kept ?_; dsimp only; refine kept_of_inv ?_)

theorem execRideEnd_inv (s : State) (hs : Safety.Keeps que s) : ∃ t, execRideEnd s = .next t ∧ Safety.Keeps que t := by
  unfold execRideEnd; split
  · exact ⟨_, rfl, hs⟩
  refine ⟨_, rfl, ?_⟩
  repeat' with_reducible first | assumption | apply State.rideStop_inv | apply State.phyDown_inv

theorem execPowerFailWarningCleared_inv (s : State) (hs : Safety.Keeps que s) : ∃ t, execPowerFailWarningCleared s = .next t ∧ Safety.Keeps que t := by
  unfold execPowerFailWarningCleared; split
  · exact ⟨_, rfl, hs⟩
  refine ⟨_, rfl, ?_⟩; dsimp only
  repeat' with_reducible first | assumption | apply State.fset_inv | apply State.event_inv | apply State.rideStop_inv | (apply inv_ite <;> intros) | (refine inv_of_kept ?_; dsimp only; refine kept_of_inv ?_)

end Sys2Proof.Machine
end

