-- ==== Sys2Proof/Laws/InvFlowOps.lean ====
section
/-! SUPPORT. The invariant under what Machine/FlowOps.lean does. -/

namespace Sys2Proof.Machine
open Sys2Proof

variable {que : List Instr}

theorem State.setFlowRec_inv (s : State) (slot : Nat) (r : FlowRec) (hs : Safety.Keeps que s) : Safety.Keeps que (State.setFlowRec s slot r) := by
  unfold State.setFlowRec; dsimp only
  repeat' with_reducible first | assumption | (refine inv_of_kept ?_; dsimp only; refine kept_of_inv ?_)

theorem State.setFlowOpen_inv (s : State) (k : Nat) (x : Option (Nat × FlowRec)) (hs : Safety.Keeps que s) : Safety.Keeps que (State.setFlowOpen s k x) := by
  unfold State.setFlowOpen; dsimp only
  repeat' with_reducible first | assumption | (refine inv_of_kept ?_; dsimp only; refine kept_of_inv ?_)

theorem State.flowFlush_inv (s : State) (hs : Safety.Keeps que s) : Safety.Keeps que (State.flowFlush s) := by
  unfold State.flowFlush
  repeat' with_reducible first | assumption | apply State.setFlowRec_inv | (apply inv_foldl <;> intros)

theorem State.flowClose_inv (s : State) (k : Nat) (hs : Safety.Keeps que s) : Safety.Keeps que (State.flowClose s k) := by
  unfold State.flowClose
  repeat' with_reducible first | assumption | apply State.setFlowRec_inv | apply State.setFlowOpen_inv | (refine inv_of_kept ?_; dsimp only; refine kept_of_inv ?_) | (refine inv_of_kept ?_; dsimp only; first | refine kept_fewer _ ?_ | refine kept_marks _ ?_ | refine kept_tick ?_) | split

theorem State.flowEnd_inv (s : State) (k : Nat) (hs : Safety.Keeps que s) : Safety.Keeps que (State.flowEnd s k) := by
  unfold State.flowEnd; dsimp only
  repeat' with_reducible first | assumption | apply State.flowClose_inv | (apply inv_ite <;> intros) | (refine inv_of_kept ?_; dsimp only; refine kept_of_inv ?_)

theorem State.flowStart_inv (s : State) (k : Nat) (hs : Safety.Keeps que s) : Safety.Keeps que (State.flowStart s k) := by
  unfold State.flowStart; dsimp only
  repeat' with_reducible first | assumption | apply State.fset_inv | apply State.event_inv | apply State.setFlowRec_inv | apply State.setFlowOpen_inv | (refine inv_of_kept ?_; dsimp only; refine kept_of_inv ?_) | (refine inv_of_kept ?_; dsimp only; first | refine kept_fewer _ ?_ | refine kept_marks _ ?_ | refine kept_tick ?_) | split

theorem State.flowChanged_inv (s : State) (ext : Bool) (d reg : Nat) (hs : Safety.Keeps que s) : Safety.Keeps que (State.flowChanged s ext d reg) := by
  unfold State.flowChanged; dsimp only
  repeat' with_reducible first | assumption | apply State.flowEnd_inv | (apply inv_ite <;> intros) | (refine inv_of_kept ?_; dsimp only; refine kept_of_inv ?_) | (refine inv_of_kept ?_; dsimp only; first | refine kept_fewer _ ?_ | refine kept_marks _ ?_ | refine kept_tick ?_) | split

theorem State.flowSync_inv (s : State) (hs : Safety.Keeps que s) : Safety.Keeps que (State.flowSync s) := by
  unfold State.flowSync
  repeat' with_reducible first | assumption | apply State.flowChanged_inv | (apply inv_foldl <;> intros)

theorem State.flowMissed_inv (s : State) (k : Nat) (hs : Safety.Keeps que s) : Safety.Keeps que (State.flowMissed s k) := by
  unfold State.flowMissed; dsimp only
  repeat' with_reducible first | assumption | apply State.finc_inv | apply State.setFlowOpen_inv | (refine inv_of_kept ?_; dsimp only; refine kept_of_inv ?_) | (refine inv_of_kept ?_; dsimp only; first | refine kept_fewer _ ?_ | refine kept_marks _ ?_ | refine kept_tick ?_) | split

theorem State.flowSample_inv (s : State) (k : Nat) (w : Option Nat) (hs : Safety.Keeps que s) : Safety.Keeps que (State.flowSample s k w) := by
  unfold State.flowSample; dsimp only
  repeat' with_reducible first | assumption | apply State.setFlowOpen_inv | apply State.flowStart_inv | apply State.flowMissed_inv | (apply inv_ite <;> intros) | (refine inv_of_kept ?_; dsimp only; refine kept_of_inv ?_) | (refine inv_of_kept ?_; dsimp only; first | refine kept_fewer _ ?_ | refine kept_marks _ ?_ | refine kept_tick ?_) | split

theorem State.flowFreeze_inv (s : State) (hs : Safety.Keeps que s) : Safety.Keeps que (State.flowFreeze s) := by
  unfold State.flowFreeze
  repeat' with_reducible first | assumption | apply State.fset_inv | apply State.flowFlush_inv | (apply inv_ite <;> intros)

theorem State.flowRelease_inv (s : State) (hs : Safety.Keeps que s) : Safety.Keeps que (State.flowRelease s) := by
  unfold State.flowRelease; dsimp only
  repeat' with_reducible first | assumption | apply State.fset_inv | apply State.flowClose_inv | (apply inv_foldl <;> intros) | (refine inv_of_kept ?_; dsimp only; refine kept_of_inv ?_)

theorem State.flowClear_inv (s : State) (hs : Safety.Keeps que s) : ∀ t, State.flowClear s = some t → Safety.Keeps que t := by
  intro t ht; unfold State.flowClear at ht; (try dsimp only at ht); repeat' split at ht
  all_goals first | obtain rfl := Option.some.inj ht | simp only [reduceCtorEq] at ht
  repeat' with_reducible first | assumption | apply State.fset_inv | apply State.event_inv | (refine inv_of_kept ?_; dsimp only; refine kept_of_inv ?_)

theorem State.flowPowerOn_inv (s : State) (bad : List (Fin 1408)) (hs : Safety.Keeps que s) : Safety.Keeps que (State.flowPowerOn s bad) := by
  unfold State.flowPowerOn; dsimp only
  repeat' with_reducible first | assumption | apply State.fset_inv | apply State.event_inv | apply State.setFlowRec_inv | apply State.setFlowOpen_inv | apply State.flowRelease_inv | (apply inv_foldl <;> intros) | (apply inv_ite <;> intros) | (refine inv_of_kept ?_; dsimp only; refine kept_of_inv ?_)

end Sys2Proof.Machine
end

