-- ==== Sys2Proof/Laws/InvCanOps.lean ====
section
/-! SUPPORT. The invariant under what Machine/CanOps.lean does. -/

namespace Sys2Proof.Machine
open Sys2Proof

variable {que : List Instr}

theorem State.setCanObj_inv (s : State) (n o : Nat) (x : CanObj) (hs : Safety.Keeps que s) : Safety.Keeps que (State.setCanObj s n o x) := by
  unfold State.setCanObj; dsimp only
  repeat' with_reducible first | assumption | (refine inv_of_kept ?_; dsimp only; refine kept_of_inv ?_)

theorem State.canSetPending_inv (s : State) (n o : Nat) (v : Bool) (hs : Safety.Keeps que s) : Safety.Keeps que (State.canSetPending s n o v) := by
  unfold State.canSetPending
  repeat' with_reducible first | assumption | apply State.fsetB_inv

theorem State.canPend_inv (s : State) (n o : Nat) (rep : Bool) (hs : Safety.Keeps que s) : Safety.Keeps que (State.canPend s n o rep) := by
  unfold State.canPend; dsimp only
  repeat' with_reducible first | assumption | apply State.setCanObj_inv | apply State.canSetPending_inv

theorem State.canWithdraw_inv (s : State) (n : Nat) (hs : Safety.Keeps que s) : Safety.Keeps que (State.canWithdraw s n) := by
  unfold State.canWithdraw
  repeat' with_reducible first | assumption | apply State.finc_inv | apply State.canSetPending_inv | (apply inv_foldl <;> intros) | (apply inv_ite <;> intros)

theorem State.setCanByte_inv (s : State) (n o i v : Nat) (hs : Safety.Keeps que s) : Safety.Keeps que (State.setCanByte s n o i v) := by
  unfold State.setCanByte; dsimp only
  repeat' with_reducible first | assumption | apply State.wr_inv

theorem State.sigWrite_inv (s : State) (n o sig v : Nat) (hs : Safety.Keeps que s) : Safety.Keeps que (State.sigWrite s n o sig v) := by
  unfold State.sigWrite; dsimp only
  repeat' with_reducible first | assumption | apply State.setCanObj_inv | apply State.setCanByte_inv | (apply inv_foldl <;> intros) | (apply inv_ite <;> intros) | (refine inv_of_kept ?_; dsimp only; refine kept_of_inv ?_) | (refine inv_of_kept ?_; dsimp only; first | refine kept_fewer _ ?_ | refine kept_marks _ ?_ | refine kept_tick ?_) | split

theorem State.canStage_inv (s : State) (n o sig v : Nat) (hs : Safety.Keeps que s) : Safety.Keeps que (State.canStage s n o sig v) := by
  unfold State.canStage
  repeat' with_reducible first | assumption | apply State.sigWrite_inv | (apply inv_ite <;> intros)

theorem State.canReleaseOne_inv (s : State) (l : Lane) (cycle n o : Nat) (hs : Safety.Keeps que s) : Safety.Keeps que (State.canReleaseOne s l cycle n o) := by
  unfold State.canReleaseOne; dsimp only
  repeat' with_reducible first | assumption | apply State.fset_inv | apply State.grantReject_inv | apply State.setCanObj_inv | apply State.canPend_inv | (apply inv_ite <;> intros)

theorem State.canRelease_inv (s : State) (l : Lane) (cycle : Nat) (hs : Safety.Keeps que s) : Safety.Keeps que (State.canRelease s l cycle) := by
  unfold State.canRelease
  repeat' with_reducible first | assumption | apply State.canReleaseOne_inv | (apply inv_foldl <;> intros) | (apply inv_ite <;> intros)

theorem State.canEnable_inv (s : State) (n o : Nat) (hs : Safety.Keeps que s) : Safety.Keeps que (State.canEnable s n o) := by
  unfold State.canEnable; dsimp only
  repeat' with_reducible first | assumption | apply State.fset_inv | apply State.regClear_inv | apply State.setCanObj_inv | (apply inv_ite <;> intros)

theorem State.canChanged_inv (s : State) (n o : Nat) (hs : Safety.Keeps que s) : Safety.Keeps que (State.canChanged s n o) := by
  unfold State.canChanged
  repeat' with_reducible first | assumption | apply State.fset_inv | apply State.canSetPending_inv | apply State.canEnable_inv | (apply inv_ite <;> intros) | (refine inv_of_kept ?_; dsimp only; refine kept_of_inv ?_) | (refine inv_of_kept ?_; dsimp only; first | refine kept_fewer _ ?_ | refine kept_marks _ ?_ | refine kept_tick ?_) | split

theorem State.canReconfigEnd_inv (s : State) (hs : Safety.Keeps que s) : Safety.Keeps que (State.canReconfigEnd s) := by
  unfold State.canReconfigEnd; dsimp only
  repeat' with_reducible first | assumption | apply State.fset_inv | apply State.setCanObj_inv | (apply inv_foldl <;> intros) | (apply inv_ite <;> intros)

theorem State.canStateEvent_inv (s : State) (n : Nat) (hs : Safety.Keeps que s) : Safety.Keeps que (State.canStateEvent s n) := by
  unfold State.canStateEvent
  repeat' with_reducible first | assumption | apply State.event_inv

theorem State.canCounts_inv (s : State) (n tec rec : Nat) (hs : Safety.Keeps que s) : Safety.Keeps que (State.canCounts s n tec rec) := by
  unfold State.canCounts; dsimp only
  repeat' with_reducible first | assumption | apply State.fset_inv | apply State.finc_inv | apply State.canWithdraw_inv | apply State.canStateEvent_inv | (apply inv_ite <;> intros)

theorem State.canLeaveInit_inv (s : State) (n : Nat) (hs : Safety.Keeps que s) : Safety.Keeps que (State.canLeaveInit s n) := by
  unfold State.canLeaveInit; dsimp only
  repeat' with_reducible first | assumption | apply State.fset_inv | apply State.event_inv | (apply inv_ite <;> intros)

theorem State.canEnterInit_inv (s : State) (n : Nat) (hs : Safety.Keeps que s) : Safety.Keeps que (State.canEnterInit s n) := by
  unfold State.canEnterInit
  repeat' with_reducible first | assumption | apply State.fset_inv | apply State.canWithdraw_inv | (apply inv_ite <;> intros)

theorem State.canModeTake_inv (s : State) (n : Nat) (hs : Safety.Keeps que s) : Safety.Keeps que (State.canModeTake s n) := by
  unfold State.canModeTake; dsimp only
  repeat' with_reducible first | assumption | (refine inv_of_kept ?_; dsimp only; refine kept_of_inv ?_)

theorem State.canCtrlWritten_inv (s : State) (n : Nat) (hs : Safety.Keeps que s) : Safety.Keeps que (State.canCtrlWritten s n) := by
  unfold State.canCtrlWritten; dsimp only
  repeat' with_reducible first | assumption | apply State.fset_inv | apply State.canLeaveInit_inv | apply State.canEnterInit_inv | apply State.canModeTake_inv | (apply inv_ite <;> intros)

theorem State.canRecover_inv (s : State) (n : Nat) (hs : Safety.Keeps que s) : Safety.Keeps que (State.canRecover s n) := by
  unfold State.canRecover
  repeat' with_reducible first | assumption | apply State.fset_inv | (apply inv_ite <;> intros)

theorem State.canClrStats_inv (s : State) (n : Nat) (hs : Safety.Keeps que s) : Safety.Keeps que (State.canClrStats s n) := by
  unfold State.canClrStats; dsimp only
  repeat' with_reducible first | assumption | apply State.regClear_inv

theorem State.canTxreq_inv (s : State) (n o : Nat) (hs : Safety.Keeps que s) : Safety.Keeps que (State.canTxreq s n o) := by
  unfold State.canTxreq
  repeat' with_reducible first | assumption | apply State.finc_inv | apply State.canPend_inv | (apply inv_ite <;> intros)

theorem State.canReset_inv (s : State) (hs : Safety.Keeps que s) : Safety.Keeps que (State.canReset s) := by
  unfold State.canReset; dsimp only
  repeat' with_reducible first | assumption | apply State.fset_inv | apply State.regClear_inv | (apply inv_foldl <;> intros) | (refine inv_of_kept ?_; dsimp only; refine kept_of_inv ?_)

theorem State.canSafe_inv (s : State) (hs : Safety.Keeps que s) : Safety.Keeps que (State.canSafe s) := by
  unfold State.canSafe
  repeat' with_reducible first | assumption | apply State.fset_inv | (apply inv_foldl <;> intros)

theorem State.canUnsafe_inv (s : State) (hs : Safety.Keeps que s) : Safety.Keeps que (State.canUnsafe s) := by
  unfold State.canUnsafe
  repeat' with_reducible first | assumption | apply State.fset_inv | (apply inv_foldl <;> intros)

theorem State.canLoaded_inv (s : State) (version : Nat) (hs : Safety.Keeps que s) : Safety.Keeps que (State.canLoaded s version) := by
  unfold State.canLoaded; dsimp only
  repeat' with_reducible first | assumption | apply State.fset_inv | apply State.canChanged_inv | apply State.canCtrlWritten_inv | (apply inv_foldl <;> intros) | (apply inv_ite <;> intros)

end Sys2Proof.Machine
end

