-- ==== Sys2Proof/Laws/InvLoopOps.lean ====
section
/-! SUPPORT. The invariant under what Machine/LoopOps.lean does. -/

namespace Sys2Proof.Machine
open Sys2Proof

variable {que : List Instr}

theorem State.setLoopSt_inv (s : State) (l : Lane) (x : LoopSt) (hs : Safety.Keeps que s) : Safety.Keeps que (State.setLoopSt s l x) := by
  unfold State.setLoopSt; dsimp only
  repeat' with_reducible first | assumption | apply State.setLane_inv

theorem State.setLoopX_inv (s : State) (l : Lane) (q : Nat) (x : LoopX) (hs : Safety.Keeps que s) : Safety.Keeps que (State.setLoopX s l q x) := by
  unfold State.setLoopX; dsimp only
  repeat' with_reducible first | assumption | apply State.setLoopSt_inv

theorem State.outField_inv (s : State) (kind len x : Nat) (hs : Safety.Keeps que s) : Safety.Keeps que (State.outField s kind len x).2 := by
  unfold State.outField; dsimp only
  split
  · exact State.free_inv _ (State.free_inv _ hs)
  · exact hs

theorem State.loopDest_inv (s : State) (l : Lane) (q u : Nat) (hs : Safety.Keeps que s) : ∀ t, State.loopDest s l q u = some t → Safety.Keeps que t := by
  intro t ht; unfold State.loopDest at ht; (try dsimp only at ht); repeat' split at ht
  all_goals first | obtain rfl := Option.some.inj ht | simp only [reduceCtorEq] at ht
  repeat' with_reducible first | assumption | apply State.aioWrite_inv | apply State.sigWrite_inv | apply State.outField_inv | apply State.setLoopX_inv

theorem State.loopReject_inv (s : State) (l : Lane) (q : Nat) (hs : Safety.Keeps que s) : Safety.Keeps que (State.loopReject s l q) := by
  unfold State.loopReject; dsimp only
  repeat' with_reducible first | assumption | apply State.grantReject_inv | (apply inv_ite <;> intros)

theorem State.capPut_inv (s : State) (l : Lane) (b i v : Nat) (hs : Safety.Keeps que s) : Safety.Keeps que (State.capPut s l b i v) := by
  unfold State.capPut; dsimp only
  repeat' with_reducible first | assumption | apply State.fset_inv | apply State.setLoopSt_inv | (apply inv_ite <;> intros)

theorem State.testEnd_inv (s : State) (l : Lane) (q code : Nat) (hs : Safety.Keeps que s) : Safety.Keeps que (State.testEnd s l q code) := by
  unfold State.testEnd; dsimp only
  repeat' with_reducible first | assumption | apply State.fset_inv | apply State.event_inv | apply State.setLoopX_inv | (apply inv_foldl <;> intros) | (refine inv_of_kept ?_; dsimp only; refine kept_of_inv ?_) | (refine inv_of_kept ?_; dsimp only; first | refine kept_fewer _ ?_ | refine kept_marks _ ?_ | refine kept_tick ?_) | split

theorem State.testBegin_inv (s : State) (l : Lane) (q frame : Nat) (hs : Safety.Keeps que s) : Safety.Keeps que (State.testBegin s l q frame) := by
  unfold State.testBegin; dsimp only
  repeat' with_reducible first | assumption | apply State.fset_inv | apply State.setLoopX_inv | (apply inv_foldl <;> intros) | (apply inv_ite <;> intros) | (refine inv_of_kept ?_; dsimp only; refine kept_of_inv ?_) | (refine inv_of_kept ?_; dsimp only; first | refine kept_fewer _ ?_ | refine kept_marks _ ?_ | refine kept_tick ?_) | split

theorem State.testRecord_inv (s : State) (l : Lane) (q i y u : Nat) (hs : Safety.Keeps que s) : Safety.Keeps que (State.testRecord s l q i y u) := by
  unfold State.testRecord; dsimp only
  repeat' with_reducible first | assumption | apply State.capPut_inv | apply State.testEnd_inv | (apply inv_ite <;> intros) | (refine inv_of_kept ?_; dsimp only; refine kept_of_inv ?_) | (refine inv_of_kept ?_; dsimp only; first | refine kept_fewer _ ?_ | refine kept_marks _ ?_ | refine kept_tick ?_) | split

theorem State.testStep_inv (s : State) (l : Lane) (q : Nat) (hs : Safety.Keeps que s) : Safety.Keeps que (State.testStep s l q) := by
  unfold State.testStep; dsimp only
  repeat' with_reducible first | assumption | apply State.setLoopX_inv | (apply inv_ite <;> intros) | (refine inv_of_kept ?_; dsimp only; refine kept_of_inv ?_) | (refine inv_of_kept ?_; dsimp only; first | refine kept_fewer _ ?_ | refine kept_marks _ ?_ | refine kept_tick ?_) | split

theorem State.loopGo_inv (s : State) (l : Lane) (q st : Nat) (hs : Safety.Keeps que s) : Safety.Keeps que (State.loopGo s l q st) := by
  unfold State.loopGo; dsimp only
  repeat' with_reducible first | assumption | apply State.fset_inv | apply State.testEnd_inv | (apply inv_ite <;> intros)

theorem State.loopManual_inv (s : State) (l : Lane) (q : Nat) (hs : Safety.Keeps que s) : Safety.Keeps que (State.loopManual s l q) := by
  unfold State.loopManual; dsimp only
  repeat' with_reducible first | assumption | apply State.fset_inv | apply State.setLoopX_inv | apply State.loopGo_inv

theorem State.loopAuto_inv (s : State) (l : Lane) (q preset : Nat) (hs : Safety.Keeps que s) : Safety.Keeps que (State.loopAuto s l q preset) := by
  unfold State.loopAuto; dsimp only
  repeat' with_reducible first | assumption | apply State.setLoopX_inv | apply State.loopGo_inv

theorem State.loopCfg_inv (s : State) (l : Lane) (q : Nat) (hs : Safety.Keeps que s) : Safety.Keeps que (State.loopCfg s l q) := by
  unfold State.loopCfg; dsimp only
  repeat' with_reducible first | assumption | apply State.fset_inv | apply State.setLoopX_inv | apply State.loopGo_inv | apply State.loopManual_inv | apply State.loopAuto_inv | (apply inv_ite <;> intros)

theorem State.loopParam_inv (s : State) (l : Lane) (q : Nat) (hs : Safety.Keeps que s) : Safety.Keeps que (State.loopParam s l q) := by
  unfold State.loopParam; dsimp only
  repeat' with_reducible first | assumption | apply State.setLoopX_inv | (apply inv_ite <;> intros)

theorem State.loopOwned_inv (s : State) (l : Lane) (q : Nat) (hs : Safety.Keeps que s) : Safety.Keeps que (State.loopOwned s l q) := by
  unfold State.loopOwned
  repeat' with_reducible first | assumption | apply State.testEnd_inv | apply State.loopManual_inv | (apply inv_ite <;> intros)

theorem State.loopStop_inv (s : State) (l : Lane) (hs : Safety.Keeps que s) : Safety.Keeps que (State.loopStop s l) := by
  unfold State.loopStop; dsimp only
  repeat' with_reducible first | assumption | apply State.fset_inv | apply State.free_inv | apply State.setLoopSt_inv | apply State.setLoopX_inv | apply State.testEnd_inv | (apply inv_foldl <;> intros)

theorem State.loopResume_inv (s : State) (l : Lane) (hs : Safety.Keeps que s) : Safety.Keeps que (State.loopResume s l) := by
  unfold State.loopResume; dsimp only
  repeat' with_reducible first | assumption | apply State.fset_inv | apply State.setLoopX_inv | (apply inv_foldl <;> intros) | (apply inv_ite <;> intros)

theorem State.loopLoad_inv (s : State) (l : Lane) (i : ProgImage) (hs : Safety.Keeps que s) : Safety.Keeps que (State.loopLoad s l i) := by
  unfold State.loopLoad; dsimp only
  repeat' with_reducible first | assumption | apply State.wr_inv | apply State.regClear_inv | (apply inv_foldl <;> intros)

theorem State.loopStart_inv (s : State) (l : Lane) (i : ProgImage) (hs : Safety.Keeps que s) : Safety.Keeps que (State.loopStart s l i) := by
  unfold State.loopStart; dsimp only
  repeat' with_reducible first | assumption | apply State.fset_inv | apply State.regClear_inv | apply State.setLoopSt_inv | apply State.loopCfg_inv | apply State.loopStop_inv | apply State.loopLoad_inv | (apply inv_foldl <;> intros)

theorem State.presetShow_inv (s : State) (l : Lane) (q : Nat) (p : LoopPar) (r y : Frac) (preset : Option Nat) (hs : Safety.Keeps que s) : Safety.Keeps que (State.presetShow s l q p r y preset) := by
  unfold State.presetShow; dsimp only
  split
  · exact State.fset_inv _ _ _ _ (State.fset_inv _ _ _ _ hs)
  · exact hs

theorem State.lawSample_inv (s : State) (l : Lane) (q : Nat) (p : LoopPar) (h r y xout : Frac) (preset : Option Nat) (hs : Safety.Keeps que s) : Safety.Keeps que (State.lawSample s l q p h r y xout preset).1 := by
  unfold State.lawSample; dsimp only
  repeat' with_reducible first | assumption | apply State.free_inv | (refine inv_of_kept ?_; dsimp only; refine kept_of_inv ?_) | (refine inv_of_kept ?_; dsimp only; first | refine kept_fewer _ ?_ | refine kept_marks _ ?_ | refine kept_tick ?_) | split

theorem State.loopOuts_inv (s : State) (l : Lane) (q : Nat) (hs : Safety.Keeps que s) : Safety.Keeps que (State.loopOuts s l q) := by
  unfold State.loopOuts; dsimp only
  repeat' with_reducible first | assumption | apply State.fset_inv | apply State.setLoopX_inv | apply State.loopCfg_inv | (apply inv_foldl <;> intros) | (apply inv_ite <;> intros) | (refine inv_of_kept ?_; dsimp only; refine kept_of_inv ?_) | (refine inv_of_kept ?_; dsimp only; first | refine kept_fewer _ ?_ | refine kept_marks _ ?_ | refine kept_tick ?_) | split

theorem State.loopOverrun_inv (s0 : State) (l : Lane) (q : Nat) (hs : Safety.Keeps que s0) : Safety.Keeps que (State.loopOverrun s0 l q) := by
  unfold State.loopOverrun; dsimp only
  repeat' with_reducible first | assumption | apply State.finc_inv | apply State.event_inv | apply State.eventCounted_inv | apply State.setLoopX_inv | apply State.testRecord_inv | apply State.testStep_inv | apply State.loopManual_inv | apply State.loopOuts_inv | (apply inv_ite <;> intros) | (refine inv_of_kept ?_; dsimp only; refine kept_of_inv ?_) | (refine inv_of_kept ?_; dsimp only; first | refine kept_fewer _ ?_ | refine kept_marks _ ?_ | refine kept_tick ?_) | split

theorem State.loopTrack_inv (s : State) (l : Lane) (q : Nat) (hs : Safety.Keeps que s) : Safety.Keeps que (State.loopTrack s l q) := by
  unfold State.loopTrack; dsimp only
  repeat' with_reducible first | assumption | apply State.loopGo_inv | apply State.loopAuto_inv | (apply inv_ite <;> intros)

theorem State.loopCompute_inv (s : State) (l : Lane) (q r y : Nat) (p : LoopPar) (h : Frac) (hs : Safety.Keeps que s) : Safety.Keeps que (State.loopCompute s l q r y p h).1 := by
  unfold State.loopCompute; dsimp only
  repeat' with_reducible first | assumption | apply State.fset_inv | apply State.fsetB_inv | apply State.event_inv | apply State.setLoopX_inv | apply State.lawSample_inv | apply State.presetShow_inv | (apply inv_ite <;> intros) | (apply inv_ite_fst <;> intros) | (refine inv_of_kept ?_; dsimp only; refine kept_of_inv ?_)

theorem State.loopSample_inv (s : State) (l : Lane) (q frame : Nat) (hs : Safety.Keeps que s) : Safety.Keeps que (State.loopSample s l q frame) := by
  unfold State.loopSample; dsimp only
  repeat' with_reducible first | assumption | apply State.fset_inv | apply State.free_inv | apply State.event_inv | apply State.setLoopSt_inv | apply State.setLoopX_inv | apply State.testBegin_inv | apply State.testStep_inv | apply State.loopOverrun_inv | apply State.loopOuts_inv | apply State.loopTrack_inv | apply State.loopCompute_inv | (apply inv_ite <;> intros) | (refine inv_of_kept ?_; dsimp only; refine kept_of_inv ?_) | (refine inv_of_kept ?_; dsimp only; first | refine kept_fewer _ ?_ | refine kept_marks _ ?_ | refine kept_tick ?_) | split

theorem State.loopDone_inv (s : State) (l : Lane) (q : Nat) (hs : Safety.Keeps que s) : Safety.Keeps que (State.loopDone s l q) := by
  unfold State.loopDone; dsimp only
  repeat' with_reducible first | assumption | refine State.loopDest_inv _ _ _ _ ?_ _ (by assumption) | apply State.fset_inv | apply State.fsetB_inv | apply State.fmax_inv | apply State.fsat_inv | apply State.eventLimited_inv | apply State.setLoopX_inv | apply State.loopReject_inv | apply State.testRecord_inv | (apply inv_ite <;> intros) | (refine inv_of_kept ?_; dsimp only; refine kept_of_inv ?_) | (refine inv_of_kept ?_; dsimp only; first | refine kept_fewer _ ?_ | refine kept_marks _ ?_ | refine kept_tick ?_) | split

theorem State.dpFail_inv (s : State) (l : Lane) (d : Nat) (hs : Safety.Keeps que s) : Safety.Keeps que (State.dpFail s l d) := by
  unfold State.dpFail; dsimp only
  repeat' with_reducible first | assumption | apply State.fset_inv | apply State.event_inv | apply State.setLoopX_inv | apply State.loopOverrun_inv | (apply inv_foldl <;> intros) | (apply inv_ite <;> intros)

theorem State.loopItem_inv (s : State) (l : Lane) (q item v : Nat) (hs : Safety.Keeps que s) : Safety.Keeps que (State.loopItem s l q item v) := by
  unfold State.loopItem; dsimp only
  repeat' with_reducible first | assumption | apply State.setLoopX_inv | (apply inv_ite <;> intros)

theorem State.loopWrite_inv (s : State) (q item v : Nat) (supervisor : Bool) (hs : Safety.Keeps que s) : Safety.Keeps que (State.loopWrite s q item v supervisor) := by
  unfold State.loopWrite
  repeat' with_reducible first | assumption | apply State.loopItem_inv | (apply inv_ite <;> intros) | (refine inv_of_kept ?_; dsimp only; refine kept_of_inv ?_) | (refine inv_of_kept ?_; dsimp only; first | refine kept_fewer _ ?_ | refine kept_marks _ ?_ | refine kept_tick ?_) | split

theorem State.loopClrStats_inv (s : State) (l : Lane) (hs : Safety.Keeps que s) : Safety.Keeps que (State.loopClrStats s l) := by
  unfold State.loopClrStats; dsimp only
  repeat' with_reducible first | assumption | apply State.fset_inv | (apply inv_foldl <;> intros)

theorem State.capClear_inv (s : State) (l : Lane) (b : Nat) (hs : Safety.Keeps que s) : Safety.Keeps que (State.capClear s l b) := by
  unfold State.capClear; dsimp only
  repeat' with_reducible first | assumption | apply State.regClear_inv | apply State.setLoopSt_inv | (apply inv_ite <;> intros)

end Sys2Proof.Machine
end

