-- ==== Sys2Proof/Laws/InvMtrOps.lean ====
section
/-! SUPPORT. The invariant under what Machine/MtrOps.lean does. -/

namespace Sys2Proof.Machine
open Sys2Proof

variable {que : List Instr}

theorem State.setMtrIn_inv (s : State) (i : Nat) (x : MtrIn) (hs : Safety.Keeps que s) : Safety.Keeps que (State.setMtrIn s i x) := by
  unfold State.setMtrIn; dsimp only
  repeat' with_reducible first | assumption | (refine inv_of_kept ?_; dsimp only; refine kept_of_inv ?_)

theorem State.setMtrLine_inv (s : State) (v : Nat) (x : MtrLine) (hs : Safety.Keeps que s) : Safety.Keeps que (State.setMtrLine s v x) := by
  unfold State.setMtrLine; dsimp only
  repeat' with_reducible first | assumption | (refine inv_of_kept ?_; dsimp only; refine kept_of_inv ?_)

theorem State.setMtrSet_inv (s : State) (v : Nat) (x : MtrSet) (hs : Safety.Keeps que s) : Safety.Keeps que (State.setMtrSet s v x) := by
  unfold State.setMtrSet; dsimp only
  repeat' with_reducible first | assumption | (apply inv_ite <;> intros) | (refine inv_of_kept ?_; dsimp only; refine kept_of_inv ?_)

theorem State.setPortMtr_inv (s : State) (p : Nat) (x : PortMtr) (hs : Safety.Keeps que s) : Safety.Keeps que (State.setPortMtr s p x) := by
  unfold State.setPortMtr
  repeat' with_reducible first | assumption | (refine inv_of_kept ?_; dsimp only; refine kept_of_inv ?_)

theorem State.setPulse_inv (s : State) (k : Nat) (x : PulseX) (hs : Safety.Keeps que s) : Safety.Keeps que (State.setPulse s k x) := by
  unfold State.setPulse
  repeat' with_reducible first | assumption | (refine inv_of_kept ?_; dsimp only; refine kept_of_inv ?_)

theorem State.setPending_inv (s : State) (k n : Nat) (hs : Safety.Keeps que s) : Safety.Keeps que (State.setPending s k n) := by
  unfold State.setPending; dsimp only
  repeat' with_reducible first | assumption | apply State.fset_inv | (refine inv_of_kept ?_; dsimp only; refine kept_of_inv ?_)

theorem State.pulseLate_inv (s : State) (k : Nat) (hs : Safety.Keeps que s) : Safety.Keeps que (State.pulseLate s k) := by
  unfold State.pulseLate; dsimp only
  repeat' with_reducible first | assumption | apply State.eventLimited_inv | apply State.setPending_inv

theorem State.pulseAdd_inv (s : State) (src : PulseSrc) (de ts te : Nat) (hs : Safety.Keeps que s) : Safety.Keeps que (State.pulseAdd s src de ts te) := by
  unfold State.pulseAdd; dsimp only
  repeat' with_reducible first | assumption | apply State.fset_inv | apply State.setPulse_inv | apply State.pulseLate_inv | (apply inv_foldl <;> intros) | (apply inv_ite <;> intros) | (refine inv_of_kept ?_; dsimp only; refine kept_of_inv ?_)

theorem State.pulseJudge_inv (s : State) (hs : Safety.Keeps que s) : Safety.Keeps que (State.pulseJudge s) := by
  unfold State.pulseJudge
  repeat' with_reducible first | assumption | apply State.fset_inv | apply State.fsetB_inv | (apply inv_foldl <;> intros) | (refine inv_of_kept ?_; dsimp only; refine kept_of_inv ?_) | (refine inv_of_kept ?_; dsimp only; first | refine kept_fewer _ ?_ | refine kept_marks _ ?_ | refine kept_tick ?_) | split

theorem State.inAdd_inv (s : State) (i j de ts te : Nat) (hs : Safety.Keeps que s) : Safety.Keeps que (State.inAdd s i j de ts te) := by
  unfold State.inAdd; dsimp only
  repeat' with_reducible first | assumption | apply State.pulseAdd_inv | (apply inv_ite <;> intros) | (refine inv_of_kept ?_; dsimp only; refine kept_of_inv ?_)

theorem State.portAdd_inv (s : State) (p de dc : Nat) (hs : Safety.Keeps que s) : Safety.Keeps que (State.portAdd s p de dc) := by
  unfold State.portAdd; dsimp only
  repeat' with_reducible first | assumption | apply State.pulseAdd_inv | (refine inv_of_kept ?_; dsimp only; refine kept_of_inv ?_)

theorem State.galChanges_inv (s : State) (gs : List Nat) (hs : Safety.Keeps que s) : Safety.Keeps que (State.galChanges s gs) := by
  unfold State.galChanges; dsimp only
  repeat' with_reducible first | assumption | (apply inv_foldl <;> intros) | (refine inv_of_kept ?_; dsimp only; refine kept_of_inv ?_)

theorem State.inEvent_inv (s : State) (i cause : Nat) (hs : Safety.Keeps que s) : Safety.Keeps que (State.inEvent s i cause) := by
  unfold State.inEvent; dsimp only
  repeat' with_reducible first | assumption | apply State.event_inv

theorem State.inSample_inv (s : State) (i : Nat) (raw : Int) (hs : Safety.Keeps que s) : Safety.Keeps que (State.inSample s i raw) := by
  unfold State.inSample; dsimp only
  repeat' with_reducible first | assumption | apply State.fset_inv | apply State.finc_inv | apply State.free_inv | apply State.setMtrIn_inv | apply State.inEvent_inv | (apply inv_ite <;> intros) | (refine inv_of_kept ?_; dsimp only; refine kept_of_inv ?_) | (refine inv_of_kept ?_; dsimp only; first | refine kept_fewer _ ?_ | refine kept_marks _ ?_ | refine kept_tick ?_) | split

theorem State.lineSample_inv (s : State) (v : Nat) (u : Int) (hs : Safety.Keeps que s) : Safety.Keeps que (State.lineSample s v u) := by
  unfold State.lineSample; dsimp only
  repeat' with_reducible first | assumption | apply State.setMtrLine_inv

theorem State.setSample_inv (s : State) (v : Nat) (hs : Safety.Keeps que s) : Safety.Keeps que (State.setSample s v) := by
  unfold State.setSample; dsimp only
  repeat' with_reducible first | assumption | apply State.setMtrSet_inv

theorem State.lineJudge_inv (s : State) (v n : Nat) (hs : Safety.Keeps que s) : Safety.Keeps que (State.lineJudge s v n) := by
  unfold State.lineJudge; dsimp only
  repeat' with_reducible first | assumption | apply State.fset_inv | apply State.fsetB_inv | apply State.finc_inv | apply State.event_inv | apply State.setMtrLine_inv | (apply inv_ite <;> intros)

theorem State.inCycle_inv (s : State) (i n ts te : Nat) (on : Bool) (hs : Safety.Keeps que s) : Safety.Keeps que (State.inCycle s i n ts te on) := by
  unfold State.inCycle; dsimp only
  repeat' with_reducible first | assumption | apply State.fset_inv | apply State.fsetB_inv | apply State.finc_inv | apply State.setMtrIn_inv | apply State.inAdd_inv | apply State.inEvent_inv | (apply inv_ite <;> intros)

theorem State.boundary_inv (s : State) (base frac : Nat) (hs : Safety.Keeps que s) : Safety.Keeps que (State.boundary s base frac) := by
  unfold State.boundary; dsimp only
  repeat' with_reducible first | assumption | apply State.fset_inv | apply State.event_inv | (apply inv_ite <;> intros) | (refine inv_of_kept ?_; dsimp only; refine kept_of_inv ?_)

theorem State.setFlush_inv (s : State) (v te : Nat) (hs : Safety.Keeps que s) : Safety.Keeps que (State.setFlush s v te) := by
  unfold State.setFlush; dsimp only
  repeat' with_reducible first | assumption | apply State.fsetB_inv | apply State.setMtrSet_inv | apply State.inEvent_inv | apply State.lineJudge_inv | apply State.inCycle_inv | (apply inv_foldl <;> intros) | (apply inv_ite <;> intros)

theorem State.setCycle_inv (s : State) (v frac : Nat) (hs : Safety.Keeps que s) : Safety.Keeps que (State.setCycle s v frac) := by
  unfold State.setCycle; dsimp only
  repeat' with_reducible first | assumption | apply State.setMtrSet_inv | apply State.setFlush_inv

theorem State.setIdle_inv (s : State) (v : Nat) (hs : Safety.Keeps que s) : Safety.Keeps que (State.setIdle s v) := by
  unfold State.setIdle
  repeat' with_reducible first | assumption | apply State.setFlush_inv | (apply inv_ite <;> intros)

theorem State.phaseAlarm_inv (s : State) (v : Nat) (hs : Safety.Keeps que s) : Safety.Keeps que (State.phaseAlarm s v) := by
  unfold State.phaseAlarm; dsimp only
  repeat' with_reducible first | assumption | apply State.event_inv | apply State.setMtrSet_inv | (apply inv_ite <;> intros)

theorem State.newInterval_inv (s : State) (hs : Safety.Keeps que s) : Safety.Keeps que (State.newInterval s) := by
  unfold State.newInterval; dsimp only
  repeat' with_reducible first | assumption | apply State.fset_inv | apply State.setMtrIn_inv | apply State.setMtrLine_inv | apply State.setMtrSet_inv | apply State.setPortMtr_inv | apply State.setPulse_inv | apply State.pulseJudge_inv | (apply inv_foldl <;> intros) | (apply inv_ite <;> intros) | (refine inv_of_kept ?_; dsimp only; refine kept_of_inv ?_)

theorem State.latch_inv (s : State) (hs : Safety.Keeps que s) : Safety.Keeps que (State.latch s) := by
  unfold State.latch; dsimp only
  repeat' with_reducible first | assumption | apply State.fset_inv | apply State.setMtrIn_inv | apply State.setMtrLine_inv | apply State.phaseAlarm_inv | apply State.newInterval_inv | (apply inv_foldl <;> intros) | (refine inv_of_kept ?_; dsimp only; refine kept_of_inv ?_)

theorem State.publish_inv (s : State) (hs : Safety.Keeps que s) : Safety.Keeps que (State.publish s) := by
  unfold State.publish; dsimp only
  repeat' with_reducible first | assumption | apply State.wr_inv | apply State.fset_inv | (apply inv_foldl <;> intros) | (refine inv_of_kept ?_; dsimp only; refine kept_of_inv ?_) | (refine inv_of_kept ?_; dsimp only; first | refine kept_fewer _ ?_ | refine kept_marks _ ?_ | refine kept_tick ?_) | split

theorem State.energySaved_inv (s : State) (pfw : Bool) (hs : Safety.Keeps que s) : Safety.Keeps que (State.energySaved s pfw) := by
  unfold State.energySaved; dsimp only
  repeat' with_reducible first | assumption | apply State.fset_inv | (refine inv_of_kept ?_; dsimp only; refine kept_of_inv ?_)

theorem State.energyRestore_inv (s : State) (hs : Safety.Keeps que s) : Safety.Keeps que (State.energyRestore s) := by
  unfold State.energyRestore; dsimp only
  repeat' with_reducible first | assumption | apply State.fset_inv | apply State.event_inv | (apply inv_foldl <;> intros) | (refine inv_of_kept ?_; dsimp only; refine kept_of_inv ?_)

theorem State.meterLoaded_inv (s : State) (version : Nat) (hs : Safety.Keeps que s) : Safety.Keeps que (State.meterLoaded s version) := by
  unfold State.meterLoaded; dsimp only
  repeat' with_reducible first | assumption | apply State.fset_inv | apply State.setMtrIn_inv | apply State.setPulse_inv | apply State.pulseJudge_inv | (apply inv_foldl <;> intros) | (apply inv_ite <;> intros) | (refine inv_of_kept ?_; dsimp only; refine kept_of_inv ?_)

theorem State.meterReset_inv (s : State) (hs : Safety.Keeps que s) : Safety.Keeps que (State.meterReset s) := by
  unfold State.meterReset; dsimp only
  repeat' with_reducible first | assumption | apply State.fset_inv | apply State.regClear_inv | apply State.send_inv | (apply inv_foldl <;> intros) | (apply inv_ite <;> intros) | (refine inv_of_kept ?_; dsimp only; refine kept_of_inv ?_)

theorem State.meterUp_inv (s : State) (hs : Safety.Keeps que s) : Safety.Keeps que (State.meterUp s) := by
  unfold State.meterUp; dsimp only
  repeat' with_reducible first | assumption | apply State.fadd_inv | (refine inv_of_kept ?_; dsimp only; refine kept_of_inv ?_) | (refine inv_of_kept ?_; dsimp only; first | refine kept_fewer _ ?_ | refine kept_marks _ ?_ | refine kept_tick ?_) | split

end Sys2Proof.Machine
end

