-- ==== Sys2Proof/Laws/InvPointOps.lean ====
section
/-! SUPPORT. The invariant under what Machine/PointOps.lean does. -/

namespace Sys2Proof.Machine
open Sys2Proof

variable {que : List Instr}

theorem State.bindWrite_inv (s : State) (v : Nat) (hs : Safety.Keeps que s) (x : Binding) : Safety.Keeps que (State.bindWrite s v x) := by
  cases x <;> (unfold State.bindWrite; dsimp only)
  all_goals repeat' with_reducible first | assumption | apply State.aioWrite_inv | apply State.portRequest_inv | apply State.canStage_inv | apply State.loopWrite_inv | (apply inv_ite <;> intros)

end Sys2Proof.Machine
end

