-- ==== Sys2Proof/Laws/InvCycOps.lean ====
section
/-! SUPPORT. The invariant under what Machine/CycOps.lean does. -/

namespace Sys2Proof.Machine
open Sys2Proof

variable {que : List Instr}

theorem State.latchIn_inv (s : State) (n : Nat) (hs : Safety.Keeps que s) : Safety.Keeps que (State.latchIn s n) := by
  unfold State.latchIn; dsimp only
  repeat' with_reducible first | assumption | (refine inv_of_kept ?_; dsimp only; refine kept_of_inv ?_)

/-- A force takes a place that is free, or that of a force of the same object. -/
theorem State.setForce_inv (s : State) (ptype index v : Nat) (hc : s.forces.length < 512 ∨ s.isForced ptype index = true)
    (hs : Safety.Keeps que s) : Safety.Keeps que (s.setForce ptype index v) := by
  have hl : (s.forces.filter (fun f => !((f.ptype == 16) == (ptype == 16) && f.index == index))).length + 1 ≤ 512 := by
    rcases hc with hc | hc
    · have := List.length_filter_le (fun f : ForceEnt => !((f.ptype == 16) == (ptype == 16) && f.index == index)) s.forces
      omega
    · have : (s.forces.filter (fun f => !((f.ptype == 16) == (ptype == 16) && f.index == index))).length < s.forces.length := by
        rw [List.length_filter_lt_length_iff_exists]
        obtain ⟨f, hf, h⟩ := List.any_eq_true.1 hc
        exact ⟨f, hf, by simp [h]⟩
      have := hs.forces
      omega
  have h1 : Safety.Keeps que { s with forces := s.forces.filter (fun f => !((f.ptype == 16) == (ptype == 16) && f.index == index)) ++ [⟨ptype, index, v⟩] } :=
    ⟨⟨hs.mem, by rw [List.length_append]; exact hl, hs.events, hs.seq, hs.tick⟩, hs.pending⟩
  unfold State.setForce
  dsimp only
  split
  · exact h1
  · exact State.portRequest_inv _ _ _ h1
  · exact h1

theorem State.actGo_inv (s : State) (a : TickAct) (hs : Safety.Keeps que s) : Safety.Keeps que (State.actGo s a) := by
  unfold State.actGo; dsimp only
  repeat' with_reducible first | assumption | apply State.setCyc_inv | apply State.nodeWrite_inv | apply State.groupWrite_inv | apply State.bindWrite_inv | (apply inv_foldl <;> intros) | (apply inv_ite <;> intros) | (refine inv_of_kept ?_; dsimp only; refine kept_of_inv ?_) | (refine inv_of_kept ?_; dsimp only; first | refine kept_fewer _ ?_ | refine kept_marks _ ?_ | refine kept_tick ?_) | split

theorem State.actApply_inv (s : State) (a : TickAct) (hs : Safety.Keeps que s) : Safety.Keeps que (State.actApply s a) := by
  unfold State.actApply
  repeat' with_reducible first | assumption | apply State.actGo_inv | (apply inv_ite <;> intros) | (refine inv_of_kept ?_; dsimp only; refine kept_of_inv ?_)

theorem State.dropForce_inv (s : State) (f : ForceEnt) (hs : Safety.Keeps que s) : Safety.Keeps que (s.dropForce f) :=
  inv_foldl (fun _ _ h => State.actGo_inv _ _ h) (inv_fewer (s := s) rfl rfl List.length_erase_le rfl rfl rfl hs)

theorem State.dropActs_inv (s : State) (hs : Safety.Keeps que s) : Safety.Keeps que (State.dropActs s) := by
  unfold State.dropActs; dsimp only
  repeat' with_reducible first | assumption | apply State.fadd_inv | (refine inv_of_kept ?_; dsimp only; refine kept_of_inv ?_)

theorem State.rolesEnd_inv (s : State) (rs : List OldRole) (hs : Safety.Keeps que s) : Safety.Keeps que (State.rolesEnd s rs) := by
  unfold State.rolesEnd; dsimp only
  repeat' with_reducible first | assumption | apply State.event_inv | apply State.dropActs_inv | (apply inv_ite <;> intros) | (refine inv_of_kept ?_; dsimp only; refine kept_of_inv ?_) | (refine inv_of_kept ?_; dsimp only; first | refine kept_fewer _ ?_ | refine kept_marks _ ?_ | refine kept_tick ?_)

theorem State.reRole_inv (s : State) (rs : List OldRole) (hs : Safety.Keeps que s) : Safety.Keeps que (State.reRole s rs) := by
  unfold State.reRole; dsimp only
  repeat' with_reducible first | assumption | apply State.setPoint_inv | apply State.rolesEnd_inv | (apply inv_foldl <;> intros) | (apply inv_ite <;> intros) | (refine inv_of_kept ?_; dsimp only; refine kept_of_inv ?_)

theorem State.relFlush_inv (s : State) (hs : Safety.Keeps que s) : Safety.Keeps que (State.relFlush s) := by
  unfold State.relFlush
  repeat' with_reducible first | assumption | apply State.bindWrite_inv | (apply inv_foldl <;> intros) | (apply inv_ite <;> intros) | (refine inv_of_kept ?_; dsimp only; refine kept_of_inv ?_)

theorem State.tickActs_inv (s : State) (n : Nat) (hs : Safety.Keeps que s) : Safety.Keeps que (s.tickActs n) := by
  unfold State.tickActs
  dsimp only
  refine inv_foldl (fun _ _ h => State.actApply_inv _ _ h) ?_
  have h1 : ∀ k, Safety.Keeps que (State.fadd (State.relFlush { s with acts := s.acts.filter (fun a => !(a.due n && !s.actHeld a)) }) 0 HG_OWN_WRDROP k) :=
    fun k => State.fadd_inv _ _ _ _ (State.relFlush_inv _ (inv_of_eq (s := s) rfl rfl rfl rfl rfl rfl hs))
  have hf : ∀ (acc : State × Nat) (a : TickAct), Safety.Keeps que acc.1 → Safety.Keeps que (if a.kind = actForce then
      (if acc.1.forces.length < 512 ∨ acc.1.isForced a.ptype a.index then (acc.1.setForce a.ptype a.index a.value, acc.2 + 1) else acc)
    else
      ((if a.kind = actUnforceAll then acc.1.forces
        else acc.1.forces.filter (fun f => (f.ptype == 16) == (a.ptype == 16) && f.index == a.index)).foldl (fun s f => s.dropForce f) acc.1,
        acc.2 + (if a.kind = actUnforceAll then acc.1.forces
        else acc.1.forces.filter (fun f => (f.ptype == 16) == (a.ptype == 16) && f.index == a.index)).length)).1 := by
    intro acc a h
    split
    · split
      · exact State.setForce_inv _ _ _ _ ‹_› h
      · exact h
    · exact inv_foldl (fun _ _ h => State.dropForce_inv _ _ h) h
  exact inv_ite (fun _ => inv_foldl_fst hf (h1 _)) (fun _ => State.event_inv _ _ _ _ _ (inv_foldl_fst hf (h1 _)))

theorem State.idleReserve_inv (s : State) (l : Lane) (hs : Safety.Keeps que s) : Safety.Keeps que (State.idleReserve s l) := by
  unfold State.idleReserve; dsimp only
  repeat' with_reducible first | assumption | apply State.fset_inv | apply State.eventLimited_inv | apply State.setCyc_inv | (apply inv_ite <;> intros)

theorem State.setCtlBit_inv (s : State) (b : Nat × Nat) (v : Bool) (hs : Safety.Keeps que s) : Safety.Keeps que (State.setCtlBit s b v) := by
  unfold State.setCtlBit; dsimp only
  repeat' with_reducible first | assumption | apply State.mset_inv

theorem State.mbSend_inv (s : State) (l : Lane) (d : MailboxDesc) (cyc sender : Nat) (payload : List Byte) (hs : Safety.Keeps que s) : Safety.Keeps que (State.mbSend s l d cyc sender payload) := by
  unfold State.mbSend; dsimp only
  repeat' with_reducible first | assumption | apply State.mwrite_inv | apply State.setCtlBit_inv | (refine inv_of_kept ?_; dsimp only; refine kept_of_inv ?_) | (refine inv_of_kept ?_; dsimp only; first | refine kept_fewer _ ?_ | refine kept_marks _ ?_ | refine kept_tick ?_) | split

theorem State.mbJudge_inv (s : State) (l : Lane) (d : MailboxDesc) (hs : Safety.Keeps que s) : Safety.Keeps que (State.mbJudge s l d) := by
  unfold State.mbJudge; dsimp only
  repeat' with_reducible first | assumption | apply State.finc_inv | apply State.eventCounted_inv | apply State.setCyc_inv | apply State.setCtlBit_inv | (apply inv_ite <;> intros) | (refine inv_of_kept ?_; dsimp only; refine kept_of_inv ?_) | (refine inv_of_kept ?_; dsimp only; first | refine kept_fewer _ ?_ | refine kept_marks _ ?_ | refine kept_tick ?_) | split

theorem State.mbDeliver_inv (s : State) (l : Lane) (hs : Safety.Keeps que s) : Safety.Keeps que (State.mbDeliver s l) := by
  unfold State.mbDeliver
  repeat' with_reducible first | assumption | apply State.mbJudge_inv | (apply inv_foldl <;> intros) | (refine inv_of_kept ?_; dsimp only; refine kept_of_inv ?_) | (refine inv_of_kept ?_; dsimp only; first | refine kept_fewer _ ?_ | refine kept_marks _ ?_ | refine kept_tick ?_) | split

theorem State.mbEmpty_inv (s : State) (l : Lane) (d : MailboxDesc) (hs : Safety.Keeps que s) : Safety.Keeps que (State.mbEmpty s l d) := by
  unfold State.mbEmpty; dsimp only
  repeat' with_reducible first | assumption | apply State.memClear_inv | apply State.setCyc_inv | apply State.setCtlBit_inv | (refine inv_of_kept ?_; dsimp only; refine kept_of_inv ?_) | (refine inv_of_kept ?_; dsimp only; first | refine kept_fewer _ ?_ | refine kept_marks _ ?_ | refine kept_tick ?_) | split

theorem State.lumCommit_inv (s : State) (t i v : Nat) (hs : Safety.Keeps que s) : Safety.Keeps que (State.lumCommit s t i v) := by
  unfold State.lumCommit
  repeat' with_reducible first | assumption | (refine inv_of_kept ?_; dsimp only; refine kept_of_inv ?_)

theorem State.commitOne_inv (s : State) (l : Lane) (x : Nat × Nat) (hs : Safety.Keeps que s) : Safety.Keeps que (State.commitOne s l x) := by
  unfold State.commitOne; dsimp only
  repeat' with_reducible first | assumption | apply State.setCyc_inv | apply State.grantReject_inv | apply State.canStage_inv | apply State.lumCommit_inv | (apply inv_ite <;> intros) | (refine inv_of_kept ?_; dsimp only; refine kept_of_inv ?_) | (refine inv_of_kept ?_; dsimp only; first | refine kept_fewer _ ?_ | refine kept_marks _ ?_ | refine kept_tick ?_) | split

theorem State.releaseOne_inv (s : State) (l : Lane) (e : Nat) (hs : Safety.Keeps que s) : Safety.Keeps que (State.releaseOne s l e) := by
  unfold State.releaseOne; dsimp only
  repeat' with_reducible first | assumption | apply State.aioWrite_inv | apply State.portRequest_inv | apply State.loopWrite_inv | (apply inv_ite <;> intros) | (refine inv_of_kept ?_; dsimp only; refine kept_of_inv ?_) | (refine inv_of_kept ?_; dsimp only; first | refine kept_fewer _ ?_ | refine kept_marks _ ?_ | refine kept_tick ?_) | split

theorem State.releaseActs_inv (s : State) (l : Lane) (n : Nat) (hs : Safety.Keeps que s) : Safety.Keeps que (State.releaseActs s l n) := by
  unfold State.releaseActs; dsimp only
  repeat' with_reducible first | assumption | apply State.fadd_inv | apply State.bindWrite_inv | (apply inv_foldl <;> intros) | (apply inv_ite <;> intros) | (refine inv_of_kept ?_; dsimp only; refine kept_of_inv ?_)

theorem State.setColdNext_inv (s : State) (on : Bool) (hs : Safety.Keeps que s) : Safety.Keeps que (State.setColdNext s on) := by
  unfold State.setColdNext
  repeat' with_reducible first | assumption | apply State.fsetB_inv

theorem State.partStart_inv (s : State) (i : ProgImage) (a : PartAt) (kept : Option (Tab Byte)) (hs : Safety.Keeps que s) : Safety.Keeps que (State.partStart s i a kept) := by
  unfold State.partStart; dsimp only
  repeat' with_reducible first | assumption | apply State.mwrite_inv | (apply inv_foldl <;> intros) | (refine inv_of_kept ?_; dsimp only; refine kept_of_inv ?_) | (refine inv_of_kept ?_; dsimp only; first | refine kept_fewer _ ?_ | refine kept_marks _ ?_ | refine kept_tick ?_) | split

theorem State.sharedStart_inv (s : State) (l : Lane) (d : TaskDesc) (hs : Safety.Keeps que s) : Safety.Keeps que (State.sharedStart s l d) := by
  unfold State.sharedStart
  repeat' with_reducible first | assumption | apply State.mwrite_inv | (refine inv_of_kept ?_; dsimp only; refine kept_of_inv ?_) | (refine inv_of_kept ?_; dsimp only; first | refine kept_fewer _ ?_ | refine kept_marks _ ?_ | refine kept_tick ?_) | split

theorem State.startTasks_inv (s : State) (l : Lane) (sel : Nat → Bool) (kept : Option RetSet) (hs : Safety.Keeps que s) : Safety.Keeps que (State.startTasks s l sel kept) := by
  unfold State.startTasks; dsimp only
  repeat' with_reducible first | assumption | apply State.setCyc_inv | apply State.mbEmpty_inv | apply State.partStart_inv | apply State.sharedStart_inv | (apply inv_foldl <;> intros) | (refine inv_of_kept ?_; dsimp only; refine kept_of_inv ?_) | (refine inv_of_kept ?_; dsimp only; first | refine kept_fewer _ ?_ | refine kept_marks _ ?_ | refine kept_tick ?_) | split

theorem State.startNote_inv (s : State) (l : Lane) (k : Nat × Nat) (hs : Safety.Keeps que s) : Safety.Keeps que (State.startNote s l k) := by
  unfold State.startNote; dsimp only
  repeat' with_reducible first | assumption | apply State.fset_inv | apply State.event_inv | apply State.setColdNext_inv | (apply inv_ite <;> intros)

theorem State.warmTasks_inv (s : State) (l : Lane) (sel : Nat → Bool) (hs : Safety.Keeps que s) : Safety.Keeps que (State.warmTasks s l sel) := by
  unfold State.warmTasks; dsimp only
  repeat' with_reducible first | assumption | apply State.startTasks_inv | apply State.startNote_inv

theorem State.startPrograms_inv (s : State) (l : Lane) (want at_ : Nat) (hs : Safety.Keeps que s) : Safety.Keeps que (State.startPrograms s l want at_) := by
  unfold State.startPrograms; dsimp only
  repeat' with_reducible first | assumption | apply State.fset_inv | apply State.setCyc_inv | apply State.startTasks_inv | apply State.startNote_inv | (apply inv_ite <;> intros)

theorem State.staleCheck_inv (s : State) (hs : Safety.Keeps que s) : Safety.Keeps que (State.staleCheck s) := by
  unfold State.staleCheck; dsimp only
  repeat' with_reducible first | assumption | apply State.event_inv | (apply inv_ite <;> intros) | (refine inv_of_kept ?_; dsimp only; refine kept_of_inv ?_) | (refine inv_of_kept ?_; dsimp only; first | refine kept_fewer _ ?_ | refine kept_marks _ ?_ | refine kept_tick ?_) | split

end Sys2Proof.Machine
end

