-- ==== Sys2Proof/Laws/InvCellOps.lean ====
section
/-! SUPPORT. The invariant under what Machine/CellOps.lean does. -/

namespace Sys2Proof.Machine
open Sys2Proof

variable {que : List Instr}

theorem State.copyRange_inv (s : State) (src dst n : Nat) (hs : Safety.Keeps que s) : Safety.Keeps que (State.copyRange s src dst n) := by
  unfold State.copyRange; dsimp only
  repeat' with_reducible first | assumption | apply State.mset_inv | apply State.memClear_inv | (apply inv_foldl <;> intros)

theorem State.showParts_inv (s : State) (l : Lane) (hs : Safety.Keeps que s) : Safety.Keeps que (State.showParts s l) := by
  unfold State.showParts; dsimp only
  repeat' with_reducible first | assumption | apply State.fset_inv | (apply inv_foldl <;> intros) | (refine inv_of_kept ?_; dsimp only; refine kept_of_inv ?_) | (refine inv_of_kept ?_; dsimp only; first | refine kept_fewer _ ?_ | refine kept_marks _ ?_ | refine kept_tick ?_) | split

theorem State.loadCode_inv (s : State) (l : Lane) (i : ProgImage) (hs : Safety.Keeps que s) : Safety.Keeps que (State.loadCode s l i) := by
  unfold State.loadCode; dsimp only
  repeat' with_reducible first | assumption | apply State.mwrite_inv | (apply inv_foldl <;> intros) | (apply inv_ite <;> intros)

theorem State.partArrive_inv (s : State) (l : Lane) (a b : PartAt) (source : Nat) (hs : Safety.Keeps que s) : Safety.Keeps que (State.partArrive s l a b source) := by
  unfold State.partArrive; dsimp only
  repeat' with_reducible first | assumption | apply State.setCyc_inv | apply State.partStart_inv | apply State.copyRange_inv | (refine inv_of_kept ?_; dsimp only; refine kept_of_inv ?_) | (refine inv_of_kept ?_; dsimp only; first | refine kept_fewer _ ?_ | refine kept_marks _ ?_ | refine kept_tick ?_) | split

theorem State.cellMove_inv (s : State) (n p q source : Nat) (hs : Safety.Keeps que s) : Safety.Keeps que (State.cellMove s n p q source) := by
  unfold State.cellMove; dsimp only
  repeat' with_reducible first | assumption | apply State.fset_inv | apply State.mwrite_inv | apply State.memClear_inv | apply State.event_inv | apply State.copyRange_inv | apply State.partArrive_inv | (apply inv_foldl <;> intros) | (refine inv_of_kept ?_; dsimp only; refine kept_of_inv ?_) | (refine inv_of_kept ?_; dsimp only; first | refine kept_fewer _ ?_ | refine kept_marks _ ?_ | refine kept_tick ?_) | split

theorem State.putPart_inv (s : State) (l : Lane) (b : PartAt) (hs : Safety.Keeps que s) : Safety.Keeps que (State.putPart s l b) := by
  unfold State.putPart; dsimp only
  repeat' with_reducible first | assumption | apply State.setCyc_inv

theorem State.partMove_inv (s : State) (n source : Nat) (a : PartAt) (hs : Safety.Keeps que s) : Safety.Keeps que (State.partMove s n source a) := by
  unfold State.partMove; dsimp only
  repeat' with_reducible first | assumption | apply State.event_inv | apply State.partArrive_inv | apply State.putPart_inv | apply State.handover_inv | (apply inv_ite <;> intros) | (refine inv_of_kept ?_; dsimp only; refine kept_of_inv ?_) | (refine inv_of_kept ?_; dsimp only; first | refine kept_fewer _ ?_ | refine kept_marks _ ?_ | refine kept_tick ?_) | split

theorem State.cellVacate_inv (s : State) (n source : Nat) (hs : Safety.Keeps que s) : Safety.Keeps que (State.cellVacate s n source) := by
  unfold State.cellVacate; dsimp only
  repeat' with_reducible first | assumption | apply State.fset_inv | apply State.showParts_inv | apply State.partMove_inv | (apply inv_foldl <;> intros)

theorem State.faultSettle_inv (s : State) (p : Nat) (readable : Bool) (hs : Safety.Keeps que s) : Safety.Keeps que (State.faultSettle s p readable) := by
  unfold State.faultSettle; dsimp only
  repeat' with_reducible first | assumption | apply State.cellMove_inv | apply State.cellVacate_inv | (refine inv_of_kept ?_; dsimp only; refine kept_of_inv ?_) | (refine inv_of_kept ?_; dsimp only; first | refine kept_fewer _ ?_ | refine kept_marks _ ?_ | refine kept_tick ?_) | split

theorem State.faultsSettle_inv (s : State) (l : Lane) (hs : Safety.Keeps que s) : Safety.Keeps que (State.faultsSettle s l) := by
  unfold State.faultsSettle; dsimp only
  repeat' with_reducible first | assumption | apply State.faultSettle_inv | (apply inv_foldl <;> intros) | (refine inv_of_kept ?_; dsimp only; refine kept_of_inv ?_)

theorem State.placeImage_inv (s : State) (l : Lane) (i : ProgImage) (hs : Safety.Keeps que s) : Safety.Keeps que (State.placeImage s l i) := by
  unfold State.placeImage; dsimp only
  repeat' with_reducible first | assumption | apply State.setCyc_inv | apply State.showParts_inv | apply State.loadCode_inv | apply State.partMove_inv | (apply inv_foldl <;> intros)

end Sys2Proof.Machine
end

