-- ==== Sys2Proof/Laws/InvRetOps.lean ====
section
/-! SUPPORT. The invariant under what Machine/RetOps.lean does. -/

namespace Sys2Proof.Machine
open Sys2Proof

variable {que : List Instr}

theorem State.copyWrite_inv (s : State) (area n : Nat) (payload : List Byte) (hs : Safety.Keeps que s) : Safety.Keeps que (State.copyWrite s area n payload) := by
  unfold State.copyWrite; dsimp only
  repeat' with_reducible first | assumption | apply State.mwrite_inv | (refine inv_of_kept ?_; dsimp only; refine kept_of_inv ?_)

theorem State.recordWrite_inv (s : State) (set cycle layout pages : Nat) (hs : Safety.Keeps que s) : Safety.Keeps que (State.recordWrite s set cycle layout pages) := by
  unfold State.recordWrite
  repeat' with_reducible first | assumption | apply State.copyWrite_inv

theorem State.retainShow_inv (s : State) (l : Lane) (cycle : Nat) (hs : Safety.Keeps que s) : Safety.Keeps que (State.retainShow s l cycle) := by
  unfold State.retainShow; dsimp only
  repeat' with_reducible first | assumption | apply State.fset_inv | (apply inv_ite <;> intros)

theorem State.retainCommit_inv (s : State) (l : Lane) (hs : Safety.Keeps que s) : Safety.Keeps que (State.retainCommit s l) := by
  unfold State.retainCommit; dsimp only
  repeat' with_reducible first | assumption | apply State.copyWrite_inv | apply State.recordWrite_inv | apply State.retainShow_inv | (apply inv_foldl <;> intros) | (apply inv_ite <;> intros) | (refine inv_of_kept ?_; dsimp only; refine kept_of_inv ?_)

theorem State.energyCommit_inv (s : State) (pfw : Bool) (hs : Safety.Keeps que s) : Safety.Keeps que (State.energyCommit s pfw) := by
  unfold State.energyCommit; dsimp only
  repeat' with_reducible first | assumption | apply State.energySaved_inv | apply State.recordWrite_inv | (refine inv_of_kept ?_; dsimp only; refine kept_of_inv ?_)

end Sys2Proof.Machine
end

