-- ==== Sys2Proof/Laws/InvLaneOps.lean ====
section
/-! SUPPORT. The invariant under what Machine/LaneOps.lean does. -/

namespace Sys2Proof.Machine
open Sys2Proof

variable {que : List Instr}

theorem State.enterMode_inv (s : State) (m : Mode) (hs : Safety.Keeps que s) : Safety.Keeps que (State.enterMode s m) := by
  unfold State.enterMode; dsimp only
  repeat' with_reducible first | assumption | apply State.event_inv | (apply inv_ite <;> intros) | (refine inv_of_kept ?_; dsimp only; refine kept_of_inv ?_)

theorem State.laneStop_inv (s : State) (l : Lane) (hs : Safety.Keeps que s) : Safety.Keeps que (State.laneStop s l) := by
  unfold State.laneStop; dsimp only
  repeat' with_reducible first | assumption | apply State.fset_inv | apply State.setCyc_inv | apply State.loopStop_inv | apply State.faultsSettle_inv

theorem State.laneClear_inv (s : State) (l : Lane) (hs : Safety.Keeps que s) : Safety.Keeps que (State.laneClear s l) := by
  unfold State.laneClear; dsimp only
  repeat' with_reducible first | assumption | apply State.regClear_inv | apply State.memClear_inv | apply State.setLaneHg_inv | apply State.setLane_inv

theorem State.rstNote_inv (s : State) (src mask quiesce : Nat) (hs : Safety.Keeps que s) : Safety.Keeps que (State.rstNote s src mask quiesce) := by
  unfold State.rstNote
  repeat' with_reducible first | assumption | apply State.fset_inv | apply State.fsat_inv

theorem State.rstBit_inv (s : State) (f : Fld) (d : Nat) (v : Bool) (hs : Safety.Keeps que s) : Safety.Keeps que (State.rstBit s f d v) := by
  unfold State.rstBit; dsimp only
  repeat' with_reducible first | assumption | apply State.fset_inv

theorem State.laneAssert_inv (s : State) (l : Lane) (src : Nat) (hs : Safety.Keeps que s) : Safety.Keeps que (State.laneAssert s l src) := by
  unfold State.laneAssert; dsimp only
  repeat' with_reducible first | assumption | apply State.finc_inv | apply State.setInReset_inv | apply State.setDom_inv | apply State.laneStop_inv | apply State.laneClear_inv | apply State.rstBit_inv

theorem State.noGrant_inv (s : State) (g : Nat) (hs : Safety.Keeps que s) : Safety.Keeps que (State.noGrant s g) := by
  unfold State.noGrant
  repeat' with_reducible first | assumption | apply State.wr_inv

theorem State.grantsPaired_inv (s : State) (l : Lane) (hs : Safety.Keeps que s) : Safety.Keeps que (State.grantsPaired s l) := by
  unfold State.grantsPaired
  repeat' with_reducible first | assumption | apply State.setGrant_inv | apply State.noGrant_inv | (apply inv_foldl <;> intros) | (apply inv_ite <;> intros)

theorem State.grantsWide_inv (s : State) (hs : Safety.Keeps que s) : Safety.Keeps que (State.grantsWide s) := by
  unfold State.grantsWide
  repeat' with_reducible first | assumption | apply State.setGrant_inv | apply State.noGrant_inv | (apply inv_foldl <;> intros) | (apply inv_ite <;> intros)

theorem State.startLane_inv (s : State) (l : Lane) (want : Nat) (hs : Safety.Keeps que s) : Safety.Keeps que (State.startLane s l want) := by
  unfold State.startLane; dsimp only
  repeat' with_reducible first | assumption | apply State.loopResume_inv | apply State.loopStart_inv | apply State.startPrograms_inv | (apply inv_ite <;> intros) | (refine inv_of_kept ?_; dsimp only; refine kept_of_inv ?_) | (refine inv_of_kept ?_; dsimp only; first | refine kept_fewer _ ?_ | refine kept_marks _ ?_ | refine kept_tick ?_) | split

theorem State.galsLoops_inv (s : State) (l : Lane) (gs : List Nat) (hs : Safety.Keeps que s) : Safety.Keeps que (State.galsLoops s l gs) := by
  unfold State.galsLoops; dsimp only
  repeat' with_reducible first | assumption | apply State.wr_inv | apply State.fset_inv | apply State.setLoopX_inv | apply State.loopCfg_inv | (apply inv_foldl <;> intros) | (refine inv_of_kept ?_; dsimp only; refine kept_of_inv ?_) | (refine inv_of_kept ?_; dsimp only; first | refine kept_fewer _ ?_ | refine kept_marks _ ?_ | refine kept_tick ?_) | split

theorem State.galsStart_inv (s : State) (l : Lane) (gs : List Nat) (hs : Safety.Keeps que s) : Safety.Keeps que (State.galsStart s l gs) := by
  unfold State.galsStart
  repeat' with_reducible first | assumption | apply State.warmTasks_inv | apply State.galsLoops_inv | (apply inv_ite <;> intros)

theorem State.galShedNow_inv (s : State) (l : Lane) (g cause : Nat) (hs : Safety.Keeps que s) : Safety.Keeps que (State.galShedNow s l g cause) := by
  unfold State.galShedNow; dsimp only
  repeat' with_reducible first | assumption | apply State.fset_inv | apply State.event_inv | apply State.setGrant_inv | apply State.aioCode_inv | apply State.loopGo_inv | (apply inv_foldl <;> intros)

theorem State.wideTake_inv (s : State) (p : Lane) (cause : Nat) (hs : Safety.Keeps que s) : Safety.Keeps que (State.wideTake s p cause) := by
  unfold State.wideTake; dsimp only
  repeat' with_reducible first | assumption | apply State.setGrant_inv | apply State.galsStart_inv | apply State.galShedNow_inv | (apply inv_foldl <;> intros)

theorem State.galReturn_inv (s : State) (l : Lane) (gs : List Nat) (ev : Bool) (hs : Safety.Keeps que s) : Safety.Keeps que (State.galReturn s l gs ev) := by
  unfold State.galReturn; dsimp only
  repeat' with_reducible first | assumption | apply State.event_inv | apply State.setGrant_inv | (apply State.forPorts_inv <;> intros) | apply State.lumMove_inv | apply State.galsStart_inv | (apply inv_foldl <;> intros) | (apply inv_ite <;> intros)

theorem State.setBank_inv (s : State) (l : Lane) (b : Nat) (x : Bank) (hs : Safety.Keeps que s) : Safety.Keeps que (State.setBank s l b x) := by
  unfold State.setBank; dsimp only
  repeat' with_reducible first | assumption | apply State.sysPage_inv | (refine inv_of_kept ?_; dsimp only; refine kept_of_inv ?_)

theorem State.configWrite_inv (s : State) (lo hi : Nat) (hs : Safety.Keeps que s) : Safety.Keeps que (State.configWrite s lo hi) := by
  unfold State.configWrite; dsimp only
  repeat' with_reducible first | assumption | apply State.wr_inv | (apply inv_foldl <;> intros)

theorem State.loadPorts_inv (s : State) (f : FwImage) (hs : Safety.Keeps que s) : Safety.Keeps que (State.loadPorts s f) := by
  unfold State.loadPorts; dsimp only
  repeat' with_reducible first | assumption | apply State.fset_inv | (apply State.forPorts_inv <;> intros) | apply State.retarget_inv | apply State.adopt_inv | apply State.portEnable_inv | apply State.configWrite_inv | (apply inv_ite <;> intros) | (refine inv_of_kept ?_; dsimp only; refine kept_of_inv ?_)

theorem State.loadSwitch_inv (s : State) (f : FwImage) (hs : Safety.Keeps que s) : Safety.Keeps que (State.loadSwitch s f) := by
  unfold State.loadSwitch; dsimp only
  repeat' with_reducible first | assumption | apply State.fset_inv | apply State.ptpTo_inv | apply State.ptpEnable_inv | apply State.configWrite_inv | (apply inv_ite <;> intros)

theorem State.loadMeter_inv (s : State) (f : FwImage) (hs : Safety.Keeps que s) : Safety.Keeps que (State.loadMeter s f) := by
  unfold State.loadMeter; dsimp only
  repeat' with_reducible first | assumption | apply State.meterLoaded_inv | apply State.configWrite_inv | (apply inv_ite <;> intros) | (refine inv_of_kept ?_; dsimp only; refine kept_of_inv ?_)

theorem State.loadCan_inv (s : State) (f : FwImage) (hs : Safety.Keeps que s) : Safety.Keeps que (State.loadCan s f) := by
  unfold State.loadCan
  repeat' with_reducible first | assumption | apply State.fset_inv | apply State.canLoaded_inv | apply State.configWrite_inv | (apply inv_foldl <;> intros) | (apply inv_ite <;> intros)

theorem State.loadAio_inv (s : State) (hs : Safety.Keeps que s) : Safety.Keeps que (State.loadAio s) := by
  unfold State.loadAio
  repeat' with_reducible first | assumption | apply State.aioConfig_inv | apply State.configWrite_inv | (apply inv_ite <;> intros)

theorem State.loadShared_inv (s : State) (l : Lane) (hs : Safety.Keeps que s) : Safety.Keeps que (State.loadShared s l) := by
  unfold State.loadShared; dsimp only
  repeat' with_reducible first | assumption | apply State.fset_inv | apply State.loadPorts_inv | apply State.loadSwitch_inv | apply State.loadMeter_inv | apply State.loadCan_inv | apply State.loadAio_inv | (apply inv_ite <;> intros) | (refine inv_of_kept ?_; dsimp only; refine kept_of_inv ?_) | (refine inv_of_kept ?_; dsimp only; first | refine kept_fewer _ ?_ | refine kept_marks _ ?_ | refine kept_tick ?_) | split

theorem State.loadIfFirst_inv (s : State) (l : Lane) (hs : Safety.Keeps que s) : Safety.Keeps que (State.loadIfFirst s l) := by
  unfold State.loadIfFirst
  repeat' with_reducible first | assumption | apply State.loadShared_inv | (apply inv_ite <;> intros)

theorem State.timeoutAll_inv (s : State) (l : Lane) (hs : Safety.Keeps que s) : Safety.Keeps que (State.timeoutAll s l) := by
  unfold State.timeoutAll; dsimp only
  refine inv_of_kept ?_
  dsimp only
  refine kept_of_inv ?_
  exact inv_foldl (fun s f h => State.answerBy_inv s l f .timeout [] h) hs

theorem State.takeSessions_inv (s : State) (l : Lane) (old : List Session) (hs : Safety.Keeps que s) : Safety.Keeps que (State.takeSessions s l old) := by
  unfold State.takeSessions; dsimp only
  repeat' with_reducible first | assumption | apply State.xferKeep_inv | apply State.timeoutAll_inv | (refine inv_of_kept ?_; dsimp only; refine kept_of_inv ?_)

theorem State.loseSessions_inv (s : State) (hs : Safety.Keeps que s) : Safety.Keeps que (State.loseSessions s) := by
  unfold State.loseSessions; dsimp only
  repeat' with_reducible first | assumption | apply State.xferKeep_inv | (refine inv_of_kept ?_; dsimp only; refine kept_of_inv ?_)

theorem State.recordSwitch_inv (s : State) (cause : Nat) (l : Lane) (kind gap : Nat) (ev : Bool) (hs : Safety.Keeps que s) : Safety.Keeps que (State.recordSwitch s cause l kind gap ev) := by
  unfold State.recordSwitch; dsimp only
  repeat' with_reducible first | assumption | apply State.fset_inv | apply State.finc_inv | apply State.fsat_inv | apply State.event_inv | (apply inv_ite <;> intros)

theorem State.ckvLost_inv (s : State) (l : Lane) (busy : List Nat) (hs : Safety.Keeps que s) : Safety.Keeps que (State.ckvLost s l busy) := by
  unfold State.ckvLost
  repeat' with_reducible first | assumption | apply State.fset_inv | (apply inv_foldl <;> intros)

theorem State.bistRestart_inv (s : State) (l : Lane) (hs : Safety.Keeps que s) : Safety.Keeps que (State.bistRestart s l) := by
  unfold State.bistRestart; dsimp only
  repeat' with_reducible first | assumption | apply State.regClear_inv | apply State.setLane_inv

theorem State.makeActive_inv (s : State) (p : Lane) (hot : Bool) (hs : Safety.Keeps que s) : Safety.Keeps que (State.makeActive s p hot).1 := by
  unfold State.makeActive; dsimp only
  repeat' with_reducible first | assumption | apply State.setLstate_inv | apply State.setLane_inv | (apply State.forPorts_inv <;> intros) | apply State.lumArrive_inv | apply State.lumStart_inv | apply State.grantsPaired_inv | apply State.startLane_inv | apply State.takeSessions_inv | apply State.loseSessions_inv | apply State.ckvLost_inv | apply State.bistRestart_inv | (apply inv_ite <;> intros) | (refine inv_of_kept ?_; dsimp only; refine kept_of_inv ?_) | (refine inv_of_kept ?_; dsimp only; first | refine kept_fewer _ ?_ | refine kept_marks _ ?_ | refine kept_tick ?_) | split

theorem State.takePaired_inv (s : State) (t : Takeover) (hs : Safety.Keeps que s) : Safety.Keeps que (State.takePaired s t) := by
  unfold State.takePaired; dsimp only
  repeat' with_reducible first | assumption | apply State.loadIfFirst_inv | apply State.recordSwitch_inv | apply State.makeActive_inv

theorem State.takeWide_inv (s : State) (t : Takeover) (hs : Safety.Keeps que s) : Safety.Keeps que (State.takeWide s t) := by
  unfold State.takeWide; dsimp only
  repeat' with_reducible first | assumption | (apply State.forPorts_inv <;> intros) | apply State.lumForget_inv | apply State.lumArrive_inv | apply State.wideTake_inv | apply State.loadIfFirst_inv | apply State.recordSwitch_inv | (apply inv_ite <;> intros) | (refine inv_of_kept ?_; dsimp only; refine kept_of_inv ?_)

theorem State.handover_inv (s : State) (cause : Nat) (after : LState) (hot ev : Bool) (hs : Safety.Keeps que s) : Safety.Keeps que (State.handover s cause after hot ev) := by
  unfold State.handover; dsimp only
  repeat' with_reducible first | assumption | apply State.event_inv | apply State.setLstate_inv | apply State.setLane_inv | apply State.laneStop_inv | apply State.loadIfFirst_inv | apply State.recordSwitch_inv | apply State.makeActive_inv | (apply inv_ite <;> intros) | (refine inv_of_kept ?_; dsimp only; refine kept_of_inv ?_)

theorem State.holdLane_inv (s : State) (l : Lane) (starting : Bool) (hs : Safety.Keeps que s) : Safety.Keeps que (State.holdLane s l starting) := by
  unfold State.holdLane; dsimp only
  repeat' with_reducible first | assumption | apply State.setLaneHg_inv | apply State.laneStop_inv | (apply inv_ite <;> intros)

theorem State.enterHold_inv (s : State) (cause : Nat) (hs : Safety.Keeps que s) : Safety.Keeps que (State.enterHold s cause) := by
  unfold State.enterHold; dsimp only
  repeat' with_reducible first | assumption | apply State.enterMode_inv | apply State.handover_inv | apply State.holdLane_inv | (refine inv_of_kept ?_; dsimp only; refine kept_of_inv ?_)

theorem State.failedRetry_inv (s : State) (l : Lane) (hs : Safety.Keeps que s) : Safety.Keeps que (State.failedRetry s l) := by
  unfold State.failedRetry; dsimp only
  repeat' with_reducible first | assumption | apply State.setLaneHg_inv | (apply inv_ite <;> intros)

theorem State.noLane_inv (s : State) (hs : Safety.Keeps que s) : Safety.Keeps que (State.noLane s) := by
  unfold State.noLane; dsimp only
  repeat' with_reducible first | assumption | apply State.loseSessions_inv | apply State.enterHold_inv | apply State.failedRetry_inv | (apply inv_ite <;> intros) | (refine inv_of_kept ?_; dsimp only; refine kept_of_inv ?_) | (refine inv_of_kept ?_; dsimp only; first | refine kept_fewer _ ?_ | refine kept_marks _ ?_ | refine kept_tick ?_) | split

theorem State.leadStart_inv (s : State) (l : Lane) (hs : Safety.Keeps que s) : Safety.Keeps que (State.leadStart s l) := by
  unfold State.leadStart; dsimp only
  repeat' with_reducible first | assumption | apply State.setLaneHg_inv | apply State.lumStart_inv | apply State.enterMode_inv | apply State.grantsPaired_inv | apply State.grantsWide_inv | apply State.startLane_inv | apply State.wideTake_inv | apply State.bistRestart_inv | (apply inv_ite <;> intros) | (refine inv_of_kept ?_; dsimp only; refine kept_of_inv ?_) | (refine inv_of_kept ?_; dsimp only; first | refine kept_fewer _ ?_ | refine kept_marks _ ?_ | refine kept_tick ?_) | split

theorem State.setSiphon_inv (s : State) (n : Nat) (hs : Safety.Keeps que s) : Safety.Keeps que (State.setSiphon s n) := by
  unfold State.setSiphon; dsimp only
  repeat' with_reducible first | assumption | apply State.sysPage_inv | apply State.event_inv | (apply inv_ite <;> intros) | (refine inv_of_kept ?_; dsimp only; refine kept_of_inv ?_)

theorem State.flashErase_inv (s : State) (l : Lane) (o n : Nat) (hs : Safety.Keeps que s) : Safety.Keeps que (State.flashErase s l o n) := by
  unfold State.flashErase
  repeat' with_reducible first | assumption | apply State.memClear_inv

theorem State.bankErase_inv (s : State) (l : Lane) (b : Nat) (hs : Safety.Keeps que s) : Safety.Keeps que (State.bankErase s l b) := by
  unfold State.bankErase
  repeat' with_reducible first | assumption | apply State.setBank_inv | apply State.flashErase_inv

theorem State.pendingTo_inv (s : State) (l : Lane) (st : Nat) (hs : Safety.Keeps que s) : Safety.Keeps que (State.pendingTo s l st) := by
  unfold State.pendingTo; dsimp only
  repeat' with_reducible first | assumption | apply State.setBank_inv | (refine inv_of_kept ?_; dsimp only; refine kept_of_inv ?_) | (refine inv_of_kept ?_; dsimp only; first | refine kept_fewer _ ?_ | refine kept_marks _ ?_ | refine kept_tick ?_) | split

theorem State.confirmBank_inv (s : State) (l : Lane) (hs : Safety.Keeps que s) : Safety.Keeps que (State.confirmBank s l) := by
  unfold State.confirmBank; dsimp only
  repeat' with_reducible first | assumption | apply State.setBank_inv | (refine inv_of_kept ?_; dsimp only; refine kept_of_inv ?_) | (refine inv_of_kept ?_; dsimp only; first | refine kept_fewer _ ?_ | refine kept_marks _ ?_ | refine kept_tick ?_) | split

theorem State.fallbackBanks_inv (s : State) (hs : Safety.Keeps que s) : Safety.Keeps que (State.fallbackBanks s) := by
  unfold State.fallbackBanks; dsimp only
  repeat' with_reducible first | assumption | apply State.setSiphon_inv | apply State.bankErase_inv | apply State.pendingTo_inv | (refine inv_of_kept ?_; dsimp only; refine kept_of_inv ?_) | (refine inv_of_kept ?_; dsimp only; first | refine kept_fewer _ ?_ | refine kept_marks _ ?_ | refine kept_tick ?_) | split

theorem State.fallbackEvent_inv (s : State) (cause : Nat) (hs : Safety.Keeps que s) : Safety.Keeps que (State.fallbackEvent s cause) := by
  unfold State.fallbackEvent; dsimp only
  repeat' with_reducible first | assumption | apply State.event_inv | apply State.setSiphon_inv | apply State.sipFallback_inv | (refine inv_of_kept ?_; dsimp only; refine kept_of_inv ?_)

theorem State.exerciseEnd_inv (s : State) (result : Nat) (lane : Option Lane) (hs : Safety.Keeps que s) : Safety.Keeps que (State.exerciseEnd s result lane) := by
  unfold State.exerciseEnd; dsimp only
  repeat' with_reducible first | assumption | apply State.fset_inv | apply State.sysPage_inv | apply State.event_inv | (apply inv_ite <;> intros) | (refine inv_of_kept ?_; dsimp only; refine kept_of_inv ?_) | (refine inv_of_kept ?_; dsimp only; first | refine kept_fewer _ ?_ | refine kept_marks _ ?_ | refine kept_tick ?_) | split

theorem State.keepReport_inv (s t : State) (l : Lane) (cause : Nat) (ht : Safety.Keeps que t) : Safety.Keeps que (State.keepReport s t l cause) := by
  unfold State.keepReport
  repeat' with_reducible first | assumption | apply State.wr_inv | (apply inv_foldl <;> intros) | (apply inv_ite <;> intros)

theorem State.markFailed_inv (s : State) (l : Lane) (cause : Nat) (hs : Safety.Keeps que s) : Safety.Keeps que (State.markFailed s l cause) := by
  unfold State.markFailed; dsimp only
  repeat' with_reducible first | assumption | apply State.fset_inv | apply State.sysPage_inv | apply State.event_inv | apply State.setLaneHg_inv | apply State.setLstate_inv | apply State.keepReport_inv | apply State.rstNote_inv | apply State.laneAssert_inv | (apply inv_ite <;> intros) | (refine inv_of_kept ?_; dsimp only; refine kept_of_inv ?_)

theorem State.failRole_inv (s : State) (l : Lane) (was : LState) (cause gap : Nat) (hs : Safety.Keeps que s) : Safety.Keeps que (State.failRole s l was cause gap) := by
  unfold State.failRole; dsimp only
  repeat' with_reducible first | assumption | apply State.setLaneHg_inv | apply State.loadIfFirst_inv | apply State.handover_inv | apply State.noLane_inv | apply State.leadStart_inv | apply State.exerciseEnd_inv | (apply inv_ite <;> intros) | (refine inv_of_kept ?_; dsimp only; refine kept_of_inv ?_) | (refine inv_of_kept ?_; dsimp only; first | refine kept_fewer _ ?_ | refine kept_marks _ ?_ | refine kept_tick ?_) | split

theorem State.laneFail_inv (s : State) (l : Lane) (cause : Nat) (hs : Safety.Keeps que s) : Safety.Keeps que (State.laneFail s l cause) := by
  unfold State.laneFail; dsimp only
  repeat' with_reducible first | assumption | apply State.fset_inv | apply State.setLaneHg_inv | apply State.xferKeep_inv | apply State.fallbackBanks_inv | apply State.fallbackEvent_inv | apply State.markFailed_inv | apply State.failRole_inv | (apply inv_ite <;> intros) | (refine inv_of_kept ?_; dsimp only; refine kept_of_inv ?_) | (refine inv_of_kept ?_; dsimp only; first | refine kept_fewer _ ?_ | refine kept_marks _ ?_ | refine kept_tick ?_) | split

theorem State.computeClear_inv (s : State) (l : Lane) (hs : Safety.Keeps que s) : Safety.Keeps que (State.computeClear s l) := by
  unfold State.computeClear; dsimp only
  repeat' with_reducible first | assumption | apply State.regClear_inv | apply State.memClear_inv | apply State.setLane_inv | apply State.laneStop_inv

theorem State.enterSafe_inv (s : State) (cause : Nat) (hs : Safety.Keeps que s) : Safety.Keeps que (State.enterSafe s cause) := by
  unfold State.enterSafe; dsimp only
  repeat' with_reducible first | assumption | apply State.fset_inv | apply State.fsetB_inv | apply State.finc_inv | apply State.event_inv | apply State.setInReset_inv | apply State.aioSafe_inv | (apply State.forPorts_inv <;> intros) | apply State.portSafe_inv | apply State.canSafe_inv | apply State.enterMode_inv | apply State.laneStop_inv | apply State.laneClear_inv | apply State.rstNote_inv | apply State.loadSwitch_inv | apply State.loadMeter_inv | apply State.timeoutAll_inv | apply State.handover_inv | apply State.exerciseEnd_inv | apply State.computeClear_inv | (apply inv_foldl <;> intros) | (apply inv_ite <;> intros) | (refine inv_of_kept ?_; dsimp only; refine kept_of_inv ?_) | (refine inv_of_kept ?_; dsimp only; first | refine kept_fewer _ ?_ | refine kept_marks _ ?_ | refine kept_tick ?_) | split

theorem State.switchReset_inv (s : State) (hs : Safety.Keeps que s) : Safety.Keeps que (State.switchReset s) := by
  unfold State.switchReset; dsimp only
  repeat' with_reducible first | assumption | apply State.regClear_inv | apply State.memClear_inv | (apply State.forPorts_inv <;> intros) | apply State.lumNone_inv | apply State.linkDown_inv | apply State.ptpTo_inv | (apply inv_foldl <;> intros) | (apply inv_ite <;> intros) | (refine inv_of_kept ?_; dsimp only; refine kept_of_inv ?_)

theorem State.blockClear_inv (s : State) (hs : Safety.Keeps que s) (x : Dom) : Safety.Keeps que (State.blockClear s x) := by
  cases x <;> (unfold State.blockClear; dsimp only)
  all_goals repeat' with_reducible first | assumption | apply State.aioReset_inv | apply State.canReset_inv | apply State.meterReset_inv | apply State.laneClear_inv | apply State.switchReset_inv

theorem State.resetSix_inv (s : State) (src : Nat) (hs : Safety.Keeps que s) : Safety.Keeps que (State.resetSix s src) := by
  unfold State.resetSix; dsimp only
  repeat' with_reducible first | assumption | apply State.finc_inv | apply State.setInReset_inv | apply State.setDom_inv | apply State.setLstate_inv | apply State.rstNote_inv | apply State.rstBit_inv | apply State.laneAssert_inv | apply State.loseSessions_inv | apply State.handover_inv | apply State.exerciseEnd_inv | apply State.blockClear_inv | (apply inv_foldl <;> intros) | (apply inv_ite <;> intros) | (refine inv_of_kept ?_; dsimp only; refine kept_of_inv ?_)

end Sys2Proof.Machine
end

