-- ==== Sys2Proof/Laws/InvImgOps.lean ====
section
/-! SUPPORT. The invariant under what Machine/ImgOps.lean does. -/

namespace Sys2Proof.Machine
open Sys2Proof

variable {que : List Instr}

theorem State.laneImage_inv (s : State) (l : Lane) (i : ProgImage) (hs : Safety.Keeps que s) : Safety.Keeps que (State.laneImage s l i) := by
  unfold State.laneImage; dsimp only
  repeat' with_reducible first | assumption | apply State.fset_inv | apply State.regClear_inv | apply State.placeImage_inv | (apply inv_foldl <;> intros)

theorem State.imagePoints_inv (s : State) (i : ProgImage) (hs : Safety.Keeps que s) : Safety.Keeps que (State.imagePoints s i) := by
  unfold State.imagePoints; dsimp only
  repeat' with_reducible first | assumption | apply State.fset_inv | apply State.rolesEnd_inv | (apply inv_foldl <;> intros) | (refine inv_of_kept ?_; dsimp only; refine kept_of_inv ?_)

theorem State.imageCan_inv (s : State) (i : ProgImage) (hs : Safety.Keeps que s) : Safety.Keeps que (State.imageCan s i) := by
  unfold State.imageCan; dsimp only
  repeat' with_reducible first | assumption | apply State.wr_inv | apply State.canChanged_inv | (apply inv_foldl <;> intros) | (apply inv_ite <;> intros)

theorem State.imageLanes_inv (s : State) (i : ProgImage) (hs : Safety.Keeps que s) : Safety.Keeps que (State.imageLanes s i) := by
  unfold State.imageLanes; dsimp only
  repeat' with_reducible first | assumption | apply State.setLstate_inv | apply State.setLane_inv | apply State.grantsPaired_inv | apply State.grantsWide_inv | (apply inv_foldl <;> intros) | (apply inv_ite <;> intros) | (refine inv_of_kept ?_; dsimp only; refine kept_of_inv ?_)

theorem State.imageForce_inv (s : State) (i : ProgImage) (hs : Safety.Keeps que s) : Safety.Keeps que (State.imageForce s i) := by
  unfold State.imageForce; dsimp only
  repeat' with_reducible first | assumption | apply State.fset_inv | apply State.laneImage_inv | apply State.imagePoints_inv | apply State.imageCan_inv | apply State.lumForce_inv | (apply inv_ite <;> intros) | (refine inv_of_kept ?_; dsimp only; refine kept_of_inv ?_)

theorem State.imageSwap_inv (s : State) (i : ProgImage) (hs : Safety.Keeps que s) : Safety.Keeps que (State.imageSwap s i) := by
  unfold State.imageSwap; dsimp only
  repeat' with_reducible first | assumption | apply State.imageForce_inv | (refine inv_of_kept ?_; dsimp only; refine kept_of_inv ?_)

theorem State.imageStart_inv (s : State) (i : ProgImage) (hs : Safety.Keeps que s) : Safety.Keeps que (State.imageStart s i) := by
  unfold State.imageStart; dsimp only
  repeat' with_reducible first | assumption | apply State.enterMode_inv | apply State.startLane_inv | apply State.wideTake_inv | apply State.imageLanes_inv | apply State.imageSwap_inv | (apply inv_foldl <;> intros) | (apply inv_ite <;> intros) | (refine inv_of_kept ?_; dsimp only; refine kept_of_inv ?_) | (refine inv_of_kept ?_; dsimp only; first | refine kept_fewer _ ?_ | refine kept_marks _ ?_ | refine kept_tick ?_) | split

theorem State.laneSettings_inv (s : State) (l : Lane) (hs : Safety.Keeps que s) : Safety.Keeps que (State.laneSettings s l) := by
  unfold State.laneSettings; dsimp only
  repeat' with_reducible first | assumption | apply State.wr_inv | apply State.fset_inv | (apply inv_foldl <;> intros) | (refine inv_of_kept ?_; dsimp only; refine kept_of_inv ?_) | (refine inv_of_kept ?_; dsimp only; first | refine kept_fewer _ ?_ | refine kept_marks _ ?_ | refine kept_tick ?_) | split

theorem State.settingsStart_inv (s : State) (x : SettingsImage) (hs : Safety.Keeps que s) : Safety.Keeps que (State.settingsStart s x) := by
  unfold State.settingsStart; dsimp only
  repeat' with_reducible first | assumption | apply State.wr_inv | apply State.fset_inv | apply State.event_inv | (apply State.forPorts_inv <;> intros) | apply State.lumChanged_inv | apply State.portCtrlChanged_inv | apply State.reRole_inv | apply State.flowSync_inv | apply State.laneSettings_inv | (apply inv_foldl <;> intros) | (apply inv_ite <;> intros) | (refine inv_of_kept ?_; dsimp only; refine kept_of_inv ?_) | (refine inv_of_kept ?_; dsimp only; first | refine kept_fewer _ ?_ | refine kept_marks _ ?_ | refine kept_tick ?_) | split

theorem State.settingsJudge_inv (s : State) (x y : SettingsImage) (hs : Safety.Keeps que s) : Safety.Keeps que (State.settingsJudge s x y) := by
  unfold State.settingsJudge; dsimp only
  repeat' with_reducible first | assumption | apply State.event_inv | apply State.settingsStart_inv | (apply inv_foldl <;> intros) | (apply inv_ite <;> intros) | (refine inv_of_kept ?_; dsimp only; refine kept_of_inv ?_)

theorem State.laneLoad_inv (s : State) (l : Lane) (image : Option ProgImage) (sett : Option SettingsImage) (hs : Safety.Keeps que s) : Safety.Keeps que (State.laneLoad s l image sett) := by
  unfold State.laneLoad; dsimp only
  repeat' with_reducible first | assumption | apply State.laneImage_inv | apply State.laneSettings_inv | apply State.settingsStart_inv | apply State.settingsJudge_inv | (refine inv_of_kept ?_; dsimp only; refine kept_of_inv ?_) | (refine inv_of_kept ?_; dsimp only; first | refine kept_fewer _ ?_ | refine kept_marks _ ?_ | refine kept_tick ?_) | split

end Sys2Proof.Machine
end

