-- ==== Sys2Proof/Laws/InvUpdOps.lean ====
section
/-! SUPPORT. The invariant under what Machine/UpdOps.lean does. -/

namespace Sys2Proof.Machine
open Sys2Proof

variable {que : List Instr}

theorem State.xferErase_inv (s : State) (kind : Nat) (l : Lane) (hs : Safety.Keeps que s) : Safety.Keeps que (State.xferErase s kind l) := by
  unfold State.xferErase; dsimp only
  repeat' with_reducible first | assumption | apply State.flashErase_inv | apply State.bankErase_inv | (apply inv_ite <;> intros)

theorem State.xferBegin_inv (s : State) (session kind size : Nat) (hs : Safety.Keeps que s) : Safety.Keeps que (State.xferBegin s session kind size) := by
  unfold State.xferBegin; dsimp only
  repeat' with_reducible first | assumption | apply State.xferErase_inv | (apply inv_foldl <;> intros) | (refine inv_of_kept ?_; dsimp only; refine kept_of_inv ?_)

theorem State.xferWrite_inv (s : State) (x : Xfer) (off : Nat) (data : List Byte) (hs : Safety.Keeps que s) : Safety.Keeps que (State.xferWrite s x off data) := by
  unfold State.xferWrite; dsimp only
  repeat' with_reducible first | assumption | apply State.mwrite_inv | (apply inv_foldl <;> intros) | (refine inv_of_kept ?_; dsimp only; refine kept_of_inv ?_)

theorem State.wideLeave_inv (s : State) (l : Lane) (cause : Nat) (hs : Safety.Keeps que s) : Safety.Keeps que (State.wideLeave s l cause) := by
  unfold State.wideLeave; dsimp only
  repeat' with_reducible first | assumption | (apply State.forPorts_inv <;> intros) | apply State.xferKeep_inv | apply State.lumForget_inv | apply State.lumArrive_inv | apply State.wideTake_inv | (apply inv_ite <;> intros) | (refine inv_of_kept ?_; dsimp only; refine kept_of_inv ?_)

theorem State.sipReset_inv (s : State) (l : Lane) (hs : Safety.Keeps que s) : Safety.Keeps que (State.sipReset s l) := by
  unfold State.sipReset; dsimp only
  repeat' with_reducible first | assumption | apply State.setLaneHg_inv | apply State.setLane_inv | apply State.laneAssert_inv | apply State.wideLeave_inv | (apply inv_ite <;> intros) | (refine inv_of_kept ?_; dsimp only; refine kept_of_inv ?_)

theorem State.sipBegin_inv (s : State) (f : FwImage) (hs : Safety.Keeps que s) : Safety.Keeps que (State.sipBegin s f) := by
  unfold State.sipBegin; dsimp only
  repeat' with_reducible first | assumption | apply State.setBank_inv | apply State.setSiphon_inv | apply State.sipReset_inv | (apply inv_foldl <;> intros) | (refine inv_of_kept ?_; dsimp only; refine kept_of_inv ?_)

theorem State.sipHandover_inv (s : State) (hs : Safety.Keeps que s) : Safety.Keeps que (State.sipHandover s) := by
  unfold State.sipHandover; dsimp only
  repeat' with_reducible first | assumption | apply State.setLane_inv | apply State.handover_inv | (apply inv_ite <;> intros) | (refine inv_of_kept ?_; dsimp only; refine kept_of_inv ?_)

theorem State.settingsTake_inv (s : State) (hs : Safety.Keeps que s) : Safety.Keeps que (State.settingsTake s) := by
  unfold State.settingsTake; dsimp only
  repeat' with_reducible first | assumption | apply State.settingsStart_inv | (refine inv_of_kept ?_; dsimp only; refine kept_of_inv ?_) | (refine inv_of_kept ?_; dsimp only; first | refine kept_fewer _ ?_ | refine kept_marks _ ?_ | refine kept_tick ?_) | split

theorem State.windowStart_inv (s : State) (l : Lane) (hs : Safety.Keeps que s) : Safety.Keeps que (State.windowStart s l) := by
  unfold State.windowStart; dsimp only
  repeat' with_reducible first | assumption | apply State.setSiphon_inv | (refine inv_of_kept ?_; dsimp only; refine kept_of_inv ?_)

theorem State.sipFallback_inv (s : State) (hs : Safety.Keeps que s) : Safety.Keeps que (State.sipFallback s) := by
  unfold State.sipFallback; dsimp only
  repeat' with_reducible first | assumption | apply State.fallbackBanks_inv | apply State.sipReset_inv

theorem State.sipLone_inv (s : State) (hs : Safety.Keeps que s) : Safety.Keeps que (State.sipLone s) := by
  unfold State.sipLone; dsimp only
  repeat' with_reducible first | assumption | apply State.noLane_inv | apply State.sipFallback_inv | (apply inv_ite <;> intros)

theorem State.imageReject_inv (s : State) (kind lane : Nat) (hs : Safety.Keeps que s) : Safety.Keeps que (State.imageReject s kind lane) := by
  unfold State.imageReject; dsimp only
  repeat' with_reducible first | assumption | apply State.event_inv

theorem State.imageTake_inv (s : State) (body : Option ImageBody) (hs : Safety.Keeps que s) : Safety.Keeps que (State.imageTake s body) := by
  unfold State.imageTake; dsimp only
  repeat' with_reducible first | assumption | apply State.setBank_inv | apply State.sipBegin_inv | (apply inv_foldl <;> intros) | (apply inv_ite <;> intros) | (refine inv_of_kept ?_; dsimp only; refine kept_of_inv ?_) | (refine inv_of_kept ?_; dsimp only; first | refine kept_fewer _ ?_ | refine kept_marks _ ?_ | refine kept_tick ?_) | split

end Sys2Proof.Machine
end

