-- ==== Sys2Proof/Laws/InvCopyOps.lean ====
section
/-! SUPPORT. The invariant under what Machine/CopyOps.lean does. -/

namespace Sys2Proof.Machine
open Sys2Proof

variable {que : List Instr}

theorem State.copyRegs_inv (s : State) (l p : Lane) (hs : Safety.Keeps que s) : Safety.Keeps que (State.copyRegs s l p) := by
  unfold State.copyRegs; dsimp only
  repeat' with_reducible first | assumption | apply State.wr_inv | apply State.regClear_inv | (apply inv_foldl <;> intros)

theorem State.copyMem_inv (s : State) (l p : Lane) (hs : Safety.Keeps que s) : Safety.Keeps que (State.copyMem s l p) := by
  unfold State.copyMem; dsimp only
  repeat' with_reducible first | assumption | apply State.copyRange_inv | (apply inv_foldl <;> intros) | (apply inv_ite <;> intros) | (refine inv_of_kept ?_; dsimp only; refine kept_of_inv ?_) | (refine inv_of_kept ?_; dsimp only; first | refine kept_fewer _ ?_ | refine kept_marks _ ?_ | refine kept_tick ?_) | split

theorem State.copyApply_inv (s : State) (l p : Lane) (hs : Safety.Keeps que s) : Safety.Keeps que (State.copyApply s l p) := by
  unfold State.copyApply; dsimp only
  repeat' with_reducible first | assumption | apply State.fset_inv | apply State.free_inv | apply State.setLane_inv | apply State.copyRegs_inv | apply State.copyMem_inv

theorem State.syncRest_inv (s : State) (kib : Nat) (hs : Safety.Keeps que s) : Safety.Keeps que (State.syncRest s kib) := by
  unfold State.syncRest
  repeat' with_reducible first | assumption | apply State.fset_inv

theorem State.syncStep_inv (s : State) (l : Lane) (hs : Safety.Keeps que s) : Safety.Keeps que (State.syncStep s l) := by
  unfold State.syncStep
  repeat' with_reducible first | assumption | apply State.syncRest_inv

theorem State.copyFrames_inv (s : State) (l : Lane) (crc resent : Nat) (hs : Safety.Keeps que s) : Safety.Keeps que (State.copyFrames s l crc resent) := by
  unfold State.copyFrames
  repeat' with_reducible first | assumption | apply State.fadd_inv

end Sys2Proof.Machine
end

