-- ==== Sys2Proof/Laws/InvResetOps.lean ====
section
/-! SUPPORT. The invariant under what Machine/ResetOps.lean does. -/

namespace Sys2Proof.Machine
open Sys2Proof

variable {que : List Instr}

theorem State.domAssert_inv (s : State) (d : Dom) (hs : Safety.Keeps que s) : Safety.Keeps que (State.domAssert s d) := by
  unfold State.domAssert; dsimp only
  repeat' with_reducible first | assumption | apply State.finc_inv | apply State.event_inv | apply State.setInReset_inv | apply State.setDom_inv | apply State.canSafe_inv | apply State.rstNote_inv | apply State.rstBit_inv | apply State.blockClear_inv | (apply inv_ite <;> intros)

theorem State.domRequest_inv (s : State) (d : Dom) (src : Nat) (hs : Safety.Keeps que s) : Safety.Keeps que (State.domRequest s d src) := by
  unfold State.domRequest; dsimp only
  repeat' with_reducible first | assumption | apply State.setDom_inv | apply State.rstBit_inv | apply State.domAssert_inv | (apply inv_ite <;> intros) | (refine inv_of_kept ?_; dsimp only; refine kept_of_inv ?_) | (refine inv_of_kept ?_; dsimp only; first | refine kept_fewer _ ?_ | refine kept_marks _ ?_ | refine kept_tick ?_) | split

theorem State.flashRepair_inv (s : State) (l : Lane) (hs : Safety.Keeps que s) : Safety.Keeps que (State.flashRepair s l) := by
  unfold State.flashRepair; dsimp only
  repeat' with_reducible first | assumption | apply State.fset_inv | apply State.setBank_inv | apply State.flashErase_inv | (apply inv_foldl <;> intros) | (apply inv_ite <;> intros) | (refine inv_of_kept ?_; dsimp only; refine kept_of_inv ?_) | (refine inv_of_kept ?_; dsimp only; first | refine kept_fewer _ ?_ | refine kept_marks _ ?_ | refine kept_tick ?_) | split

theorem State.laneRelease_inv (s : State) (l : Lane) (hs : Safety.Keeps que s) : Safety.Keeps que (State.laneRelease s l) := by
  unfold State.laneRelease; dsimp only
  repeat' with_reducible first | assumption | apply State.finc_inv | apply State.setInReset_inv | apply State.setDom_inv | apply State.setLaneHg_inv | apply State.flashRepair_inv | (apply inv_ite <;> intros) | (refine inv_of_kept ?_; dsimp only; refine kept_of_inv ?_)

theorem State.domRelease_inv (s : State) (d : Dom) (hs : Safety.Keeps que s) : Safety.Keeps que (State.domRelease s d) := by
  unfold State.domRelease; dsimp only
  repeat' with_reducible first | assumption | apply State.setInReset_inv | apply State.setDom_inv | apply State.meterUp_inv | apply State.laneRelease_inv | (apply inv_ite <;> intros)

theorem State.domReload_inv (s : State) (d : Dom) (hs : Safety.Keeps que s) : Safety.Keeps que (State.domReload s d) := by
  unfold State.domReload; dsimp only
  repeat' with_reducible first | assumption | apply State.setDom_inv | apply State.loadSwitch_inv | apply State.loadMeter_inv | apply State.loadCan_inv | apply State.loadAio_inv | (apply inv_ite <;> intros) | (refine inv_of_kept ?_; dsimp only; refine kept_of_inv ?_) | (refine inv_of_kept ?_; dsimp only; first | refine kept_fewer _ ?_ | refine kept_marks _ ?_ | refine kept_tick ?_) | split

theorem State.rstAfter_inv (s : State) (hs : Safety.Keeps que s) : Safety.Keeps que (State.rstAfter s) := by
  unfold State.rstAfter; dsimp only
  repeat' with_reducible first | assumption | apply State.wr_inv | apply State.laneFail_inv | apply State.enterSafe_inv | (apply inv_ite <;> intros)

theorem State.rstCommand_inv (s : State) (v : Nat) (hs : Safety.Keeps que s) : ∀ t, State.rstCommand s v = some t → Safety.Keeps que t := by
  intro t ht; unfold State.rstCommand at ht; (try dsimp only at ht); repeat' split at ht
  all_goals first | obtain rfl := Option.some.inj ht | simp only [reduceCtorEq] at ht
  repeat' with_reducible first | assumption | apply State.wr_inv | apply State.setDom_inv | (apply inv_foldl <;> intros) | (apply inv_ite <;> intros)

end Sys2Proof.Machine
end

