-- ==== Sys2Proof/Laws/InvBistOps.lean ====
section
/-! SUPPORT. The invariant under what Machine/BistOps.lean does. -/

namespace Sys2Proof.Machine
open Sys2Proof

variable {que : List Instr}

theorem State.stallCheck_inv (s : State) (c : Nat) (hs : Safety.Keeps que s) : Safety.Keeps que (State.stallCheck s c) := by
  unfold State.stallCheck; dsimp only
  repeat' with_reducible first | assumption | apply State.fset_inv | apply State.event_inv | (apply inv_ite <;> intros)

theorem State.setBist_inv (s : State) (c : Nat) (x : BistX) (hs : Safety.Keeps que s) : Safety.Keeps que (State.setBist s c x) := by
  unfold State.setBist; dsimp only
  repeat' with_reducible first | assumption | apply State.setLane_inv

theorem State.bistDrop_inv (s : State) (c : Nat) (hs : Safety.Keeps que s) : Safety.Keeps que (State.bistDrop s c) := by
  unfold State.bistDrop; dsimp only
  repeat' with_reducible first | assumption | apply State.fset_inv | apply State.copyRange_inv | apply State.setBist_inv | (refine inv_of_kept ?_; dsimp only; refine kept_of_inv ?_) | (refine inv_of_kept ?_; dsimp only; first | refine kept_fewer _ ?_ | refine kept_marks _ ?_ | refine kept_tick ?_) | split

theorem State.mapOut_inv (s : State) (p : Nat) (hs : Safety.Keeps que s) : Safety.Keeps que (State.mapOut s p) := by
  unfold State.mapOut; dsimp only
  repeat' with_reducible first | assumption | apply State.fset_inv | apply State.sysPage_inv | apply State.bistDrop_inv | (apply inv_ite <;> intros) | (refine inv_of_kept ?_; dsimp only; refine kept_of_inv ?_)

theorem State.cellFault_inv (s : State) (p : Nat) (readable : Bool) (hs : Safety.Keeps que s) : Safety.Keeps que (State.cellFault s p readable) := by
  unfold State.cellFault; dsimp only
  repeat' with_reducible first | assumption | apply State.setCyc_inv | apply State.faultSettle_inv | apply State.stallCheck_inv | apply State.mapOut_inv | (apply inv_ite <;> intros) | (refine inv_of_kept ?_; dsimp only; refine kept_of_inv ?_) | (refine inv_of_kept ?_; dsimp only; first | refine kept_fewer _ ?_ | refine kept_marks _ ?_ | refine kept_tick ?_) | split

theorem State.cellTestFail_inv (s : State) (p : Nat) (slice : Bool) (hs : Safety.Keeps que s) : Safety.Keeps que (State.cellTestFail s p slice) := by
  unfold State.cellTestFail; dsimp only
  repeat' with_reducible first | assumption | apply State.cellMove_inv | apply State.cellVacate_inv | apply State.stallCheck_inv | apply State.mapOut_inv | (apply inv_ite <;> intros) | (refine inv_of_kept ?_; dsimp only; refine kept_of_inv ?_) | (refine inv_of_kept ?_; dsimp only; first | refine kept_fewer _ ?_ | refine kept_marks _ ?_ | refine kept_tick ?_) | split

theorem State.report_inv (s : State) (l : Lane) (kind : Nat) (t : SelfTest) (parts dp : Nat) (pass : Bool) (hs : Safety.Keeps que s) : Safety.Keeps que (State.report s l kind t parts dp pass) := by
  unfold State.report; dsimp only
  repeat' with_reducible first | assumption | apply State.fset_inv | apply State.fsetB_inv | apply State.fsat_inv | apply State.free_inv | apply State.event_inv | apply State.setLaneHg_inv

theorem State.testCells_inv (s : State) (l : Lane) (t : SelfTest) (hs : Safety.Keeps que s) : Safety.Keeps que (State.testCells s l t) := by
  unfold State.testCells
  repeat' with_reducible first | assumption | apply State.cellTestFail_inv | (apply inv_foldl <;> intros)

theorem State.bankSeen_inv (s : State) (l : Lane) (b : Nat) (f : Option FwImage) (hs : Safety.Keeps que s) : Safety.Keeps que (State.bankSeen s l b f) := by
  unfold State.bankSeen; dsimp only
  repeat' with_reducible first | assumption | apply State.setBank_inv | (apply inv_ite <;> intros) | (refine inv_of_kept ?_; dsimp only; refine kept_of_inv ?_) | (refine inv_of_kept ?_; dsimp only; first | refine kept_fewer _ ?_ | refine kept_marks _ ?_ | refine kept_tick ?_) | split

theorem State.bankFails_inv (s : State) (l : Lane) (b : Nat) (hs : Safety.Keeps que s) : Safety.Keeps que (State.bankFails s l b) := by
  unfold State.bankFails; dsimp only
  repeat' with_reducible first | assumption | apply State.setBank_inv | (apply inv_ite <;> intros)

theorem State.bootTry_inv (s : State) (l : Lane) (t : SelfTest) (hs : Safety.Keeps que s) : Safety.Keeps que (State.bootTry s l t).1 := by
  unfold State.bootTry; dsimp only
  repeat' with_reducible first | assumption | apply State.bankSeen_inv | apply State.bankFails_inv | (apply inv_ite_fst <;> intros) | (refine inv_of_kept ?_; dsimp only; refine kept_of_inv ?_)

theorem State.bistPick_inv (s : State) (c : Nat) (hs : Safety.Keeps que s) : Safety.Keeps que (State.bistPick s c) := by
  unfold State.bistPick; dsimp only
  repeat' with_reducible first | assumption | apply State.fset_inv | apply State.copyRange_inv | apply State.setBist_inv | (apply inv_ite <;> intros) | (refine inv_of_kept ?_; dsimp only; refine kept_of_inv ?_) | (refine inv_of_kept ?_; dsimp only; first | refine kept_fewer _ ?_ | refine kept_marks _ ?_ | refine kept_tick ?_) | split

theorem State.bistSkip_inv (s : State) (l : Lane) (volt clock : Nat) (hs : Safety.Keeps que s) : Safety.Keeps que (State.bistSkip s l volt clock) := by
  unfold State.bistSkip; dsimp only
  repeat' with_reducible first | assumption | apply State.fadd_inv | apply State.eventCounted_inv

theorem State.roundEnd_inv (s : State) (l : Lane) (hs : Safety.Keeps que s) : Safety.Keeps que (State.roundEnd s l) := by
  unfold State.roundEnd; dsimp only
  repeat' with_reducible first | assumption | apply State.fset_inv | apply State.setLane_inv | (apply inv_foldl <;> intros) | (apply inv_ite <;> intros)

theorem State.slicePass_inv (s : State) (c : Nat) (hs : Safety.Keeps que s) : Safety.Keeps que (State.slicePass s c) := by
  unfold State.slicePass; dsimp only
  repeat' with_reducible first | assumption | apply State.fset_inv | apply State.finc_inv | apply State.setBist_inv | apply State.bistDrop_inv | apply State.roundEnd_inv | (apply inv_ite <;> intros)

theorem State.sliceFail_inv (s : State) (c : Nat) (hs : Safety.Keeps que s) : Safety.Keeps que (State.sliceFail s c) := by
  unfold State.sliceFail; dsimp only
  repeat' with_reducible first | assumption | apply State.fset_inv | apply State.finc_inv | apply State.event_inv | apply State.setBist_inv | apply State.cellTestFail_inv | apply State.roundEnd_inv

end Sys2Proof.Machine
end

