-- ==== Sys2Proof/Laws/InvBist.lean ====
section
/-! SUPPORT. The invariant under what Machine/Bist.lean does. -/

namespace Sys2Proof.Machine
open Sys2Proof

variable {que : List Instr}

theorem execStartupSelftestDone_inv (lane : Lane) (test : SelfTest) (s : State) (hs : Safety.Keeps que s) : ∃ t, execStartupSelftestDone lane test s = .next t ∧ Safety.Keeps que t := by
  refine ⟨_, rfl, ?_⟩; dsimp only
  repeat' with_reducible first | assumption | apply State.fset_inv | apply State.event_inv | apply State.setSiphon_inv | apply State.pendingTo_inv | apply State.markFailed_inv | apply State.laneFail_inv | apply State.enterSafe_inv | apply State.sipReset_inv | apply State.report_inv | apply State.testCells_inv | apply State.bootTry_inv | (apply inv_ite <;> intros) | (apply inv_ite_fst <;> intros)

theorem execServicePassDone_inv (lane : Lane) (test : SelfTest) (s : State) (hs : Safety.Keeps que s) : ∃ t, execServicePassDone lane test s = .next t ∧ Safety.Keeps que t := by
  refine ⟨_, rfl, ?_⟩; dsimp only
  repeat' with_reducible first | assumption | apply State.setLstate_inv | apply State.laneFail_inv | apply State.report_inv | apply State.testCells_inv | (apply inv_ite <;> intros)

theorem execBistSliceDue_inv (lane : Lane) (cluster : Fin 8) (volt clock : BitVec 16) (s : State) (hs : Safety.Keeps que s) : ∃ t, execBistSliceDue lane cluster volt clock s = .next t ∧ Safety.Keeps que t := by
  refine ⟨_, rfl, ?_⟩; dsimp only
  repeat' with_reducible first | assumption | apply State.stallCheck_inv | apply State.setBist_inv | apply State.bistPick_inv | apply State.bistSkip_inv | (apply inv_ite <;> intros)

theorem execBistSliceDone_inv (lane : Lane) (cluster : Fin 8) (volt clock : BitVec 16) (pass : Bool) (s : State) (hs : Safety.Keeps que s) : ∃ t, execBistSliceDone lane cluster volt clock pass s = .next t ∧ Safety.Keeps que t := by
  refine ⟨_, rfl, ?_⟩; dsimp only
  repeat' with_reducible first | assumption | apply State.setBist_inv | apply State.bistSkip_inv | apply State.slicePass_inv | apply State.sliceFail_inv | (apply inv_ite <;> intros)

theorem execCellFault_inv (cell : Fin 272) (readable : Bool) (s : State) (hs : Safety.Keeps que s) : ∃ t, execCellFault cell readable s = .next t ∧ Safety.Keeps que t := by
  unfold execCellFault; split
  · exact ⟨_, rfl, hs⟩
  refine ⟨_, rfl, ?_⟩
  repeat' with_reducible first | assumption | apply State.cellFault_inv

end Sys2Proof.Machine
end

