-- ==== Sys2Proof/Laws/InvCabinet.lean ====
section
/-! SUPPORT. The invariant under what Machine/Cabinet.lean does. -/

namespace Sys2Proof.Machine
open Sys2Proof

variable {que : List Instr}

theorem execCabinetBusRead_inv (w : BitVec 12) (s : State) (hs : Safety.Keeps que s) : ∃ t, execCabinetBusRead w s = .next t ∧ Safety.Keeps que t := by
  refine ⟨_, rfl, ?_⟩; dsimp only
  repeat' with_reducible first | assumption | apply State.fset_inv | apply State.send_inv | (apply inv_ite <;> intros)

theorem State.ring_inv (s : State) (len : Nat) (hs : Safety.Keeps que s) : Safety.Keeps que (State.ring s len) := by
  unfold State.ring; dsimp only
  repeat' with_reducible first | assumption | apply State.fset_inv | apply State.finc_inv | apply State.authFail_inv | apply State.dropPacket_inv | (apply inv_ite <;> intros) | (refine inv_of_kept ?_; dsimp only; refine kept_of_inv ?_)

theorem State.dbRelease_inv (s : State) (hs : Safety.Keeps que s) : Safety.Keeps que (State.dbRelease s) := by
  unfold State.dbRelease; dsimp only
  repeat' with_reducible first | assumption | apply State.fset_inv | apply State.finc_inv | (apply inv_ite <;> intros) | (refine inv_of_kept ?_; dsimp only; refine kept_of_inv ?_)

theorem execCabinetBusWrite_inv (w : BitVec 12) (v : BitVec 16) (s : State) (hs : Safety.Keeps que s) : ∃ t, execCabinetBusWrite w v s = .next t ∧ Safety.Keeps que t := by
  refine ⟨_, rfl, ?_⟩
  repeat' with_reducible first | assumption | apply State.finc_inv | apply State.mwrite_inv | apply State.ring_inv | apply State.dbRelease_inv | (apply inv_ite <;> intros)

theorem execMirrorPinTimeout_inv (s : State) (hs : Safety.Keeps que s) : ∃ t, execMirrorPinTimeout s = .next t ∧ Safety.Keeps que t := by
  refine ⟨_, rfl, ?_⟩
  repeat' with_reducible first | assumption | apply State.fset_inv

theorem execDoorbellRing_inv (len : BitVec 16) (s : State) (hs : Safety.Keeps que s) : ∃ t, execDoorbellRing len s = .next t ∧ Safety.Keeps que t := by
  refine ⟨_, rfl, ?_⟩
  repeat' with_reducible first | assumption | apply State.ring_inv | (apply inv_ite <;> intros)

theorem execDoorbellReplyReady_inv (s : State) (hs : Safety.Keeps que s) : ∃ t, execDoorbellReplyReady s = .next t ∧ Safety.Keeps que t := by
  refine ⟨_, rfl, ?_⟩; dsimp only
  repeat' with_reducible first | assumption | apply State.fset_inv | apply State.mwrite_inv | apply State.freeBytes_inv | (apply inv_ite <;> intros) | (refine inv_of_kept ?_; dsimp only; refine kept_of_inv ?_) | (refine inv_of_kept ?_; dsimp only; first | refine kept_fewer _ ?_ | refine kept_marks _ ?_ | refine kept_tick ?_) | split

theorem execDoorbellRelease_inv (s : State) (hs : Safety.Keeps que s) : ∃ t, execDoorbellRelease s = .next t ∧ Safety.Keeps que t := by
  refine ⟨_, rfl, ?_⟩
  repeat' with_reducible first | assumption | apply State.dbRelease_inv | (apply inv_ite <;> intros)

theorem execDoorbellWriteWhileBusy_inv (s : State) (hs : Safety.Keeps que s) : ∃ t, execDoorbellWriteWhileBusy s = .next t ∧ Safety.Keeps que t := by
  refine ⟨_, rfl, ?_⟩
  repeat' with_reducible first | assumption | apply State.finc_inv | (apply inv_ite <;> intros)

theorem State.mirrorSwap_inv (s : State) (hs : Safety.Keeps que s) : Safety.Keeps que (State.mirrorSwap s) := by
  unfold State.mirrorSwap; dsimp only
  repeat' with_reducible first | assumption | apply State.finc_inv | apply State.mwrite_inv | (apply inv_ite <;> intros) | (refine inv_of_kept ?_; dsimp only; refine kept_of_inv ?_)

end Sys2Proof.Machine
end

