-- ==== Sys2Proof/Laws/InvCan.lean ====
section
/-! SUPPORT. The invariant under what Machine/Can.lean does. -/

namespace Sys2Proof.Machine
open Sys2Proof

variable {que : List Instr}

theorem execCanIntegrationDone_inv (ctl : Fin 4) (s : State) (hs : Safety.Keeps que s) : ∃ t, execCanIntegrationDone ctl s = .next t ∧ Safety.Keeps que t := by
  refine ⟨_, rfl, ?_⟩
  repeat' with_reducible first | assumption | apply State.fset_inv | (apply inv_ite <;> intros)

theorem execCanBusError_inv (ctl : Fin 4) (kind : Fin 7) (tec : BitVec 10) (rec : BitVec 9) (s : State) (hs : Safety.Keeps que s) : ∃ t, execCanBusError ctl kind tec rec s = .next t ∧ Safety.Keeps que t := by
  refine ⟨_, rfl, ?_⟩
  repeat' with_reducible first | assumption | apply State.fset_inv | apply State.finc_inv | apply State.canCounts_inv | (apply inv_ite <;> intros)

theorem execCanRecoveryDone_inv (ctl : Fin 4) (s : State) (hs : Safety.Keeps que s) : ∃ t, execCanRecoveryDone ctl s = .next t ∧ Safety.Keeps que t := by
  refine ⟨_, rfl, ?_⟩
  repeat' with_reducible first | assumption | apply State.fset_inv | apply State.canStateEvent_inv | (apply inv_ite <;> intros)

theorem State.canTake_inv (s : State) (n o : Nat) (dlc : Nat) (bytes : List Nat) (hs : Safety.Keeps que s) : Safety.Keeps que (State.canTake s n o dlc bytes) := by
  unfold State.canTake; dsimp only
  repeat' with_reducible first | assumption | apply State.fset_inv | apply State.finc_inv | apply State.eventCounted_inv | apply State.setCanObj_inv | apply State.setCanByte_inv | (apply inv_foldl <;> intros) | (apply inv_ite <;> intros) | (refine inv_of_kept ?_; dsimp only; refine kept_of_inv ?_)

theorem execCanFrameReceived_inv (ctl : Fin 4) (xtd : Bool) (ident : BitVec 29) (fdf : Bool) (dlc : BitVec 4) (data : List Byte) (tec : BitVec 10) (rec : BitVec 9) (s : State) (hs : Safety.Keeps que s) : ∃ t, execCanFrameReceived ctl xtd ident fdf dlc data tec rec s = .next t ∧ Safety.Keeps que t := by
  refine ⟨_, rfl, ?_⟩; dsimp only
  repeat' with_reducible first | assumption | apply State.fset_inv | apply State.finc_inv | apply State.eventCounted_inv | apply State.canCounts_inv | apply State.canTake_inv | (apply inv_ite <;> intros) | (refine inv_of_kept ?_; dsimp only; refine kept_of_inv ?_) | (refine inv_of_kept ?_; dsimp only; first | refine kept_fewer _ ?_ | refine kept_marks _ ?_ | refine kept_tick ?_) | split

theorem execCanRemoteFrame_inv (ctl : Fin 4) (s : State) (hs : Safety.Keeps que s) : ∃ t, execCanRemoteFrame ctl s = .next t ∧ Safety.Keeps que t := by
  refine ⟨_, rfl, ?_⟩
  repeat' with_reducible first | assumption | apply State.finc_inv | (apply inv_ite <;> intros)

theorem execCanRxTimeout_inv (ctl : Fin 4) (obj : Fin 128) (s : State) (hs : Safety.Keeps que s) : ∃ t, execCanRxTimeout ctl obj s = .next t ∧ Safety.Keeps que t := by
  refine ⟨_, rfl, ?_⟩
  repeat' with_reducible first | assumption | apply State.fset_inv | apply State.eventLimited_inv | (apply inv_ite <;> intros)

theorem execCanFrameSent_inv (ctl : Fin 4) (tdc : BitVec 16) (tec : BitVec 10) (rec : BitVec 9) (s : State) (hs : Safety.Keeps que s) : ∃ t, execCanFrameSent ctl tdc tec rec s = .next t ∧ Safety.Keeps que t := by
  refine ⟨_, rfl, ?_⟩; dsimp only
  repeat' with_reducible first | assumption | apply State.fset_inv | apply State.finc_inv | apply State.send_inv | apply State.setCanObj_inv | apply State.canSetPending_inv | apply State.canCounts_inv | (apply inv_ite <;> intros) | (refine inv_of_kept ?_; dsimp only; refine kept_of_inv ?_) | (refine inv_of_kept ?_; dsimp only; first | refine kept_fewer _ ?_ | refine kept_marks _ ?_ | refine kept_tick ?_) | split

theorem execCanArbitrationLost_inv (ctl : Fin 4) (s : State) (hs : Safety.Keeps que s) : ∃ t, execCanArbitrationLost ctl s = .next t ∧ Safety.Keeps que t := by
  refine ⟨_, rfl, ?_⟩; dsimp only
  repeat' with_reducible first | assumption | apply State.fset_inv | apply State.event_inv | apply State.setCanObj_inv | apply State.canSetPending_inv | (apply inv_ite <;> intros) | (refine inv_of_kept ?_; dsimp only; refine kept_of_inv ?_) | (refine inv_of_kept ?_; dsimp only; first | refine kept_fewer _ ?_ | refine kept_marks _ ?_ | refine kept_tick ?_) | split

theorem execCanRepeatStart_inv (ctl : Fin 4) (obj : Fin 128) (s : State) (hs : Safety.Keeps que s) : ∃ t, execCanRepeatStart ctl obj s = .next t ∧ Safety.Keeps que t := by
  refine ⟨_, rfl, ?_⟩
  repeat' with_reducible first | assumption | apply State.fset_inv | apply State.eventLimited_inv | apply State.canPend_inv | (apply inv_ite <;> intros)

theorem execCanRepeatSend_inv (ctl : Fin 4) (obj : Fin 128) (s : State) (hs : Safety.Keeps que s) : ∃ t, execCanRepeatSend ctl obj s = .next t ∧ Safety.Keeps que t := by
  refine ⟨_, rfl, ?_⟩
  repeat' with_reducible first | assumption | apply State.canPend_inv | (apply inv_ite <;> intros)

theorem execCanDominantTimeout_inv (ctl : Fin 4) (s : State) (hs : Safety.Keeps que s) : ∃ t, execCanDominantTimeout ctl s = .next t ∧ Safety.Keeps que t := by
  refine ⟨_, rfl, ?_⟩
  repeat' with_reducible first | assumption | apply State.fset_inv | apply State.event_inv | (apply inv_ite <;> intros)

theorem execCanTransceiverSupply_inv (ctl : Fin 4) (s : State) (hs : Safety.Keeps que s) : ∃ t, execCanTransceiverSupply ctl s = .next t ∧ Safety.Keeps que t := by
  refine ⟨_, rfl, ?_⟩
  repeat' with_reducible first | assumption | apply State.event_inv | (apply inv_ite <;> intros)

theorem execCanModeApply_inv (ctl : Fin 4) (s : State) (hs : Safety.Keeps que s) : ∃ t, execCanModeApply ctl s = .next t ∧ Safety.Keeps que t := by
  refine ⟨_, rfl, ?_⟩
  repeat' with_reducible first | assumption | apply State.canModeTake_inv | (apply inv_ite <;> intros)

end Sys2Proof.Machine
end

