-- ==== Sys2Proof/Laws/InvCkvOps.lean ====
section
/-! SUPPORT. The invariant under what Machine/CkvOps.lean does. -/

namespace Sys2Proof.Machine
open Sys2Proof

variable {que : List Instr}

theorem State.ckvSet_inv (s : State) (b v : Nat) (hs : Safety.Keeps que s) : Safety.Keeps que (State.ckvSet s b v) := by
  unfold State.ckvSet
  repeat' with_reducible first | assumption | apply State.fset_inv

theorem State.ckvFeed_inv (s : State) (b : Nat) (bs : List Byte) (hs : Safety.Keeps que s) : Safety.Keeps que (State.ckvFeed s b bs) := by
  unfold State.ckvFeed
  repeat' with_reducible first | assumption | apply State.ckvSet_inv

theorem State.ckvScanned_inv (s : State) (b : Nat) (fed : List Byte) (whole : Bool) (hs : Safety.Keeps que s) : Safety.Keeps que (State.ckvScanned s b fed whole) := by
  unfold State.ckvScanned; dsimp only
  repeat' with_reducible first | assumption | apply State.fset_inv | apply State.ckvFeed_inv

theorem State.ckvStop_inv (s : State) (l : Lane) (i code addr : Nat) (fed : List Byte) (hs : Safety.Keeps que s) : Safety.Keeps que (State.ckvStop s l i code addr fed) := by
  unfold State.ckvStop; dsimp only
  repeat' with_reducible first | assumption | apply State.fset_inv | apply State.eventLimited_inv | apply State.ckvScanned_inv | (apply inv_ite <;> intros)

theorem State.ckvFree_inv (s : State) (b : Nat) (hs : Safety.Keeps que s) : Safety.Keeps que (State.ckvFree s b).2 := by
  unfold State.ckvFree; dsimp only
  repeat' with_reducible first | assumption | apply State.free_inv

theorem State.ckvAbort_inv (s : State) (b : Nat) (hs : Safety.Keeps que s) : Safety.Keeps que (State.ckvAbort s b) := by
  unfold State.ckvAbort; dsimp only
  repeat' with_reducible first | assumption | apply State.fset_inv | apply State.free_inv | apply State.ckvSet_inv | apply State.ckvFree_inv

theorem State.ckvInit_inv (s : State) (b : Nat) (hs : Safety.Keeps que s) : Safety.Keeps que (State.ckvInit s b) := by
  unfold State.ckvInit
  repeat' with_reducible first | assumption | apply State.ckvSet_inv

theorem State.ckvFold_inv (s : State) (b : Nat) (hs : Safety.Keeps que s) : Safety.Keeps que (State.ckvFold s b) := by
  unfold State.ckvFold
  repeat' with_reducible first | assumption | apply State.ckvFeed_inv

theorem State.ckvStart_inv (s : State) (b : Nat) (hs : Safety.Keeps que s) : Safety.Keeps que (State.ckvStart s b).1 := by
  unfold State.ckvStart
  repeat' with_reducible first | assumption | apply State.fset_inv | (apply inv_ite_fst <;> intros)

theorem State.ckvCmd_inv (s : State) (l : Lane) (i v : Nat) (hs : Safety.Keeps que s) : Safety.Keeps que (State.ckvCmd s l i v).1 := by
  unfold State.ckvCmd; dsimp only
  repeat' with_reducible first | assumption | apply State.ckvAbort_inv | apply State.ckvInit_inv | apply State.ckvFold_inv | apply State.ckvStart_inv | (apply inv_ite <;> intros) | (apply inv_ite_fst <;> intros)

end Sys2Proof.Machine
end

