-- ==== Sys2Proof/Laws/InvCkv.lean ====
section
/-! SUPPORT. The invariant under what Machine/Ckv.lean does. -/

namespace Sys2Proof.Machine
open Sys2Proof

variable {que : List Instr}

theorem execCkvScanComplete_inv (lane : Lane) (unit : Fin 4) (fed : List Byte) (s : State) (hs : Safety.Keeps que s) : ∃ t, execCkvScanComplete lane unit fed s = .next t ∧ Safety.Keeps que t := by
  refine ⟨_, rfl, ?_⟩
  repeat' with_reducible first | assumption | apply State.fset_inv | apply State.ckvScanned_inv | (apply inv_ite <;> intros)

theorem execCkvScanFault_inv (lane : Lane) (unit : Fin 4) (code : Fin 16) (fed : List Byte) (addr : BitVec 32) (s : State) (hs : Safety.Keeps que s) : ∃ t, execCkvScanFault lane unit code fed addr s = .next t ∧ Safety.Keeps que t := by
  refine ⟨_, rfl, ?_⟩
  repeat' with_reducible first | assumption | apply State.ckvStop_inv | (apply inv_ite <;> intros)

end Sys2Proof.Machine
end

