-- ==== Sys2Proof/Laws/InvLanes.lean ====
section
/-! SUPPORT. The invariant under what Machine/Lanes.lean does. -/

namespace Sys2Proof.Machine
open Sys2Proof

variable {que : List Instr}

theorem execLaneDirectFailure_inv (lane : Lane) (cause : Fin 16) (s : State) (hs : Safety.Keeps que s) : ∃ t, execLaneDirectFailure lane cause s = .next t ∧ Safety.Keeps que t := by
  unfold execLaneDirectFailure; split
  · exact ⟨_, rfl, hs⟩
  refine ⟨_, rfl, ?_⟩
  repeat' with_reducible first | assumption | apply State.laneFail_inv | (apply inv_ite <;> intros)

theorem execLaneWatchdog_inv (lane : Lane) (s : State) (hs : Safety.Keeps que s) : ∃ t, execLaneWatchdog lane s = .next t ∧ Safety.Keeps que t := by
  unfold execLaneWatchdog; split
  · exact ⟨_, rfl, hs⟩
  refine ⟨_, rfl, ?_⟩
  repeat' with_reducible first | assumption | apply State.event_inv | apply State.laneStop_inv | (apply inv_ite <;> intros)

theorem State.pathMark_inv (s : State) (l : Lane) (culv imp : Bool) (hs : Safety.Keeps que s) : Safety.Keeps que (State.pathMark s l culv imp) := by
  unfold State.pathMark; dsimp only
  repeat' with_reducible first | assumption | apply State.event_inv | apply State.setLaneHg_inv

theorem State.pathMiss_inv (s : State) (l : Lane) (culv : Bool) (hs : Safety.Keeps que s) : Safety.Keeps que (State.pathMiss s l culv) := by
  unfold State.pathMiss; dsimp only
  repeat' with_reducible first | assumption | apply State.finc_inv | apply State.setLaneHg_inv | apply State.laneFail_inv | apply State.pathMark_inv | (apply inv_ite <;> intros)

theorem State.pathBeat_inv (s : State) (l : Lane) (culv : Bool) (hs : Safety.Keeps que s) : Safety.Keeps que (State.pathBeat s l culv) := by
  unfold State.pathBeat; dsimp only
  repeat' with_reducible first | assumption | apply State.setLaneHg_inv | apply State.pathMark_inv | (apply inv_ite <;> intros)

theorem State.partnerMark_inv (s : State) (b ok : Bool) (hs : Safety.Keeps que s) : Safety.Keeps que (State.partnerMark s b ok) := by
  unfold State.partnerMark; dsimp only
  repeat' with_reducible first | assumption | apply State.fsetB_inv | apply State.event_inv | (apply inv_ite <;> intros)

theorem State.partnerMiss_inv (s : State) (b : Bool) (hs : Safety.Keeps que s) : Safety.Keeps que (State.partnerMiss s b) := by
  unfold State.partnerMiss; dsimp only
  repeat' with_reducible first | assumption | apply State.partnerMark_inv | (apply inv_ite <;> intros) | (refine inv_of_kept ?_; dsimp only; refine kept_of_inv ?_)

theorem State.partnerBeat_inv (s : State) (b : Bool) (hs : Safety.Keeps que s) : Safety.Keeps que (State.partnerBeat s b) := by
  unfold State.partnerBeat; dsimp only
  repeat' with_reducible first | assumption | apply State.partnerMark_inv | (refine inv_of_kept ?_; dsimp only; refine kept_of_inv ?_)

theorem execHeartbeatMiss_inv (path : HbPath) (s : State) (hs : Safety.Keeps que s) : ∃ t, execHeartbeatMiss path s = .next t ∧ Safety.Keeps que t := by
  unfold execHeartbeatMiss; split
  · exact ⟨_, rfl, hs⟩
  refine ⟨_, rfl, ?_⟩
  repeat' with_reducible first | assumption | apply State.pathMiss_inv | apply State.partnerMiss_inv | (refine inv_of_kept ?_; dsimp only; refine kept_of_inv ?_) | (refine inv_of_kept ?_; dsimp only; first | refine kept_fewer _ ?_ | refine kept_marks _ ?_ | refine kept_tick ?_) | split

theorem execHeartbeatReceived_inv (path : HbPath) (s : State) (hs : Safety.Keeps que s) : ∃ t, execHeartbeatReceived path s = .next t ∧ Safety.Keeps que t := by
  unfold execHeartbeatReceived; split
  · exact ⟨_, rfl, hs⟩
  refine ⟨_, rfl, ?_⟩
  repeat' with_reducible first | assumption | apply State.pathBeat_inv | apply State.partnerBeat_inv | (refine inv_of_kept ?_; dsimp only; refine kept_of_inv ?_) | (refine inv_of_kept ?_; dsimp only; first | refine kept_fewer _ ?_ | refine kept_marks _ ?_ | refine kept_tick ?_) | split

theorem execHeartbeatPathRestored_inv (path : HbPath) (s : State) (hs : Safety.Keeps que s) : ∃ t, execHeartbeatPathRestored path s = .next t ∧ Safety.Keeps que t := by
  unfold execHeartbeatPathRestored; split
  · exact ⟨_, rfl, hs⟩
  refine ⟨_, rfl, ?_⟩
  repeat' with_reducible first | assumption | apply State.pathMark_inv | (apply inv_ite <;> intros) | (refine inv_of_kept ?_; dsimp only; refine kept_of_inv ?_) | (refine inv_of_kept ?_; dsimp only; first | refine kept_fewer _ ?_ | refine kept_marks _ ?_ | refine kept_tick ?_) | split

theorem execPartnerHeartbeatChange_inv (input : Bus) (ok : Bool) (s : State) (hs : Safety.Keeps que s) : ∃ t, execPartnerHeartbeatChange input ok s = .next t ∧ Safety.Keeps que t := by
  unfold execPartnerHeartbeatChange; split
  · exact ⟨_, rfl, hs⟩
  refine ⟨_, rfl, ?_⟩
  repeat' with_reducible first | assumption | apply State.partnerMark_inv

theorem execTakeoverTick_inv (s : State) (hs : Safety.Keeps que s) : ∃ t, execTakeoverTick s = .next t ∧ Safety.Keeps que t := by
  unfold execTakeoverTick; split
  · exact ⟨_, rfl, hs⟩
  refine ⟨_, rfl, ?_⟩; dsimp only
  repeat' with_reducible first | assumption | apply State.galReturn_inv | apply State.takePaired_inv | apply State.takeWide_inv | apply State.noLane_inv | apply State.windowStart_inv | (apply inv_ite <;> intros) | (refine inv_of_kept ?_; dsimp only; refine kept_of_inv ?_) | (refine inv_of_kept ?_; dsimp only; first | refine kept_fewer _ ?_ | refine kept_marks _ ?_ | refine kept_tick ?_) | split

theorem execPlannedHandover_inv (s : State) (hs : Safety.Keeps que s) : ∃ t, execPlannedHandover s = .next t ∧ Safety.Keeps que t := by
  unfold execPlannedHandover; split
  · exact ⟨_, rfl, hs⟩
  refine ⟨_, rfl, ?_⟩; dsimp only
  repeat' with_reducible first | assumption | apply State.setLaneHg_inv | apply State.handover_inv | (apply inv_ite <;> intros) | (refine inv_of_kept ?_; dsimp only; refine kept_of_inv ?_) | (refine inv_of_kept ?_; dsimp only; first | refine kept_fewer _ ?_ | refine kept_marks _ ?_ | refine kept_tick ?_) | split

theorem execStateCopyComplete_inv (dirty time crc resent : BitVec 16) (s : State) (hs : Safety.Keeps que s) : ∃ t, execStateCopyComplete dirty time crc resent s = .next t ∧ Safety.Keeps que t := by
  unfold execStateCopyComplete; split
  · exact ⟨_, rfl, hs⟩
  refine ⟨_, rfl, ?_⟩; dsimp only
  repeat' with_reducible first | assumption | apply State.fset_inv | apply State.fmax_inv | apply State.copyApply_inv | apply State.syncStep_inv | apply State.copyFrames_inv | (apply inv_ite <;> intros) | (refine inv_of_kept ?_; dsimp only; refine kept_of_inv ?_) | (refine inv_of_kept ?_; dsimp only; first | refine kept_fewer _ ?_ | refine kept_marks _ ?_ | refine kept_tick ?_) | split

theorem execStateCopyDiscard_inv (crc resent : BitVec 16) (s : State) (hs : Safety.Keeps que s) : ∃ t, execStateCopyDiscard crc resent s = .next t ∧ Safety.Keeps que t := by
  unfold execStateCopyDiscard; split
  · exact ⟨_, rfl, hs⟩
  refine ⟨_, rfl, ?_⟩
  repeat' with_reducible first | assumption | apply State.finc_inv | apply State.staleCheck_inv | apply State.copyFrames_inv | (apply inv_ite <;> intros)

theorem execCulvertLinkChange_inv (lane : Lane) (up : Bool) (s : State) (hs : Safety.Keeps que s) : ∃ t, execCulvertLinkChange lane up s = .next t ∧ Safety.Keeps que t := by
  unfold execCulvertLinkChange; split
  · exact ⟨_, rfl, hs⟩
  refine ⟨_, rfl, ?_⟩
  repeat' with_reducible first | assumption | apply State.staleCheck_inv | (refine inv_of_kept ?_; dsimp only; refine kept_of_inv ?_)

theorem State.wideJoin_inv (s : State) (l : Lane) (hs : Safety.Keeps que s) : Safety.Keeps que (State.wideJoin s l) := by
  unfold State.wideJoin; dsimp only
  repeat' with_reducible first | assumption | apply State.setLaneHg_inv | apply State.lumStart_inv | apply State.startLane_inv | apply State.galsStart_inv | apply State.bistRestart_inv

theorem State.pairedJoin_inv (s : State) (l : Lane) (hs : Safety.Keeps que s) : Safety.Keeps que (State.pairedJoin s l) := by
  unfold State.pairedJoin; dsimp only
  repeat' with_reducible first | assumption | apply State.event_inv | apply State.setLaneHg_inv | apply State.setLstate_inv | apply State.syncRest_inv | (apply inv_ite <;> intros)

theorem State.sipEnd_inv (s : State) (l : Lane) (hs : Safety.Keeps que s) : Safety.Keeps que (State.sipEnd s l) := by
  unfold State.sipEnd
  repeat' with_reducible first | assumption | apply State.setSiphon_inv | apply State.confirmBank_inv | (apply inv_ite <;> intros)

theorem State.startEnd_inv (s : State) (l : Lane) (hs : Safety.Keeps que s) : Safety.Keeps que (State.startEnd s l) := by
  unfold State.startEnd; dsimp only
  repeat' with_reducible first | assumption | apply State.setLaneHg_inv | apply State.setLstate_inv | apply State.enterMode_inv | apply State.wideTake_inv | apply State.galReturn_inv | apply State.takePaired_inv | apply State.leadStart_inv | apply State.wideJoin_inv | apply State.pairedJoin_inv | apply State.sipEnd_inv | (apply inv_ite <;> intros) | (refine inv_of_kept ?_; dsimp only; refine kept_of_inv ?_) | (refine inv_of_kept ?_; dsimp only; first | refine kept_fewer _ ?_ | refine kept_marks _ ?_ | refine kept_tick ?_) | split

theorem State.imageUp_inv (s : State) (hs : Safety.Keeps que s) : Safety.Keeps que (State.imageUp s) := by
  unfold State.imageUp
  repeat' with_reducible first | assumption | apply State.imageForce_inv | apply State.imageSwap_inv | (apply inv_ite <;> intros) | (refine inv_of_kept ?_; dsimp only; refine kept_of_inv ?_) | (refine inv_of_kept ?_; dsimp only; first | refine kept_fewer _ ?_ | refine kept_marks _ ?_ | refine kept_tick ?_) | split

theorem State.joinRunning_inv (s : State) (l : Lane) (hs : Safety.Keeps que s) : Safety.Keeps que (State.joinRunning s l) := by
  unfold State.joinRunning; dsimp only
  repeat' with_reducible first | assumption | apply State.galReturn_inv | apply State.wideJoin_inv | apply State.pairedJoin_inv | apply State.sipEnd_inv | (apply inv_ite <;> intros) | (refine inv_of_kept ?_; dsimp only; refine kept_of_inv ?_) | (refine inv_of_kept ?_; dsimp only; first | refine kept_fewer _ ?_ | refine kept_marks _ ?_ | refine kept_tick ?_) | split

theorem State.tickStarts_inv (s : State) (hs : Safety.Keeps que s) : Safety.Keeps que (State.tickStarts s) := by
  unfold State.tickStarts; dsimp only
  repeat' with_reducible first | assumption | apply State.wideTake_inv | apply State.loadIfFirst_inv | apply State.leadStart_inv | apply State.imageUp_inv | apply State.joinRunning_inv | (apply inv_ite <;> intros) | (refine inv_of_kept ?_; dsimp only; refine kept_of_inv ?_) | (refine inv_of_kept ?_; dsimp only; first | refine kept_fewer _ ?_ | refine kept_marks _ ?_ | refine kept_tick ?_) | split

theorem execLaneStartingComplete_inv (lane : Lane) (image : Option ProgImage) (settings : Option SettingsImage) (s : State) (hs : Safety.Keeps que s) : ∃ t, execLaneStartingComplete lane image settings s = .next t ∧ Safety.Keeps que t := by
  unfold execLaneStartingComplete; split
  · exact ⟨_, rfl, hs⟩
  refine ⟨_, rfl, ?_⟩
  repeat' with_reducible first | assumption | apply State.loadIfFirst_inv | apply State.laneLoad_inv | apply State.startEnd_inv | (apply inv_ite <;> intros)

theorem execSyncComplete_inv (s : State) (hs : Safety.Keeps que s) : ∃ t, execSyncComplete s = .next t ∧ Safety.Keeps que t := by
  unfold execSyncComplete; split
  · exact ⟨_, rfl, hs⟩
  refine ⟨_, rfl, ?_⟩; dsimp only
  repeat' with_reducible first | assumption | apply State.event_inv | apply State.setLstate_inv | apply State.handover_inv | apply State.exerciseEnd_inv | apply State.copyApply_inv | apply State.syncRest_inv | apply State.sipEnd_inv | (apply inv_ite <;> intros) | (refine inv_of_kept ?_; dsimp only; refine kept_of_inv ?_) | (refine inv_of_kept ?_; dsimp only; first | refine kept_fewer _ ?_ | refine kept_marks _ ?_ | refine kept_tick ?_) | split

theorem execGalleryRestoreTick_inv (lane : Lane) (s : State) (hs : Safety.Keeps que s) : ∃ t, execGalleryRestoreTick lane s = .next t ∧ Safety.Keeps que t := by
  unfold execGalleryRestoreTick; split
  · exact ⟨_, rfl, hs⟩
  refine ⟨_, rfl, ?_⟩
  repeat' with_reducible first | assumption | apply State.galReturn_inv | (apply inv_ite <;> intros)

theorem execLaneFailedRetry_inv (lane : Lane) (s : State) (hs : Safety.Keeps que s) : ∃ t, execLaneFailedRetry lane s = .next t ∧ Safety.Keeps que t := by
  unfold execLaneFailedRetry; split
  · exact ⟨_, rfl, hs⟩
  refine ⟨_, rfl, ?_⟩
  repeat' with_reducible first | assumption | apply State.failedRetry_inv | (apply inv_ite <;> intros)

theorem execExercise_inv (r : Req) (s : State) (hs : Safety.Keeps que s) : ∃ t, execExercise r s = .next t ∧ Safety.Keeps que t := by
  refine ⟨_, rfl, ?_⟩; dsimp only
  repeat' with_reducible first | assumption | apply State.setLaneHg_inv | apply State.setLane_inv | apply State.ans_inv | (apply State.serve_inv <;> intros <;> try dsimp only) | (apply inv_ite_st <;> intros) | (refine inv_of_kept ?_; dsimp only; refine kept_of_inv ?_)

theorem execExerciseStageDone_inv (s : State) (hs : Safety.Keeps que s) : ∃ t, execExerciseStageDone s = .next t ∧ Safety.Keeps que t := by
  unfold execExerciseStageDone; split
  · exact ⟨_, rfl, hs⟩
  refine ⟨_, rfl, ?_⟩; dsimp only
  repeat' with_reducible first | assumption | apply State.setLstate_inv | (apply inv_ite <;> intros) | (refine inv_of_kept ?_; dsimp only; refine kept_of_inv ?_) | (refine inv_of_kept ?_; dsimp only; first | refine kept_fewer _ ?_ | refine kept_marks _ ?_ | refine kept_tick ?_) | split

theorem execExerciseAgeHour_inv (s : State) (hs : Safety.Keeps que s) : ∃ t, execExerciseAgeHour s = .next t ∧ Safety.Keeps que t := by
  unfold execExerciseAgeHour; split
  · exact ⟨_, rfl, hs⟩
  refine ⟨_, rfl, ?_⟩
  repeat' with_reducible first | assumption | apply State.fset_inv | apply State.event_inv | (apply inv_ite <;> intros)

theorem State.headgateHold_inv (s : State) (cause code : Nat) (hs : Safety.Keeps que s) : Safety.Keeps que (State.headgateHold s cause code) := by
  unfold State.headgateHold; dsimp only
  repeat' with_reducible first | assumption | apply State.event_inv | apply State.enterHold_inv | (refine inv_of_kept ?_; dsimp only; refine kept_of_inv ?_)

theorem execHeadgateDisagree_inv (s : State) (hs : Safety.Keeps que s) : ∃ t, execHeadgateDisagree s = .next t ∧ Safety.Keeps que t := by
  unfold execHeadgateDisagree; split
  · exact ⟨_, rfl, hs⟩
  refine ⟨_, rfl, ?_⟩
  repeat' with_reducible first | assumption | apply State.enterSafe_inv | apply State.headgateHold_inv | (apply inv_ite <;> intros) | (refine inv_of_kept ?_; dsimp only; refine kept_of_inv ?_) | (refine inv_of_kept ?_; dsimp only; first | refine kept_fewer _ ?_ | refine kept_marks _ ?_ | refine kept_tick ?_) | split

theorem execHeadgateCopySilent_inv (copy : HgCopy) (s : State) (hs : Safety.Keeps que s) : ∃ t, execHeadgateCopySilent copy s = .next t ∧ Safety.Keeps que t := by
  unfold execHeadgateCopySilent; split
  · exact ⟨_, rfl, hs⟩
  refine ⟨_, rfl, ?_⟩; dsimp only
  repeat' with_reducible first | assumption | apply State.headgateHold_inv | (apply inv_ite <;> intros) | (refine inv_of_kept ?_; dsimp only; refine kept_of_inv ?_) | (refine inv_of_kept ?_; dsimp only; first | refine kept_fewer _ ?_ | refine kept_marks _ ?_ | refine kept_tick ?_) | split

theorem State.choiceEvent_inv (s : State) (l : Lane) (code : Nat) (hs : Safety.Keeps que s) : Safety.Keeps que (State.choiceEvent s l code) := by
  unfold State.choiceEvent
  repeat' with_reducible first | assumption | apply State.event_inv

theorem State.leaveHold_inv (s : State) (h : HgMode) (hs : Safety.Keeps que s) : Safety.Keeps que (State.leaveHold s h) := by
  unfold State.leaveHold; dsimp only
  repeat' with_reducible first | assumption | apply State.enterMode_inv | (refine inv_of_kept ?_; dsimp only; refine kept_of_inv ?_)

theorem State.heldResume_inv (s : State) (l : Lane) (hs : Safety.Keeps que s) : Safety.Keeps que (State.heldResume s l) := by
  unfold State.heldResume; dsimp only
  repeat' with_reducible first | assumption | apply State.setLstate_inv | apply State.startLane_inv | (apply inv_ite <;> intros)

theorem State.chosenActive_inv (s : State) (l : Lane) (was : LState) (hs : Safety.Keeps que s) : Safety.Keeps que (State.chosenActive s l was) := by
  unfold State.chosenActive; dsimp only
  repeat' with_reducible first | assumption | apply State.setLstate_inv | apply State.startLane_inv | apply State.recordSwitch_inv | apply State.makeActive_inv | (apply inv_ite <;> intros)

theorem State.takeDisagree_inv (s : State) (l : Lane) (hs : Safety.Keeps que s) : Safety.Keeps que (State.takeDisagree s l) := by
  unfold State.takeDisagree; dsimp only
  repeat' with_reducible first | assumption | apply State.setLstate_inv | apply State.rstNote_inv | apply State.laneAssert_inv | apply State.wideTake_inv | apply State.recordSwitch_inv | apply State.leaveHold_inv | apply State.heldResume_inv | apply State.chosenActive_inv | (apply inv_ite <;> intros) | (refine inv_of_kept ?_; dsimp only; refine kept_of_inv ?_) | (refine inv_of_kept ?_; dsimp only; first | refine kept_fewer _ ?_ | refine kept_marks _ ?_ | refine kept_tick ?_) | split

theorem State.takeSilent_inv (s : State) (l : Lane) (hs : Safety.Keeps que s) : Safety.Keeps que (State.takeSilent s l) := by
  unfold State.takeSilent; dsimp only
  repeat' with_reducible first | assumption | apply State.setLstate_inv | apply State.setLane_inv | apply State.leaveHold_inv | apply State.heldResume_inv | apply State.chosenActive_inv | (apply inv_ite <;> intros) | (refine inv_of_kept ?_; dsimp only; refine kept_of_inv ?_) | (refine inv_of_kept ?_; dsimp only; first | refine kept_fewer _ ?_ | refine kept_marks _ ?_ | refine kept_tick ?_) | split

theorem State.takeLone_inv (s : State) (l : Lane) (hs : Safety.Keeps que s) : Safety.Keeps que (State.takeLone s l) := by
  unfold State.takeLone; dsimp only
  repeat' with_reducible first | assumption | apply State.setLstate_inv | apply State.wideTake_inv | apply State.leaveHold_inv | apply State.heldResume_inv | apply State.chosenActive_inv | (refine inv_of_kept ?_; dsimp only; refine kept_of_inv ?_) | (refine inv_of_kept ?_; dsimp only; first | refine kept_fewer _ ?_ | refine kept_marks _ ?_ | refine kept_tick ?_) | split

theorem State.tickChoice_inv (s : State) (hs : Safety.Keeps que s) : Safety.Keeps que (State.tickChoice s) := by
  unfold State.tickChoice; dsimp only
  repeat' with_reducible first | assumption | apply State.takeDisagree_inv | apply State.takeSilent_inv | apply State.takeLone_inv | (apply inv_ite <;> intros) | (refine inv_of_kept ?_; dsimp only; refine kept_of_inv ?_) | (refine inv_of_kept ?_; dsimp only; first | refine kept_fewer _ ?_ | refine kept_marks _ ?_ | refine kept_tick ?_) | split

theorem execLaneChoice_inv (lane : Lane) (s : State) (hs : Safety.Keeps que s) : ∃ t, execLaneChoice lane s = .next t ∧ Safety.Keeps que t := by
  unfold execLaneChoice; split
  · exact ⟨_, rfl, hs⟩
  refine ⟨_, rfl, ?_⟩; dsimp only
  repeat' with_reducible first | assumption | apply State.fset_inv | apply State.finc_inv | apply State.portpwrUp_inv | apply State.laneRelease_inv | apply State.choiceEvent_inv | apply State.leaveHold_inv | apply State.takeDisagree_inv | apply State.takeSilent_inv | apply State.takeLone_inv | (apply inv_ite <;> intros) | (refine inv_of_kept ?_; dsimp only; refine kept_of_inv ?_)

theorem execSingleCopySilent_inv (s : State) (hs : Safety.Keeps que s) : ∃ t, execSingleCopySilent s = .next t ∧ Safety.Keeps que t := by
  unfold execSingleCopySilent; split
  · exact ⟨_, rfl, hs⟩
  refine ⟨_, rfl, ?_⟩
  repeat' with_reducible first | assumption | apply State.enterSafe_inv | (apply inv_ite <;> intros)

theorem execNoLaneTimeout_inv (s : State) (hs : Safety.Keeps que s) : ∃ t, execNoLaneTimeout s = .next t ∧ Safety.Keeps que t := by
  unfold execNoLaneTimeout; split
  · exact ⟨_, rfl, hs⟩
  refine ⟨_, rfl, ?_⟩
  repeat' with_reducible first | assumption | apply State.enterSafe_inv | (apply inv_ite <;> intros)

theorem execModeSetEnterService_inv (r : Req) (mode : BitVec 8) (s : State) (hs : Safety.Keeps que s) : ∃ t, execModeSetEnterService r mode s = .next t ∧ Safety.Keeps que t := by
  refine ⟨_, rfl, ?_⟩; dsimp only
  repeat' with_reducible first | assumption | apply State.ans_inv | (apply State.serve_inv <;> intros <;> try dsimp only) | (apply inv_ite <;> intros) | (apply inv_ite_st <;> intros) | (refine inv_of_kept ?_; dsimp only; refine kept_of_inv ?_)

theorem execModeSetLeaveService_inv (r : Req) (s : State) (hs : Safety.Keeps que s) : ∃ t, execModeSetLeaveService r s = .next t ∧ Safety.Keeps que t := by
  refine ⟨_, rfl, ?_⟩; dsimp only
  repeat' with_reducible first | assumption | apply State.ans_inv | (apply State.serve_inv <;> intros <;> try dsimp only) | (apply inv_ite_st <;> intros) | (refine inv_of_kept ?_; dsimp only; refine kept_of_inv ?_)

end Sys2Proof.Machine
end

