-- ==== Sys2Proof/Laws/InvPoints.lean ====
section
/-! SUPPORT. The invariant under what Machine/Points.lean does. -/

namespace Sys2Proof.Machine
open Sys2Proof

variable {que : List Instr}

theorem execPointRead_inv (r : Req) (handle : BitVec 32) (s : State) (hs : Safety.Keeps que s) : ∃ t, execPointRead r handle s = .next t ∧ Safety.Keeps que t := by
  refine ⟨_, rfl, ?_⟩; dsimp only
  repeat' with_reducible first | assumption | apply State.ansOk_inv | (apply State.serve_inv <;> intros <;> try dsimp only)

theorem execGather_inv (r : Req) (count : BitVec 8) (handles : List (BitVec 32)) (s : State) (hs : Safety.Keeps que s) : ∃ t, execGather r count handles s = .next t ∧ Safety.Keeps que t := by
  refine ⟨_, rfl, ?_⟩; dsimp only
  repeat' with_reducible first | assumption | apply State.ans_inv | apply State.ansB_inv | (apply State.serve_inv <;> intros <;> try dsimp only) | (apply inv_ite_st <;> intros)

theorem State.handleWrite_inv (s : State) (g : Nat) (h : Handle) (v : Nat) (hs : Safety.Keeps que s) : Safety.Keeps que (State.handleWrite s g h v).1 := by
  unfold State.handleWrite; dsimp only
  repeat' with_reducible first | assumption | (refine inv_of_kept ?_; dsimp only; refine kept_of_inv ?_) | (refine inv_of_kept ?_; dsimp only; first | refine kept_fewer _ ?_ | refine kept_marks _ ?_ | refine kept_tick ?_) | split

theorem execPointWrite_inv (r : Req) (handle : BitVec 32) (value : BitVec 64) (s : State) (hs : Safety.Keeps que s) : ∃ t, execPointWrite r handle value s = .next t ∧ Safety.Keeps que t := by
  refine ⟨_, rfl, ?_⟩; dsimp only
  repeat' with_reducible first | assumption | apply State.ansOk_inv | (apply State.serve_inv <;> intros <;> try dsimp only) | apply State.handleWrite_inv

theorem execScatter_inv (r : Req) (count : BitVec 8) (elems : List (BitVec 32 × BitVec 64)) (s : State) (hs : Safety.Keeps que s) : ∃ t, execScatter r count elems s = .next t ∧ Safety.Keeps que t := by
  refine ⟨_, rfl, ?_⟩; dsimp only
  repeat' with_reducible first | assumption | apply State.ans_inv | apply State.ansB_inv | (apply State.serve_inv <;> intros <;> try dsimp only) | apply State.handleWrite_inv | (apply inv_foldl_fst <;> intros) | (apply inv_ite_st <;> intros)

theorem execForce_inv (r : Req) (handle : BitVec 32) (value : BitVec 64) (s : State) (hs : Safety.Keeps que s) : ∃ t, execForce r handle value s = .next t ∧ Safety.Keeps que t := by
  refine ⟨_, rfl, ?_⟩; dsimp only
  repeat' with_reducible first | assumption | apply State.ans_inv | (apply State.serve_inv <;> intros <;> try dsimp only) | (apply inv_ite_st <;> intros) | (refine inv_of_kept ?_; dsimp only; refine kept_of_inv ?_) | (refine inv_of_kept ?_; dsimp only; first | refine kept_fewer _ ?_ | refine kept_marks _ ?_ | refine kept_tick ?_) | split

theorem execUnforce_inv (r : Req) (handle : BitVec 32) (s : State) (hs : Safety.Keeps que s) : ∃ t, execUnforce r handle s = .next t ∧ Safety.Keeps que t := by
  refine ⟨_, rfl, ?_⟩; dsimp only
  repeat' with_reducible first | assumption | apply State.ans_inv | apply State.ansB_inv | (apply State.serve_inv <;> intros <;> try dsimp only) | (apply inv_ite_st <;> intros) | (refine inv_of_kept ?_; dsimp only; refine kept_of_inv ?_) | (refine inv_of_kept ?_; dsimp only; first | refine kept_fewer _ ?_ | refine kept_marks _ ?_ | refine kept_tick ?_) | split

theorem execPointInfo_inv (r : Req) (handle : BitVec 32) (s : State) (hs : Safety.Keeps que s) : ∃ t, execPointInfo r handle s = .next t ∧ Safety.Keeps que t := by
  refine ⟨_, rfl, ?_⟩; dsimp only
  repeat' with_reducible first | assumption | apply State.ans_inv | apply State.ansB_inv | (apply State.serve_inv <;> intros <;> try dsimp only) | (refine inv_of_kept ?_; dsimp only; refine kept_of_inv ?_) | (refine inv_of_kept ?_; dsimp only; first | refine kept_fewer _ ?_ | refine kept_marks _ ?_ | refine kept_tick ?_) | split

end Sys2Proof.Machine
end

