-- ==== Sys2Proof/Laws/InvProgOps.lean ====
section
/-! SUPPORT. The invariant under what Machine/ProgOps.lean does. -/

namespace Sys2Proof.Machine
open Sys2Proof

variable {que : List Instr}

theorem State.progErr_inv (s : State) (x : ProgCtx) (code : Nat) (hs : Safety.Keeps que s) : Safety.Keeps que (State.progErr s x code) := by
  unfold State.progErr; dsimp only
  repeat' with_reducible first | assumption | apply State.fset_inv | apply State.finc_inv | apply State.eventCounted_inv

theorem State.stageEntry_inv (s : State) (x : ProgCtx) (e v : Nat) (hs : Safety.Keeps que s) : Safety.Keeps que (State.stageEntry s x e v) := by
  unfold State.stageEntry; dsimp only
  repeat' with_reducible first | assumption | apply State.mwrite_inv | apply State.setCyc_inv

theorem State.progStore_inv (s : State) (x : ProgCtx) (t : ElemTy) (p : Place) (k : Nat) (v : Val) (hs : Safety.Keeps que s) :
    ∀ u, s.progStore x t p k v = some u → Safety.Keeps que u := by
  intro u h
  have hm (a : Nat) (bs : List Byte) := State.mwrite_inv s a bs hs
  unfold State.progStore at h
  dsimp only at h
  repeat' split at h
  all_goals first
    | (cases h; done)
    | (cases h; first
      | exact State.stageEntry_inv _ _ _ _ hs
      | exact hm _ _
      | exact State.progErr_inv _ _ _ (hm _ _)
      | exact inv_ite (fun _ => State.progErr_inv _ _ _ (hm _ _)) (fun _ => hm _ _))

theorem State.putWords_inv (s : State) (x : ProgCtx) (p : Place) (ws : List Nat) (hs : Safety.Keeps que s) : Safety.Keeps que (State.putWords s x p ws) := by
  unfold State.putWords
  repeat' with_reducible first | assumption | apply State.mwrite_inv | (refine inv_of_kept ?_; dsimp only; refine kept_of_inv ?_) | (refine inv_of_kept ?_; dsimp only; first | refine kept_fewer _ ?_ | refine kept_marks _ ?_ | refine kept_tick ?_) | split

theorem State.binStep_inv (s : State) (x : ProgCtx) (r : Run) (op : BinOp) (t : Nat) (a b : Val) (st : List Val) (hs : Safety.Keeps que s) : Safety.Keeps que (State.binStep s x r op t a b st).1 := by
  unfold State.binStep
  repeat' with_reducible first | assumption | apply State.progErr_inv | (apply inv_ite <;> intros) | (refine inv_of_kept ?_; dsimp only; refine kept_of_inv ?_) | (refine inv_of_kept ?_; dsimp only; first | refine kept_fewer _ ?_ | refine kept_marks _ ?_ | refine kept_tick ?_) | split

theorem State.convStep_inv (s : State) (x : ProgCtx) (r : Run) (t u : ElemTy) (a : Val) (st : List Val) (hs : Safety.Keeps que s) : Safety.Keeps que (State.convStep s x r t u a st).1 := by
  unfold State.convStep; dsimp only
  repeat' with_reducible first | assumption | apply State.progErr_inv | (apply inv_ite <;> intros) | (refine inv_of_kept ?_; dsimp only; refine kept_of_inv ?_) | (refine inv_of_kept ?_; dsimp only; first | refine kept_fewer _ ?_ | refine kept_marks _ ?_ | refine kept_tick ?_) | split

theorem State.chartStep_inv (s : State) (x : ProgCtx) (r : Run) (c : Chart) (hs : Safety.Keeps que s) : Safety.Keeps que (State.chartStep s x r c).1 := by
  unfold State.chartStep; dsimp only
  repeat' with_reducible first | assumption | apply State.putWords_inv | (refine inv_of_kept ?_; dsimp only; refine kept_of_inv ?_) | (refine inv_of_kept ?_; dsimp only; first | refine kept_fewer _ ?_ | refine kept_marks _ ?_ | refine kept_tick ?_) | split

theorem State.sendStep_inv (s : State) (x : ProgCtx) (r : Run) (cell box : Nat) (p : Place) (len : Nat) (hs : Safety.Keeps que s) : Safety.Keeps que (State.sendStep s x r cell box p len).1 := by
  unfold State.sendStep
  repeat' with_reducible first | assumption | apply State.mbSend_inv | (apply inv_ite_fst <;> intros) | (refine inv_of_kept ?_; dsimp only; refine kept_of_inv ?_) | (refine inv_of_kept ?_; dsimp only; first | refine kept_fewer _ ?_ | refine kept_marks _ ?_ | refine kept_tick ?_) | split

theorem State.receiveStep_inv (s : State) (x : ProgCtx) (r : Run) (box : Nat) (p : Place) (room : Nat) (hs : Safety.Keeps que s) : Safety.Keeps que (State.receiveStep s x r box p room).1 := by
  unfold State.receiveStep; dsimp only
  repeat' with_reducible first | assumption | apply State.mwrite_inv | (refine inv_of_kept ?_; dsimp only; refine kept_of_inv ?_) | (refine inv_of_kept ?_; dsimp only; first | refine kept_fewer _ ?_ | refine kept_marks _ ?_ | refine kept_tick ?_) | split

theorem State.storeStep_inv (s : State) (x : ProgCtx) (r : Run) (t : ElemTy) (p : Place) (k : Nat) (v : Val) (st : List Val)
    (hs : Safety.Keeps que s) : Safety.Keeps que (s.storeStep x r t p k v st).1 := by
  unfold State.storeStep
  split
  · rename_i u h; exact State.progStore_inv s x t p k v hs u h
  · exact hs

theorem State.rangeStep_inv (s : State) (x : ProgCtx) (r : Run) (t : BitVec 4) (p : Place) (lo hi : Int) (v : Nat) (st : List Val) (hs : Safety.Keeps que s) : Safety.Keeps que (State.rangeStep s x r t p lo hi v st).1 := by
  unfold State.rangeStep; dsimp only
  repeat' with_reducible first | assumption | apply State.progErr_inv | apply State.storeStep_inv | (apply inv_ite_fst <;> intros)

theorem State.progStep_inv (s : State) (x : ProgCtx) (r : Run) (i : Step) (hs : Safety.Keeps que s) : Safety.Keeps que (s.progStep x r i).1 := by
  have he (c : Nat) := State.progErr_inv s x c hs
  obtain ⟨pc, stk, lp, hl⟩ := r
  cases i <;> unfold State.progStep <;> dsimp only
  all_goals
    rcases stk with _ | ⟨_ | _, _ | ⟨_ | _, _ | ⟨_ | _, _⟩⟩⟩ <;> try dsimp only
    all_goals
      repeat' with_reducible first
        | exact hs
        | exact he _
        | exact State.storeStep_inv _ _ _ _ _ _ _ _ hs
        | exact State.rangeStep_inv _ _ _ _ _ _ _ _ _ hs
        | exact State.binStep_inv _ _ _ _ _ _ _ _ hs
        | exact State.convStep_inv _ _ _ _ _ _ _ hs
        | exact State.chartStep_inv _ _ _ _ hs
        | exact State.sendStep_inv _ _ _ _ _ _ _ hs
        | exact State.receiveStep_inv _ _ _ _ _ _ hs
        | exact State.putWords_inv _ _ _ _ hs
        | split

theorem State.progRun_inv (x : ProgCtx) (n : Nat) (s : State) (r : Run) (hs : Safety.Keeps que s) : Safety.Keeps que (State.progRun x n s r).1 := by
  induction n generalizing s r with
  | zero => exact hs
  | succ n ih =>
    unfold State.progRun
    split
    · exact hs
    · split
      · exact hs
      · exact ih _ _ (State.progStep_inv _ _ _ _ hs)

theorem State.progLeg_inv (s : State) (rs : List (ProgCtx × Run)) (hs : Safety.Keeps que s) : Safety.Keeps que (s.progLeg rs).1 :=
  inv_foldl_fst (fun _ _ h => State.progRun_inv _ _ _ _ h) hs

theorem State.progTask_inv (n : Nat) (s : State) (rs : List (ProgCtx × Run)) (hs : Safety.Keeps que s) : Safety.Keeps que (State.progTask n s rs).1 := by
  induction n generalizing s rs with
  | zero => exact hs
  | succ n ih =>
    unfold State.progTask
    dsimp only
    split
    · exact ih _ _ (State.progLeg_inv _ _ hs)
    · exact State.progLeg_inv _ _ hs

theorem State.taskRun_inv (s : State) (l : Lane) (i : ProgImage) (n : Nat) (d : TaskDesc) (hs : Safety.Keeps que s) : Safety.Keeps que (s.taskRun l i n d) := by
  unfold State.taskRun
  exact State.setCyc_inv _ _ _ (State.progTask_inv _ _ _ hs)

theorem State.cycleRun_inv (s : State) (l : Lane) (n : Nat) (hs : Safety.Keeps que s) : Safety.Keeps que (State.cycleRun s l n) := by
  unfold State.cycleRun
  repeat' with_reducible first | assumption | apply State.taskRun_inv | (apply inv_foldl <;> intros) | (refine inv_of_kept ?_; dsimp only; refine kept_of_inv ?_) | (refine inv_of_kept ?_; dsimp only; first | refine kept_fewer _ ?_ | refine kept_marks _ ?_ | refine kept_tick ?_) | split

end Sys2Proof.Machine
end

