-- ==== Sys2Proof/Laws/InvPliak.lean ====
section
/-! SUPPORT. The invariant under what Machine/Pliak.lean does. -/

namespace Sys2Proof.Machine
open Sys2Proof

variable {que : List Instr}

theorem execPliakDatagramDropped_inv (transport : Transport) (datagram : List Byte) (s : State) (hs : Safety.Keeps que s) : ∃ t, execPliakDatagramDropped transport datagram s = .next t ∧ Safety.Keeps que t := by
  unfold execPliakDatagramDropped; split
  · exact ⟨_, rfl, hs⟩
  refine ⟨_, rfl, ?_⟩
  repeat' with_reducible first | assumption | apply State.dropPacket_inv | (apply inv_ite <;> intros) | (refine inv_of_kept ?_; dsimp only; refine kept_of_inv ?_) | (refine inv_of_kept ?_; dsimp only; first | refine kept_fewer _ ?_ | refine kept_marks _ ?_ | refine kept_tick ?_) | split

theorem execPliakAuthFail_inv (transport : Transport) (datagram : List Byte) (s : State) (hs : Safety.Keeps que s) : ∃ t, execPliakAuthFail transport datagram s = .next t ∧ Safety.Keeps que t := by
  unfold execPliakAuthFail; split
  · exact ⟨_, rfl, hs⟩
  refine ⟨_, rfl, ?_⟩
  repeat' with_reducible first | assumption | apply State.authFail_inv | (apply inv_ite <;> intros) | (refine inv_of_kept ?_; dsimp only; refine kept_of_inv ?_) | (refine inv_of_kept ?_; dsimp only; first | refine kept_fewer _ ?_ | refine kept_marks _ ?_ | refine kept_tick ?_) | split

theorem State.free16_inv (s : State) (hs : Safety.Keeps que s) : Safety.Keeps que (State.free16 s).2 := by
  unfold State.free16; dsimp only
  repeat' with_reducible first | assumption | apply State.free_inv

theorem State.openRefusal_inv (s : State) (l : Lane) (r : Res) (zeros : Bool) (t : Transport) (tag : Nat) (hs : Safety.Keeps que s) : Safety.Keeps que (State.openRefusal s l r zeros t tag) := by
  unfold State.openRefusal; dsimp only
  repeat' with_reducible first | assumption | apply State.sendReply_inv

theorem State.openSession_inv (s : State) (l : Lane) (g : Nat) (nonceS : List Byte) (tag : Nat) (t : Transport) (hs : Safety.Keeps que s) : Safety.Keeps que (State.openSession s l g nonceS tag t) := by
  unfold State.openSession; dsimp only
  repeat' with_reducible first | assumption | apply State.free_inv | apply State.sendReply_inv | apply State.free16_inv | (refine inv_of_kept ?_; dsimp only; refine kept_of_inv ?_)

theorem execSessionOpen_inv (gallery : BitVec 8) (nonceS : BitVec 128) (tag length : BitVec 16) (transport : Transport) (vid : Option (BitVec 12)) (s : State) (hs : Safety.Keeps que s) : ∃ t, execSessionOpen gallery nonceS tag length transport vid s = .next t ∧ Safety.Keeps que t := by
  refine ⟨_, rfl, ?_⟩; dsimp only
  repeat' with_reducible first | assumption | apply State.finc_inv | apply State.event_inv | apply State.openRefusal_inv | apply State.openSession_inv | (apply inv_ite <;> intros) | (refine inv_of_kept ?_; dsimp only; refine kept_of_inv ?_) | (refine inv_of_kept ?_; dsimp only; first | refine kept_fewer _ ?_ | refine kept_marks _ ?_ | refine kept_tick ?_) | split

theorem execSessionConfirm_inv (r : Req) (idle : BitVec 16) (s : State) (hs : Safety.Keeps que s) : ∃ t, execSessionConfirm r idle s = .next t ∧ Safety.Keeps que t := by
  refine ⟨_, rfl, ?_⟩; dsimp only
  repeat' with_reducible first | assumption | apply State.setSession_inv | apply State.ans_inv | (apply State.serve_inv <;> intros <;> try dsimp only) | (apply inv_ite_st <;> intros)

theorem execSessionClose_inv (r : Req) (s : State) (hs : Safety.Keeps que s) : ∃ t, execSessionClose r s = .next t ∧ Safety.Keeps que t := by
  refine ⟨_, rfl, ?_⟩; dsimp only
  repeat' with_reducible first | assumption | apply State.setSession_inv | apply State.settle_inv | (apply State.serve_inv <;> intros <;> try dsimp only) | (refine inv_of_kept ?_; dsimp only; refine kept_of_inv ?_) | (refine inv_of_kept ?_; dsimp only; first | refine kept_fewer _ ?_ | refine kept_marks _ ?_ | refine kept_tick ?_) | split

theorem execSessionOpenTimeout_inv (session : BitVec 32) (s : State) (hs : Safety.Keeps que s) : ∃ t, execSessionOpenTimeout session s = .next t ∧ Safety.Keeps que t := by
  unfold execSessionOpenTimeout; split
  · exact ⟨_, rfl, hs⟩
  refine ⟨_, rfl, ?_⟩
  repeat' with_reducible first | assumption | apply State.closeSession_inv | (apply inv_ite <;> intros) | (refine inv_of_kept ?_; dsimp only; refine kept_of_inv ?_) | (refine inv_of_kept ?_; dsimp only; first | refine kept_fewer _ ?_ | refine kept_marks _ ?_ | refine kept_tick ?_) | split

theorem execSessionIdleTimeout_inv (session : BitVec 32) (s : State) (hs : Safety.Keeps que s) : ∃ t, execSessionIdleTimeout session s = .next t ∧ Safety.Keeps que t := by
  unfold execSessionIdleTimeout; split
  · exact ⟨_, rfl, hs⟩
  refine ⟨_, rfl, ?_⟩
  repeat' with_reducible first | assumption | apply State.closeSession_inv | (apply inv_ite <;> intros) | (refine inv_of_kept ?_; dsimp only; refine kept_of_inv ?_) | (refine inv_of_kept ?_; dsimp only; first | refine kept_fewer _ ?_ | refine kept_marks _ ?_ | refine kept_tick ?_) | split

theorem execNop_inv (r : Req) (opcode : BitVec 16) (s : State) (hs : Safety.Keeps que s) : ∃ t, execNop r opcode s = .next t ∧ Safety.Keeps que t := by
  refine ⟨_, rfl, ?_⟩
  repeat' with_reducible first | assumption | apply State.ansB_inv | (apply State.serve_inv <;> intros <;> try dsimp only) | (apply inv_ite <;> intros)

theorem execAbort_inv (r : Req) (target : BitVec 16) (s : State) (hs : Safety.Keeps que s) : ∃ t, execAbort r target s = .next t ∧ Safety.Keeps que t := by
  refine ⟨_, rfl, ?_⟩; dsimp only
  repeat' with_reducible first | assumption | apply State.replyTo_inv | apply State.ans_inv | (apply State.serve_inv <;> intros <;> try dsimp only) | (apply inv_ite_st <;> intros) | (refine inv_of_kept ?_; dsimp only; refine kept_of_inv ?_) | (refine inv_of_kept ?_; dsimp only; first | refine kept_fewer _ ?_ | refine kept_marks _ ?_ | refine kept_tick ?_) | split

theorem execIdentify_inv (r : Req) (s : State) (hs : Safety.Keeps que s) : ∃ t, execIdentify r s = .next t ∧ Safety.Keeps que t := by
  refine ⟨_, rfl, ?_⟩; dsimp only
  repeat' with_reducible first | assumption | apply State.ansB_inv | (apply State.serve_inv <;> intros <;> try dsimp only)

theorem execEventRead_inv (r : Req) (start : BitVec 32) (max opt : BitVec 8) (s : State) (hs : Safety.Keeps que s) : ∃ t, execEventRead r start max opt s = .next t ∧ Safety.Keeps que t := by
  refine ⟨_, rfl, ?_⟩; dsimp only
  repeat' with_reducible first | assumption | apply State.ans_inv | apply State.ansB_inv | (apply State.serve_inv <;> intros <;> try dsimp only) | (apply inv_ite_st <;> intros)

theorem execEventAck_inv (r : Req) (count : BitVec 8) (seqs : List (BitVec 32)) (s : State) (hs : Safety.Keeps que s) :
    ∃ t, execEventAck r count seqs s = .next t ∧ Safety.Keeps que t := by
  refine ⟨_, rfl, ?_⟩
  apply State.serve_inv
  · intro s x l hs
    dsimp only
    split
    · exact hs
    · exact inv_marks (s := s) _ rfl rfl rfl rfl rfl rfl hs
  · exact hs

theorem execOperationTimeout_inv (session : BitVec 32) (tag : BitVec 16) (s : State) (hs : Safety.Keeps que s) : ∃ t, execOperationTimeout session tag s = .next t ∧ Safety.Keeps que t := by
  refine ⟨_, rfl, ?_⟩
  repeat' with_reducible first | assumption | apply State.answerFlight_inv | (refine inv_of_kept ?_; dsimp only; refine kept_of_inv ?_) | (refine inv_of_kept ?_; dsimp only; first | refine kept_fewer _ ?_ | refine kept_marks _ ?_ | refine kept_tick ?_) | split

theorem execRateLimitWindowEnd_inv (source : Fin 640) (obj : Nat) (s : State) (hs : Safety.Keeps que s) : ∃ t, execRateLimitWindowEnd source obj s = .next t ∧ Safety.Keeps que t := by
  unfold execRateLimitWindowEnd; split
  · exact ⟨_, rfl, hs⟩
  refine ⟨_, rfl, ?_⟩; dsimp only
  repeat' with_reducible first | assumption | apply State.event_inv | (apply inv_ite <;> intros) | (refine inv_of_kept ?_; dsimp only; refine kept_of_inv ?_) | (refine inv_of_kept ?_; dsimp only; first | refine kept_fewer _ ?_ | refine kept_marks _ ?_ | refine kept_tick ?_) | split

end Sys2Proof.Machine
end

