-- ==== Sys2Proof/Laws/InvKeyOps.lean ====
section
/-! SUPPORT. The invariant under what Machine/KeyOps.lean does. -/

namespace Sys2Proof.Machine
open Sys2Proof

variable {que : List Instr}

theorem State.keyCount_inv (s : State) (hs : Safety.Keeps que s) : Safety.Keeps que (State.keyCount s) := by
  unfold State.keyCount; dsimp only
  repeat' with_reducible first | assumption | apply State.fset_inv

theorem State.keyJudge_inv (s : State) (hs : Safety.Keeps que s) : Safety.Keeps que (State.keyJudge s).1 := by
  unfold State.keyJudge; dsimp only
  repeat' with_reducible first | assumption | apply State.fset_inv | apply State.keyCount_inv | (apply inv_foldl <;> intros)

theorem State.keyWrite_inv (s : State) (n attr gen parent depth pgen : Nat) (hs : Safety.Keeps que s) : Safety.Keeps que (State.keyWrite s n attr gen parent depth pgen) := by
  unfold State.keyWrite; dsimp only
  repeat' with_reducible first | assumption | apply State.fset_inv

theorem State.keyPut_inv (s : State) (n : Nat) (v : List Byte) (hs : Safety.Keeps que s) : Safety.Keeps que (State.keyPut s n v) := by
  unfold State.keyPut
  repeat' with_reducible first | assumption | (refine inv_of_kept ?_; dsimp only; refine kept_of_inv ?_)

theorem State.keyEmptied_inv (s : State) (n gen : Nat) (hs : Safety.Keeps que s) : Safety.Keeps que (State.keyEmptied s n gen) := by
  unfold State.keyEmptied
  repeat' with_reducible first | assumption | apply State.keyWrite_inv | apply State.keyPut_inv

theorem State.keyReply_inv (s : State) (k : KeyOp) (r : Res) (body : List Byte) (hs : Safety.Keeps que s) : Safety.Keeps que (State.keyReply s k r body) := by
  unfold State.keyReply
  repeat' with_reducible first | assumption | apply State.answerFlight_inv | (refine inv_of_kept ?_; dsimp only; refine kept_of_inv ?_) | (refine inv_of_kept ?_; dsimp only; first | refine kept_fewer _ ?_ | refine kept_marks _ ?_ | refine kept_tick ?_) | split

theorem State.keyRefuse_inv (s : State) (k : KeyOp) (r : Res) (hs : Safety.Keeps que s) : Safety.Keeps que (State.keyRefuse s k r) := by
  unfold State.keyRefuse; dsimp only
  repeat' with_reducible first | assumption | apply State.finc_inv | apply State.event_inv | apply State.keyReply_inv | (refine inv_of_kept ?_; dsimp only; refine kept_of_inv ?_) | (refine inv_of_kept ?_; dsimp only; first | refine kept_fewer _ ?_ | refine kept_marks _ ?_ | refine kept_tick ?_) | split

theorem State.keyNext_inv (s : State) (hs : Safety.Keeps que s) (x : Nat) : Safety.Keeps que (s.keyNext x) := by
  induction x generalizing s with
  | zero => exact hs
  | succ n ih =>
    unfold State.keyNext
    split
    · exact hs
    · dsimp only
      split
      · exact ih _ (State.keyRefuse_inv _ _ _ (inv_of_eq (s := s) rfl rfl rfl rfl rfl rfl hs))
      · refine inv_ite (fun _ => ih _ (State.keyReply_inv _ _ _ _ (inv_of_eq (s := s) rfl rfl rfl rfl rfl rfl hs))) (fun _ => inv_ite (fun _ => ?_) (fun _ => ?_))
        · exact ih _ (State.keyRefuse_inv _ _ _ (inv_of_eq (s := s) rfl rfl rfl rfl rfl rfl hs))
        · exact inv_of_eq (s := s) rfl rfl rfl rfl rfl rfl hs

theorem State.keyAccept_inv (s : State) (f : Flight) (k : KeyOp) (hs : Safety.Keeps que s) : Safety.Keeps que (State.keyAccept s f k) := by
  unfold State.keyAccept; dsimp only
  repeat' with_reducible first | assumption | apply State.keyNext_inv | (apply inv_ite <;> intros) | (refine inv_of_kept ?_; dsimp only; refine kept_of_inv ?_)

theorem State.keyClose_inv (s : State) (g : Nat) (hs : Safety.Keeps que s) : Safety.Keeps que (State.keyClose s g) := by
  unfold State.keyClose; dsimp only
  repeat' with_reducible first | assumption | apply State.event_inv | apply State.closeSessions_inv | (apply inv_ite <;> intros)

theorem State.keyApply_inv (s : State) (k : KeyOp) (hs : Safety.Keeps que s) : Safety.Keeps que (State.keyApply s k) := by
  unfold State.keyApply; dsimp only
  repeat' with_reducible first | assumption | apply State.finc_inv | apply State.event_inv | apply State.keyJudge_inv | apply State.keyWrite_inv | apply State.keyPut_inv | apply State.keyEmptied_inv | apply State.keyReply_inv | apply State.keyClose_inv | (apply inv_foldl <;> intros) | (apply inv_ite <;> intros)

theorem State.keyPowerOn_inv (s : State) (r : PowerReads) (hs : Safety.Keeps que s) : Safety.Keeps que (State.keyPowerOn s r) := by
  unfold State.keyPowerOn; dsimp only
  repeat' with_reducible first | assumption | apply State.fset_inv | apply State.fsetB_inv | apply State.event_inv | apply State.keyJudge_inv | apply State.keyWrite_inv | apply State.keyPut_inv | apply State.keyEmptied_inv | (apply inv_foldl <;> intros) | (apply inv_ite <;> intros)

end Sys2Proof.Machine
end

