-- ==== Sys2Proof/Laws/InvRtcOps.lean ====
section
/-! SUPPORT. The invariant under what Machine/RtcOps.lean does. -/

namespace Sys2Proof.Machine
open Sys2Proof

variable {que : List Instr}

theorem State.calLoad_inv (s : State) (secs : Nat) (hs : Safety.Keeps que s) : Safety.Keeps que (State.calLoad s secs) := by
  unfold State.calLoad; dsimp only
  repeat' with_reducible first | assumption | (refine inv_of_kept ?_; dsimp only; refine kept_of_inv ?_)

theorem State.osfSet_inv (s : State) (cause : Nat) (hs : Safety.Keeps que s) : Safety.Keeps que (State.osfSet s cause) := by
  unfold State.osfSet; dsimp only
  repeat' with_reducible first | assumption | apply State.fset_inv | apply State.event_inv | (apply inv_ite <;> intros) | (refine inv_of_kept ?_; dsimp only; refine kept_of_inv ?_)

theorem State.osfClear_inv (s : State) (hs : Safety.Keeps que s) : Safety.Keeps que (State.osfClear s) := by
  unfold State.osfClear
  repeat' with_reducible first | assumption | apply State.fset_inv

theorem State.calWrap_inv (s : State) (hs : Safety.Keeps que s) : Safety.Keeps que (State.calWrap s) := by
  unfold State.calWrap; dsimp only
  repeat' with_reducible first | assumption | apply State.osfSet_inv | (refine inv_of_kept ?_; dsimp only; refine kept_of_inv ?_)

theorem State.calSecond_inv (s : State) (hs : Safety.Keeps que s) : Safety.Keeps que (State.calSecond s) := by
  unfold State.calSecond; dsimp only
  repeat' with_reducible first | assumption | apply State.finc_inv | apply State.calWrap_inv | (apply inv_ite <;> intros) | (refine inv_of_kept ?_; dsimp only; refine kept_of_inv ?_)

theorem State.calAdvance_inv (s : State) (t : Nat) (hs : Safety.Keeps que s) : Safety.Keeps que (State.calAdvance s t) := by
  unfold State.calAdvance; dsimp only
  repeat' with_reducible first | assumption | apply State.calSecond_inv | (apply inv_ite <;> intros) | (refine inv_of_kept ?_; dsimp only; refine kept_of_inv ?_)

theorem State.elapse_inv (s : State) (hs : Safety.Keeps que s) : Safety.Keeps que (State.elapse s) := by
  unfold State.elapse; dsimp only
  repeat' with_reducible first | assumption | apply State.ethClock_inv | apply State.calAdvance_inv | (apply inv_ite <;> intros) | (refine inv_of_kept ?_; dsimp only; refine kept_of_inv ?_)

theorem State.rtcStep_inv (s : State) (utc : Nat) (hs : Safety.Keeps que s) : Safety.Keeps que (State.rtcStep s utc) := by
  unfold State.rtcStep; dsimp only
  repeat' with_reducible first | assumption | apply State.fset_inv | apply State.event_inv | apply State.calLoad_inv | apply State.osfClear_inv | (apply inv_ite <;> intros)

theorem State.rtcDiscipline_inv (s : State) (announced : Option (BitVec 16)) (rate phase : BitVec 16) (hs : Safety.Keeps que s) : Safety.Keeps que (State.rtcDiscipline s announced rate phase) := by
  unfold State.rtcDiscipline; dsimp only
  repeat' with_reducible first | assumption | apply State.fset_inv | apply State.rtcStep_inv | (apply inv_ite <;> intros)

theorem State.toCell_inv (s : State) (hs : Safety.Keeps que s) : Safety.Keeps que (State.toCell s) := by
  unfold State.toCell; dsimp only
  repeat' with_reducible first | assumption | apply State.fset_inv | apply State.fsetB_inv | apply State.finc_inv | (apply inv_ite <;> intros) | (refine inv_of_kept ?_; dsimp only; refine kept_of_inv ?_)

theorem State.backupReset_inv (s : State) (hs : Safety.Keeps que s) : Safety.Keeps que (State.backupReset s) := by
  unfold State.backupReset; dsimp only
  repeat' with_reducible first | assumption | apply State.regClear_inv | (refine inv_of_kept ?_; dsimp only; refine kept_of_inv ?_)

theorem State.fromCell_inv (s : State) (hs : Safety.Keeps que s) : Safety.Keeps que (State.fromCell s) := by
  unfold State.fromCell; dsimp only
  repeat' with_reducible first | assumption | apply State.fset_inv | apply State.backupReset_inv | (apply inv_ite <;> intros) | (refine inv_of_kept ?_; dsimp only; refine kept_of_inv ?_)

theorem State.coinCell_inv (s : State) (mv : Nat) (hs : Safety.Keeps que s) : Safety.Keeps que (State.coinCell s mv) := by
  unfold State.coinCell; dsimp only
  repeat' with_reducible first | assumption | apply State.fset_inv | apply State.event_inv | (apply inv_ite <;> intros)

theorem State.cisJudge_inv (s : State) (hs : Safety.Keeps que s) : Safety.Keeps que (State.cisJudge s) := by
  unfold State.cisJudge; dsimp only
  repeat' with_reducible first | assumption | apply State.fsetB_inv

theorem State.cisUpdate_inv (s : State) (hs : Safety.Keeps que s) : Safety.Keeps que (State.cisUpdate s) := by
  unfold State.cisUpdate; dsimp only
  repeat' with_reducible first | assumption | apply State.fset_inv | apply State.cisJudge_inv | (apply inv_ite <;> intros)

theorem State.backupPowerOn_inv (s : State) (hs : Safety.Keeps que s) : Safety.Keeps que (State.backupPowerOn s) := by
  unfold State.backupPowerOn; dsimp only
  repeat' with_reducible first | assumption | apply State.regClear_inv | apply State.event_inv | apply State.cisJudge_inv | (apply inv_ite <;> intros) | (refine inv_of_kept ?_; dsimp only; refine kept_of_inv ?_) | (refine inv_of_kept ?_; dsimp only; first | refine kept_fewer _ ?_ | refine kept_marks _ ?_ | refine kept_tick ?_) | split

end Sys2Proof.Machine
end

