-- ==== Sys2Proof/Laws/InvPowerOps.lean ====
section
/-! SUPPORT. The invariant under what Machine/PowerOps.lean does. -/

namespace Sys2Proof.Machine
open Sys2Proof

variable {que : List Instr}

theorem State.sluKept_inv (s : State) (hs : Safety.Keeps que s) : Safety.Keeps que (State.sluKept s) := by
  unfold State.sluKept; dsimp only
  repeat' with_reducible first | assumption | apply State.fset_inv | apply State.fsetB_inv

theorem State.powerDown_inv (s : State) (torn : List FlashPage) (hs : Safety.Keeps que s) : Safety.Keeps que (s.powerDown torn) := by
  unfold State.powerDown
  dsimp only
  repeat' with_reducible apply State.fset_inv
  exact ⟨⟨tabWf_filter _ _ _ hs.mem, Nat.zero_le _, Nat.zero_le _, ⟨Nat.le_refl 1, Nat.one_lt_two_pow (by decide)⟩, Nat.two_pow_pos 32⟩, hs.pending⟩

theorem State.powerLost_inv (s : State) (torn : List FlashPage) (hs : Safety.Keeps que s) : Safety.Keeps que (State.powerLost s torn) := by
  unfold State.powerLost; dsimp only
  repeat' with_reducible first | assumption | apply State.toCell_inv | apply State.powerDown_inv | (refine inv_of_kept ?_; dsimp only; refine kept_of_inv ?_)

theorem State.cellMap_inv (s : State) (hs : Safety.Keeps que s) : Safety.Keeps que (State.cellMap s) := by
  unfold State.cellMap; dsimp only
  repeat' with_reducible first | assumption | apply State.fset_inv | (apply inv_foldl <;> intros) | (apply inv_ite <;> intros)

theorem State.sysDefault_inv (s : State) (hs : Safety.Keeps que s) (x : SysItem) : Safety.Keeps que (State.sysDefault s x) := by
  cases x <;> (unfold State.sysDefault; dsimp only)
  all_goals repeat' with_reducible first | assumption | apply State.wr_inv | apply State.fset_inv | apply State.sluKept_inv | (refine inv_of_kept ?_; dsimp only; refine kept_of_inv ?_)

theorem State.retPowerOn_inv (s : State) (r : PowerReads) (hs : Safety.Keeps que s) : Safety.Keeps que (State.retPowerOn s r) := by
  unfold State.retPowerOn; dsimp only
  repeat' with_reducible first | assumption | apply State.event_inv | apply State.sysDefault_inv | (apply inv_foldl <;> intros) | (apply inv_ite <;> intros) | (refine inv_of_kept ?_; dsimp only; refine kept_of_inv ?_)

theorem State.sipPowerOn_inv (s : State) (hs : Safety.Keeps que s) : Safety.Keeps que (State.sipPowerOn s) := by
  unfold State.sipPowerOn
  repeat' with_reducible first | assumption | apply State.fallbackBanks_inv | apply State.fallbackEvent_inv | apply State.sipFallback_inv | (apply inv_ite <;> intros)

theorem State.powerOnDone_inv (s : State) (r : PowerReads) (hs : Safety.Keeps que s) : Safety.Keeps que (State.powerOnDone s r) := by
  unfold State.powerOnDone; dsimp only
  repeat' with_reducible first | assumption | apply State.event_inv | apply State.energyRestore_inv | apply State.flowPowerOn_inv | apply State.backupPowerOn_inv | apply State.keyPowerOn_inv | apply State.cellMap_inv | apply State.retPowerOn_inv | apply State.sipPowerOn_inv

theorem State.lanesUp_inv (s : State) (hs : Safety.Keeps que s) : Safety.Keeps que (State.lanesUp s) := by
  unfold State.lanesUp; dsimp only
  repeat' with_reducible first | assumption | apply State.setInReset_inv | apply State.setDom_inv | apply State.loadSwitch_inv | apply State.loadMeter_inv | apply State.laneRelease_inv | (apply inv_foldl <;> intros) | (apply inv_ite <;> intros) | (refine inv_of_kept ?_; dsimp only; refine kept_of_inv ?_) | (refine inv_of_kept ?_; dsimp only; first | refine kept_fewer _ ?_ | refine kept_marks _ ?_ | refine kept_tick ?_) | split

theorem State.releaseStep_inv (s : State) (r : PowerReads) (hs : Safety.Keeps que s) : Safety.Keeps que (State.releaseStep s r) := by
  unfold State.releaseStep; dsimp only
  repeat' with_reducible first | assumption | apply State.event_inv | apply State.setInReset_inv | apply State.setDom_inv | apply State.meterUp_inv | apply State.powerOnDone_inv | apply State.lanesUp_inv | (apply inv_ite <;> intros) | (refine inv_of_kept ?_; dsimp only; refine kept_of_inv ?_) | (refine inv_of_kept ?_; dsimp only; first | refine kept_fewer _ ?_ | refine kept_marks _ ?_ | refine kept_tick ?_) | split

theorem State.keyPfw_inv (s : State) (hs : Safety.Keeps que s) : Safety.Keeps que (State.keyPfw s) := by
  unfold State.keyPfw; dsimp only
  repeat' with_reducible first | assumption | apply State.keyReply_inv | (apply inv_foldl <;> intros) | (refine inv_of_kept ?_; dsimp only; refine kept_of_inv ?_) | (refine inv_of_kept ?_; dsimp only; first | refine kept_fewer _ ?_ | refine kept_marks _ ?_ | refine kept_tick ?_) | split

theorem State.bistPfw_inv (s : State) (hs : Safety.Keeps que s) : Safety.Keeps que (State.bistPfw s) := by
  unfold State.bistPfw; dsimp only
  repeat' with_reducible first | assumption | apply State.setBist_inv | (apply inv_foldl <;> intros) | (apply inv_ite <;> intros)

theorem State.powerFail_inv (s : State) (cause : Nat) (hs : Safety.Keeps que s) : Safety.Keeps que (State.powerFail s cause) := by
  unfold State.powerFail
  repeat' with_reducible first | assumption | apply State.pfwPorts_inv | apply State.phyDown_inv | apply State.keyPfw_inv | apply State.bistPfw_inv

theorem State.powerSaved_inv (s : State) (us : Nat) (ok : Bool) (hs : Safety.Keeps que s) : Safety.Keeps que (State.powerSaved s us ok) := by
  unfold State.powerSaved; dsimp only
  repeat' with_reducible first | assumption | apply State.fset_inv | apply State.fsetB_inv | apply State.event_inv | apply State.retainCommit_inv | apply State.energyCommit_inv | apply State.flowFlush_inv | (apply inv_ite <;> intros) | (refine inv_of_kept ?_; dsimp only; refine kept_of_inv ?_) | (refine inv_of_kept ?_; dsimp only; first | refine kept_fewer _ ?_ | refine kept_marks _ ?_ | refine kept_tick ?_) | split

end Sys2Proof.Machine
end

