-- ==== Sys2Proof/Laws/InvRegRead.lean ====
section
/-! SUPPORT. The invariant under what Machine/RegRead.lean does. -/

namespace Sys2Proof.Machine
open Sys2Proof

variable {que : List Instr}

theorem State.regRead_inv (s : State) (l : Lane) (a : Nat) (hs : Safety.Keeps que s) : Safety.Keeps que (State.regRead s l a) := by
  unfold State.regRead; dsimp only
  repeat' with_reducible first | assumption | (apply inv_ite <;> intros) | (refine inv_of_kept ?_; dsimp only; refine kept_of_inv ?_)

theorem State.readWord_inv (s : State) (l : Lane) (a : Nat) (hs : Safety.Keeps que s) : Safety.Keeps que (State.readWord s l a).1 := by
  unfold State.readWord; dsimp only
  repeat' with_reducible first | assumption | apply State.free_inv | apply State.regRead_inv | (apply inv_ite_fst <;> intros) | (refine inv_of_kept ?_; dsimp only; refine kept_of_inv ?_) | (refine inv_of_kept ?_; dsimp only; first | refine kept_fewer _ ?_ | refine kept_marks _ ?_ | refine kept_tick ?_) | split

theorem State.readWords_inv (s : State) (l : Lane) (a n : Nat) (hs : Safety.Keeps que s) : Safety.Keeps que (s.readWords l a n).1 := by
  induction n generalizing s a with
  | zero => exact hs
  | succ n ih => exact ih _ _ (State.readWord_inv _ _ _ hs)

end Sys2Proof.Machine
end

