-- ==== Sys2Proof/Laws/InvCyc.lean ====
section
/-! SUPPORT. The invariant under what Machine/Cyc.lean does. -/

namespace Sys2Proof.Machine
open Sys2Proof

variable {que : List Instr}

theorem State.serviceLane_inv (s : State) (l : Lane) (hs : Safety.Keeps que s) : Safety.Keeps que (State.serviceLane s l) := by
  unfold State.serviceLane; dsimp only
  repeat' with_reducible first | assumption | apply State.memClear_inv | apply State.setLaneHg_inv | apply State.setLane_inv | apply State.laneStop_inv | (refine inv_of_kept ?_; dsimp only; refine kept_of_inv ?_) | (refine inv_of_kept ?_; dsimp only; first | refine kept_fewer _ ?_ | refine kept_marks _ ?_ | refine kept_tick ?_) | split

theorem State.serviceEnter_inv (s : State) (hs : Safety.Keeps que s) : Safety.Keeps que (State.serviceEnter s) := by
  unfold State.serviceEnter; dsimp only
  repeat' with_reducible first | assumption | apply State.enterMode_inv | apply State.handover_inv | apply State.exerciseEnd_inv | apply State.serviceLane_inv | (refine inv_of_kept ?_; dsimp only; refine kept_of_inv ?_)

theorem State.rebalanced_inv (s : State) (hs : Safety.Keeps que s) : Safety.Keeps que (State.rebalanced s) := by
  unfold State.rebalanced; dsimp only
  repeat' with_reducible first | assumption | apply State.galReturn_inv | (apply inv_ite <;> intros) | (refine inv_of_kept ?_; dsimp only; refine kept_of_inv ?_)

theorem State.tickModes_inv (s : State) (hs : Safety.Keeps que s) : Safety.Keeps que (State.tickModes s) := by
  unfold State.tickModes; dsimp only
  repeat' with_reducible first | assumption | apply State.tickStarts_inv | apply State.tickChoice_inv | apply State.serviceEnter_inv | apply State.rebalanced_inv | (apply inv_ite <;> intros) | (refine inv_of_kept ?_; dsimp only; refine kept_of_inv ?_)

theorem State.mirrorFill_inv (s : State) (l : Lane) (n : Nat) (hs : Safety.Keeps que s) : Safety.Keeps que (State.mirrorFill s l n) := by
  unfold State.mirrorFill; dsimp only
  repeat' with_reducible first | assumption | apply State.fset_inv | apply State.fsetB_inv | apply State.mwrite_inv | (apply inv_ite <;> intros) | (refine inv_of_kept ?_; dsimp only; refine kept_of_inv ?_)

theorem State.mirrorIdle_inv (s : State) (hs : Safety.Keeps que s) : Safety.Keeps que (State.mirrorIdle s) := by
  unfold State.mirrorIdle
  repeat' with_reducible first | assumption | apply State.mirrorFill_inv | (apply inv_ite <;> intros) | (refine inv_of_kept ?_; dsimp only; refine kept_of_inv ?_) | (refine inv_of_kept ?_; dsimp only; first | refine kept_fewer _ ?_ | refine kept_marks _ ?_ | refine kept_tick ?_) | split

theorem State.tickNote_inv (s : State) (n : Nat) (hs : Safety.Keeps que s) : Safety.Keeps que (State.tickNote s n) := by
  unfold State.tickNote
  repeat' with_reducible first | assumption | (refine inv_of_kept ?_; dsimp only; refine kept_of_inv ?_)

theorem execCycleTick_inv (s : State) (hs : Safety.Keeps que s) : ∃ t, execCycleTick s = .next t ∧ Safety.Keeps que t := by
  unfold execCycleTick; split
  · exact ⟨_, rfl, hs⟩
  refine ⟨_, rfl, ?_⟩; dsimp only
  repeat' with_reducible first | assumption | apply State.lumNote_inv | apply State.lumLatch_inv | apply State.canReconfigEnd_inv | apply State.latchIn_inv | apply State.tickActs_inv | apply State.idleReserve_inv | apply State.staleCheck_inv | apply State.mirrorSwap_inv | apply State.tickModes_inv | apply State.mirrorIdle_inv | apply State.tickNote_inv | (apply inv_ite <;> intros) | (refine inv_of_kept ?_; dsimp only; refine kept_of_inv ?_) | (refine inv_of_kept ?_; dsimp only; first | refine kept_fewer _ ?_ | refine kept_marks _ ?_ | refine kept_tick ?_)

theorem execComputeStart_inv (lane : Lane) (s : State) (hs : Safety.Keeps que s) : ∃ t, execComputeStart lane s = .next t ∧ Safety.Keeps que t := by
  refine ⟨_, rfl, inv_ite (fun _ => hs) (fun _ => ?_)⟩
  split
  · exact hs
  · exact State.mbDeliver_inv _ _ (State.fsetB_inv _ _ _ _ (State.setCyc_inv _ _ _ (State.faultsSettle_inv _ _ hs)))

theorem execCellsDone_inv (lane : Lane) (exec : List (Fin 64 × BitVec 32)) (s : State) (hs : Safety.Keeps que s) : ∃ t, execCellsDone lane exec s = .next t ∧ Safety.Keeps que t := by
  refine ⟨_, rfl, ?_⟩; dsimp only
  repeat' with_reducible first | assumption | apply State.fmax_inv | apply State.setCyc_inv | apply State.cellFault_inv | apply State.cycleRun_inv | (apply inv_foldl <;> intros) | (apply inv_ite <;> intros)

theorem execCommitStart_inv (lane : Lane) (s : State) (hs : Safety.Keeps que s) : ∃ t, execCommitStart lane s = .next t ∧ Safety.Keeps que t := by
  refine ⟨_, rfl, ?_⟩
  repeat' with_reducible first | assumption | apply State.setCyc_inv | apply State.commitOne_inv | (apply inv_foldl <;> intros) | (apply inv_ite <;> intros)

theorem State.dropRoles_inv (s : State) (hs : Safety.Keeps que s) : Safety.Keeps que (State.dropRoles s) := by
  unfold State.dropRoles
  repeat' with_reducible first | assumption | (refine inv_of_kept ?_; dsimp only; refine kept_of_inv ?_)

theorem execOutputRelease_inv (lane : Lane) (s : State) (hs : Safety.Keeps que s) : ∃ t, execOutputRelease lane s = .next t ∧ Safety.Keeps que t := by
  refine ⟨_, rfl, ?_⟩; dsimp only
  repeat' with_reducible first | assumption | apply State.fset_inv | apply State.fmax_inv | apply State.free_inv | apply State.eventLimited_inv | apply State.setCyc_inv | apply State.grantReject_inv | apply State.canRelease_inv | apply State.releaseOne_inv | apply State.releaseActs_inv | apply State.dropRoles_inv | (apply inv_foldl <;> intros) | (apply inv_ite <;> intros)

theorem execEndOfCycle_inv (lane : Lane) (s : State) (hs : Safety.Keeps que s) : ∃ t, execEndOfCycle lane s = .next t ∧ Safety.Keeps que t := by
  refine ⟨_, rfl, ?_⟩; dsimp only
  repeat' with_reducible first | assumption | apply State.fset_inv | apply State.eventLimited_inv | apply State.setCyc_inv | (apply inv_ite <;> intros) | (refine inv_of_kept ?_; dsimp only; refine kept_of_inv ?_) | (refine inv_of_kept ?_; dsimp only; first | refine kept_fewer _ ?_ | refine kept_marks _ ?_ | refine kept_tick ?_) | split

theorem execCycleOverrun_inv (lane : Lane) (s : State) (hs : Safety.Keeps que s) : ∃ t, execCycleOverrun lane s = .next t ∧ Safety.Keeps que t := by
  refine ⟨_, rfl, ?_⟩; dsimp only
  repeat' with_reducible first | assumption | apply State.fset_inv | apply State.finc_inv | apply State.eventLimited_inv | apply State.setCyc_inv | (apply inv_ite <;> intros)

theorem execRetainLagDetected_inv (lane : Lane) (s : State) (hs : Safety.Keeps que s) : ∃ t, execRetainLagDetected lane s = .next t ∧ Safety.Keeps que t := by
  refine ⟨_, rfl, ?_⟩
  repeat' with_reducible first | assumption | apply State.fset_inv | apply State.event_inv | (apply inv_ite <;> intros)

end Sys2Proof.Machine
end

