-- ==== Sys2Proof/Laws/InvEth.lean ====
section
/-! SUPPORT. The invariant under what Machine/Eth.lean does. -/

namespace Sys2Proof.Machine
open Sys2Proof

variable {que : List Instr}

theorem State.phySeen_inv (s : State) (k : Nat) (p : PhySeen) (hs : Safety.Keeps que s) : Safety.Keeps que (State.phySeen s k p) := by
  unfold State.phySeen; dsimp only
  repeat' with_reducible first | assumption | apply State.fsetB_inv | apply State.cnt_inv | (apply inv_ite <;> intros)

theorem State.frameFilter_inv (s : State) (k : Nat) (d : List Byte) (next : State → State)
    (hn : ∀ s, Safety.Keeps que s → Safety.Keeps que (next s)) (hs : Safety.Keeps que s) : Safety.Keeps que (s.frameFilter k d next) := by
  unfold State.frameFilter; dsimp only
  repeat' with_reducible first | assumption | apply State.cnt_inv | apply State.ptpArrive_inv | (apply inv_ite <;> intros) | exact hn _ hs | split

theorem execFrameReceived_inv (k : EthPort) (f : Frame) (phy : PhySeen) (s : State) (hs : Safety.Keeps que s) : ∃ t, execFrameReceived k f phy s = .next t ∧ Safety.Keeps que t := by
  refine ⟨_, rfl, ?_⟩; dsimp only
  repeat' with_reducible first | assumption | apply State.cnt_inv | apply State.cntFrame_inv | apply State.octets_inv | apply State.switchFrame_inv | apply State.phySeen_inv | (apply State.frameFilter_inv <;> intros <;> try dsimp only) | (apply inv_ite <;> intros)

theorem execPauseRefresh_inv (k : EthPort) (s : State) (hs : Safety.Keeps que s) : ∃ t, execPauseRefresh k s = .next t ∧ Safety.Keeps que t := by
  refine ⟨_, rfl, ?_⟩
  repeat' with_reducible first | assumption | apply State.sendPause_inv | (apply inv_ite <;> intros)

theorem execPauseSendLow_inv (k : EthPort) (s : State) (hs : Safety.Keeps que s) : ∃ t, execPauseSendLow k s = .next t ∧ Safety.Keeps que t := by
  refine ⟨_, rfl, ?_⟩
  repeat' with_reducible first | assumption | apply State.fset_inv | apply State.sendPause_inv | (apply inv_ite <;> intros)

theorem execPauseReceived_inv (k : EthPort) (quanta : BitVec 16) (s : State) (hs : Safety.Keeps que s) : ∃ t, execPauseReceived k quanta s = .next t ∧ Safety.Keeps que t := by
  refine ⟨_, rfl, ?_⟩; dsimp only
  repeat' with_reducible first | assumption | apply State.fset_inv | apply State.setEthX_inv | apply State.cnt_inv | apply State.drain_inv | apply State.pauseEnd_inv | (apply inv_ite <;> intros)

theorem execPauseQuantaExpired_inv (k : EthPort) (s : State) (hs : Safety.Keeps que s) : ∃ t, execPauseQuantaExpired k s = .next t ∧ Safety.Keeps que t := by
  refine ⟨_, rfl, ?_⟩
  repeat' with_reducible first | assumption | apply State.drain_inv | apply State.pauseEnd_inv | (apply inv_ite <;> intros)

theorem execEgressQueueAgeDrop_inv (k : EthPort) (queue : Fin 4) (s : State) (hs : Safety.Keeps que s) : ∃ t, execEgressQueueAgeDrop k queue s = .next t ∧ Safety.Keeps que t := by
  refine ⟨_, rfl, ?_⟩; dsimp only
  repeat' with_reducible first | assumption | apply State.cnt_inv | (refine inv_of_kept ?_; dsimp only; refine kept_of_inv ?_) | (refine inv_of_kept ?_; dsimp only; first | refine kept_fewer _ ?_ | refine kept_marks _ ?_ | refine kept_tick ?_) | split

theorem execAddressAgedOut_inv (vid : BitVec 12) (mac : BitVec 48) (s : State) (hs : Safety.Keeps que s) : ∃ t, execAddressAgedOut vid mac s = .next t ∧ Safety.Keeps que t := by
  refine ⟨_, rfl, ?_⟩; dsimp only
  repeat' with_reducible first | assumption | (refine inv_of_kept ?_; dsimp only; refine kept_of_inv ?_)

theorem execPortLinkChange_inv (k : EthPort) (up : Bool) (speed : BitVec 3) (half mdix eee : Bool) (s : State) (hs : Safety.Keeps que s) : ∃ t, execPortLinkChange k up speed half mdix eee s = .next t ∧ Safety.Keeps que t := by
  refine ⟨_, rfl, ?_⟩; dsimp only
  repeat' with_reducible first | assumption | apply State.fset_inv | apply State.fsetB_inv | apply State.event_inv | apply State.setEthX_inv | apply State.cnt_inv | apply State.lpiEnter_inv | apply State.lumArrive_inv | apply State.linkDown_inv | (apply inv_ite <;> intros)

theorem execDuplexRetry_inv (k : EthPort) (s : State) (hs : Safety.Keeps que s) : ∃ t, execDuplexRetry k s = .next t ∧ Safety.Keeps que t := by
  refine ⟨_, rfl, ?_⟩; dsimp only
  repeat' with_reducible first | assumption | apply State.setEthX_inv

theorem execRateLowerDecision_inv (k : PortNo) (s : State) (hs : Safety.Keeps que s) : ∃ t, execRateLowerDecision k s = .next t ∧ Safety.Keeps que t := by
  refine ⟨_, rfl, ?_⟩
  repeat' with_reducible first | assumption | apply State.rateBegin_inv | (apply inv_ite <;> intros)

theorem execRateRaiseDecision_inv (k : PortNo) (s : State) (hs : Safety.Keeps que s) : ∃ t, execRateRaiseDecision k s = .next t ∧ Safety.Keeps que t := by
  refine ⟨_, rfl, ?_⟩
  repeat' with_reducible first | assumption | apply State.rateRaise_inv | (apply inv_ite <;> intros)

theorem execRateChangeLinkUp_inv (k : PortNo) (s : State) (hs : Safety.Keeps que s) : ∃ t, execRateChangeLinkUp k s = .next t ∧ Safety.Keeps que t := by
  refine ⟨_, rfl, ?_⟩; dsimp only
  repeat' with_reducible first | assumption | apply State.fset_inv | apply State.fsetB_inv | apply State.setEthX_inv | apply State.cnt_inv | apply State.lpiEnter_inv | apply State.drain_inv | apply State.rateRaise_inv | (apply inv_ite <;> intros) | (refine inv_of_kept ?_; dsimp only; refine kept_of_inv ?_) | (refine inv_of_kept ?_; dsimp only; first | refine kept_fewer _ ?_ | refine kept_marks _ ?_ | refine kept_tick ?_) | split

theorem execRateChangeFailed_inv (k : PortNo) (s : State) (hs : Safety.Keeps que s) : ∃ t, execRateChangeFailed k s = .next t ∧ Safety.Keeps que t := by
  refine ⟨_, rfl, ?_⟩; dsimp only
  repeat' with_reducible first | assumption | apply State.event_inv | apply State.setEthX_inv | apply State.linkDown_inv | (apply inv_ite <;> intros) | (refine inv_of_kept ?_; dsimp only; refine kept_of_inv ?_) | (refine inv_of_kept ?_; dsimp only; first | refine kept_fewer _ ?_ | refine kept_marks _ ?_ | refine kept_tick ?_) | split

theorem execMgmtInterfaceRequest_inv (uplink : Bus) (vid : Option (BitVec 12)) (ask : MgmtAsk) (s : State) (hs : Safety.Keeps que s) : ∃ t, execMgmtInterfaceRequest uplink vid ask s = .next t ∧ Safety.Keeps que t := by
  refine ⟨_, rfl, ?_⟩
  repeat' with_reducible first | assumption | apply State.send_inv | apply State.cnt_inv | (apply inv_ite <;> intros)

theorem State.cageEvent_inv (s : State) (cage : Bus) (code : Nat) (hs : Safety.Keeps que s) : Safety.Keeps que (State.cageEvent s cage code) := by
  unfold State.cageEvent
  repeat' with_reducible first | assumption | apply State.fset_inv | apply State.event_inv

theorem State.setCage_inv (s : State) (cage : Bus) (x : Cage) (hs : Safety.Keeps que s) : Safety.Keeps que (State.setCage s cage x) := by
  unfold State.setCage; dsimp only
  repeat' with_reducible first | assumption | (refine inv_of_kept ?_; dsimp only; refine kept_of_inv ?_)

theorem execSfpInserted_inv (cage : Bus) (level : BitVec 8) (kind : SfpKind) (s : State) (hs : Safety.Keeps que s) : ∃ t, execSfpInserted cage level kind s = .next t ∧ Safety.Keeps que t := by
  refine ⟨_, rfl, ?_⟩
  repeat' with_reducible first | assumption | apply State.fset_inv | apply State.cageEvent_inv | apply State.setCage_inv | (apply inv_ite <;> intros)

theorem execSfpRemoved_inv (cage : Bus) (s : State) (hs : Safety.Keeps que s) : ∃ t, execSfpRemoved cage s = .next t ∧ Safety.Keeps que t := by
  refine ⟨_, rfl, ?_⟩; dsimp only
  repeat' with_reducible first | assumption | apply State.fset_inv | apply State.linkDown_inv | apply State.cageEvent_inv | apply State.setCage_inv | (apply inv_ite <;> intros)

theorem execSfpAlarmPoll_inv (cage : Bus) (txFault los : Bool) (ddm : BitVec 16) (s : State) (hs : Safety.Keeps que s) : ∃ t, execSfpAlarmPoll cage txFault los ddm s = .next t ∧ Safety.Keeps que t := by
  refine ⟨_, rfl, ?_⟩; dsimp only
  repeat' with_reducible first | assumption | apply State.fsetB_inv | apply State.cageEvent_inv | apply State.setCage_inv | (apply inv_ite <;> intros)

theorem execPtpSyncReceived_inv (offset : BitVec 64) (rate : BitVec 32) (steps : BitVec 8) (delayA delayB : BitVec 32) (s : State) (hs : Safety.Keeps que s) : ∃ t, execPtpSyncReceived offset rate steps delayA delayB s = .next t ∧ Safety.Keeps que t := by
  refine ⟨_, rfl, ?_⟩; dsimp only
  repeat' with_reducible first | assumption | apply State.fset_inv | apply State.ptpSet_inv | (apply inv_ite <;> intros)

theorem execPtpGmSelected_inv (best : Option (Bus × Announce)) (s : State) (hs : Safety.Keeps que s) : ∃ t, execPtpGmSelected best s = .next t ∧ Safety.Keeps que t := by
  refine ⟨_, rfl, ?_⟩; dsimp only
  repeat' with_reducible first | assumption | apply State.ptpTo_inv | apply State.ptpGm_inv | (apply inv_ite <;> intros) | (refine inv_of_kept ?_; dsimp only; refine kept_of_inv ?_) | (refine inv_of_kept ?_; dsimp only; first | refine kept_fewer _ ?_ | refine kept_marks _ ?_ | refine kept_tick ?_) | split

theorem execPtpLockAchieved_inv (s : State) (hs : Safety.Keeps que s) : ∃ t, execPtpLockAchieved s = .next t ∧ Safety.Keeps que t := by
  refine ⟨_, rfl, ?_⟩
  repeat' with_reducible first | assumption | apply State.ptpTo_inv | (apply inv_ite <;> intros)

theorem execPtpOffsetExceeded_inv (offset : BitVec 32) (s : State) (hs : Safety.Keeps que s) : ∃ t, execPtpOffsetExceeded offset s = .next t ∧ Safety.Keeps que t := by
  refine ⟨_, rfl, ?_⟩
  repeat' with_reducible first | assumption | apply State.eventLimited_inv | apply State.ptpTo_inv | (apply inv_ite <;> intros)

theorem execPtpSyncLost_inv (s : State) (hs : Safety.Keeps que s) : ∃ t, execPtpSyncLost s = .next t ∧ Safety.Keeps que t := by
  refine ⟨_, rfl, ?_⟩
  repeat' with_reducible first | assumption | apply State.ptpTo_inv | (apply inv_ite <;> intros)

theorem execPtpSyncResumed_inv (s : State) (hs : Safety.Keeps que s) : ∃ t, execPtpSyncResumed s = .next t ∧ Safety.Keeps que t := by
  refine ⟨_, rfl, ?_⟩
  repeat' with_reducible first | assumption | apply State.ptpTo_inv | (apply inv_ite <;> intros)

theorem execPtpHoldoverExpired_inv (s : State) (hs : Safety.Keeps que s) : ∃ t, execPtpHoldoverExpired s = .next t ∧ Safety.Keeps que t := by
  refine ⟨_, rfl, ?_⟩
  repeat' with_reducible first | assumption | apply State.ptpTo_inv | apply State.ptpSet_inv | (apply inv_ite <;> intros)

theorem execPtpBetterGm_inv (uplink : Bus) (announce : Announce) (s : State) (hs : Safety.Keeps que s) : ∃ t, execPtpBetterGm uplink announce s = .next t ∧ Safety.Keeps que t := by
  refine ⟨_, rfl, ?_⟩
  repeat' with_reducible first | assumption | apply State.ptpTo_inv | apply State.ptpGm_inv | (apply inv_ite <;> intros)

end Sys2Proof.Machine
end

