-- ==== Sys2Proof/Laws/InvFlow.lean ====
section
/-! SUPPORT. The invariant under what Machine/Flow.lean does. -/

namespace Sys2Proof.Machine
open Sys2Proof

variable {que : List Instr}

theorem execRecorderSample_inv (extreme : Bool) (desc : Fin 64) (s : State) (hs : Safety.Keeps que s) : ∃ t, execRecorderSample extreme desc s = .next t ∧ Safety.Keeps que t := by
  unfold execRecorderSample; split
  · exact ⟨_, rfl, hs⟩
  refine ⟨_, rfl, ?_⟩
  repeat' with_reducible first | assumption | apply State.finc_inv | apply State.flowSample_inv | (apply inv_ite <;> intros)

theorem execRecorderEpochEnd_inv (extreme : Bool) (desc : Fin 64) (s : State) (hs : Safety.Keeps que s) : ∃ t, execRecorderEpochEnd extreme desc s = .next t ∧ Safety.Keeps que t := by
  unfold execRecorderEpochEnd; split
  · exact ⟨_, rfl, hs⟩
  refine ⟨_, rfl, ?_⟩
  repeat' with_reducible first | assumption | apply State.flowEnd_inv | (apply inv_ite <;> intros) | (refine inv_of_kept ?_; dsimp only; refine kept_of_inv ?_) | (refine inv_of_kept ?_; dsimp only; first | refine kept_fewer _ ?_ | refine kept_marks _ ?_ | refine kept_tick ?_) | split

theorem execRecorderFlush_inv (s : State) (hs : Safety.Keeps que s) : ∃ t, execRecorderFlush s = .next t ∧ Safety.Keeps que t := by
  unfold execRecorderFlush; split
  · exact ⟨_, rfl, hs⟩
  refine ⟨_, rfl, ?_⟩
  repeat' with_reducible first | assumption | apply State.flowFlush_inv | (apply inv_ite <;> intros)

theorem State.freezeReq_inv (s : State) (r : Req) (on : Nat) (hs : Safety.Keeps que s) : Safety.Keeps que (State.freezeReq s r on) := by
  unfold State.freezeReq
  repeat' with_reducible first | assumption | apply State.ans_inv | (apply State.serve_inv <;> intros <;> try dsimp only) | apply State.flowFreeze_inv | apply State.flowRelease_inv | (apply inv_ite <;> intros) | (apply inv_ite_st <;> intros)

theorem execRecorderFreeze_inv (r : Req) (on : BitVec 8) (s : State) (hs : Safety.Keeps que s) : ∃ t, execRecorderFreeze r on s = .next t ∧ Safety.Keeps que t := by
  refine ⟨_, rfl, ?_⟩
  repeat' with_reducible first | assumption | apply State.freezeReq_inv

theorem execRecorderRelease_inv (r : Req) (s : State) (hs : Safety.Keeps que s) : ∃ t, execRecorderRelease r s = .next t ∧ Safety.Keeps que t := by
  refine ⟨_, rfl, ?_⟩
  repeat' with_reducible first | assumption | apply State.freezeReq_inv

theorem execRecorderFreezeExpired_inv (s : State) (hs : Safety.Keeps que s) : ∃ t, execRecorderFreezeExpired s = .next t ∧ Safety.Keeps que t := by
  unfold execRecorderFreezeExpired; split
  · exact ⟨_, rfl, hs⟩
  refine ⟨_, rfl, ?_⟩
  repeat' with_reducible first | assumption | apply State.event_inv | apply State.flowRelease_inv | (apply inv_ite <;> intros)

theorem execOperatingHoursStep_inv (s : State) (hs : Safety.Keeps que s) : ∃ t, execOperatingHoursStep s = .next t ∧ Safety.Keeps que t := by
  unfold execOperatingHoursStep; split
  · exact ⟨_, rfl, hs⟩
  refine ⟨_, rfl, ?_⟩
  repeat' with_reducible first | assumption | apply State.fset_inv | (apply inv_ite <;> intros)

end Sys2Proof.Machine
end

