-- ==== Sys2Proof/Laws/InvKeys.lean ====
section
/-! SUPPORT. The invariant under what Machine/Keys.lean does. -/

namespace Sys2Proof.Machine
open Sys2Proof

variable {que : List Instr}

theorem execKeyLoad_inv (r : Req) (slot parent : BitVec 8) (attr : BitVec 32) (wrapped : List Byte) (s : State) (hs : Safety.Keeps que s) : ∃ t, execKeyLoad r slot parent attr wrapped s = .next t ∧ Safety.Keeps que t := by
  refine ⟨_, rfl, ?_⟩
  repeat' with_reducible first | assumption | (apply State.serve_inv <;> intros <;> try dsimp only) | apply State.keyAccept_inv

theorem execKeyInvalidate_inv (r : Req) (slot : BitVec 8) (s : State) (hs : Safety.Keeps que s) : ∃ t, execKeyInvalidate r slot s = .next t ∧ Safety.Keeps que t := by
  refine ⟨_, rfl, ?_⟩
  repeat' with_reducible first | assumption | (apply State.serve_inv <;> intros <;> try dsimp only) | apply State.keyAccept_inv

theorem execKeyInfo_inv (r : Req) (slot : BitVec 8) (s : State) (hs : Safety.Keeps que s) : ∃ t, execKeyInfo r slot s = .next t ∧ Safety.Keeps que t := by
  refine ⟨_, rfl, ?_⟩; dsimp only
  repeat' with_reducible first | assumption | apply State.ans_inv | apply State.ansB_inv | (apply State.serve_inv <;> intros <;> try dsimp only) | (apply inv_ite_st <;> intros)

theorem execKeyAreaWriteDone_inv (ok : Bool) (s : State) (hs : Safety.Keeps que s) : ∃ t, execKeyAreaWriteDone ok s = .next t ∧ Safety.Keeps que t := by
  unfold execKeyAreaWriteDone; split
  · exact ⟨_, rfl, hs⟩
  refine ⟨_, rfl, ?_⟩; dsimp only
  repeat' with_reducible first | assumption | apply State.keyReply_inv | apply State.keyNext_inv | apply State.keyApply_inv | (apply inv_ite <;> intros) | (refine inv_of_kept ?_; dsimp only; refine kept_of_inv ?_) | (refine inv_of_kept ?_; dsimp only; first | refine kept_fewer _ ?_ | refine kept_marks _ ?_ | refine kept_tick ?_) | split

end Sys2Proof.Machine
end

