-- ==== Sys2Proof/Laws/InvLoop.lean ====
section
/-! SUPPORT. The invariant under what Machine/Loop.lean does. -/

namespace Sys2Proof.Machine
open Sys2Proof

variable {que : List Instr}

theorem execLoopSubframeStart_inv (lane : Lane) (s : State) (hs : Safety.Keeps que s) : ∃ t, execLoopSubframeStart lane s = .next t ∧ Safety.Keeps que t := by
  refine ⟨_, rfl, ?_⟩; dsimp only
  repeat' with_reducible first | assumption | apply State.fmax_inv | apply State.loopSample_inv | (apply inv_foldl <;> intros) | (apply inv_ite <;> intros)

theorem execLoopComputationDone_inv (lane : Lane) (slot : Fin 1024) (s : State) (hs : Safety.Keeps que s) : ∃ t, execLoopComputationDone lane slot s = .next t ∧ Safety.Keeps que t := by
  refine ⟨_, rfl, ?_⟩
  repeat' with_reducible first | assumption | apply State.loopDone_inv | (apply inv_ite <;> intros)

theorem execLoopDatapathCheck_inv (lane : Lane) (dp : Fin 4) (right : Bool) (s : State) (hs : Safety.Keeps que s) : ∃ t, execLoopDatapathCheck lane dp right s = .next t ∧ Safety.Keeps que t := by
  refine ⟨_, rfl, ?_⟩
  repeat' with_reducible first | assumption | apply State.dpFail_inv | (apply inv_ite <;> intros)

theorem execLoopTest_inv (r : Req) (slot : BitVec 16) (signal buffer : BitVec 8) (amplitude arg : BitVec 32) (s : State) (hs : Safety.Keeps que s) : ∃ t, execLoopTest r slot signal buffer amplitude arg s = .next t ∧ Safety.Keeps que t := by
  refine ⟨_, rfl, ?_⟩; dsimp only
  repeat' with_reducible first | assumption | apply State.fset_inv | apply State.fsetB_inv | apply State.ans_inv | (apply State.serve_inv <;> intros <;> try dsimp only) | apply State.setLoopX_inv | apply State.testEnd_inv | apply State.capClear_inv | (apply inv_foldl <;> intros) | (apply inv_ite_st <;> intros) | (refine inv_of_kept ?_; dsimp only; refine kept_of_inv ?_) | (refine inv_of_kept ?_; dsimp only; first | refine kept_fewer _ ?_ | refine kept_marks _ ?_ | refine kept_tick ?_) | split

theorem execLoopTestStop_inv (r : Req) (slot : BitVec 16) (point : BitVec 4) (buffer : BitVec 8) (amplitude arg : BitVec 32) (s : State) (hs : Safety.Keeps que s) : ∃ t, execLoopTestStop r slot point buffer amplitude arg s = .next t ∧ Safety.Keeps que t := by
  refine ⟨_, rfl, ?_⟩; dsimp only
  repeat' with_reducible first | assumption | apply State.ans_inv | (apply State.serve_inv <;> intros <;> try dsimp only) | apply State.testEnd_inv | (refine inv_of_kept ?_; dsimp only; refine kept_of_inv ?_) | (refine inv_of_kept ?_; dsimp only; first | refine kept_fewer _ ?_ | refine kept_marks _ ?_ | refine kept_tick ?_) | split

theorem execCaptureRead_inv (r : Req) (buffer : BitVec 8) (start count : BitVec 16) (s : State) (hs : Safety.Keeps que s) : ∃ t, execCaptureRead r buffer start count s = .next t ∧ Safety.Keeps que t := by
  refine ⟨_, rfl, ?_⟩; dsimp only
  repeat' with_reducible first | assumption | apply State.ans_inv | apply State.ansB_inv | (apply State.serve_inv <;> intros <;> try dsimp only) | (apply inv_ite_st <;> intros)

end Sys2Proof.Machine
end

