-- ==== Sys2Proof/Laws/InvLum.lean ====
section
/-! SUPPORT. The invariant under what Machine/Lum.lean does. -/

namespace Sys2Proof.Machine
open Sys2Proof

variable {que : List Instr}

theorem State.lumHelloReply_inv (s : State) (l : Lane) (p k seq tag : Nat) (hs : Safety.Keeps que s) : Safety.Keeps que (State.lumHelloReply s l p k seq tag) := by
  unfold State.lumHelloReply; dsimp only
  repeat' with_reducible first | assumption | apply State.lumSend_inv

theorem execLumHello_inv (port : PortNo) (src : BitVec 48) (linkLocal : Bool) (seq : BitVec 64) (tag : BitVec 16) (nodes : BitVec 8) (cold : Bool) (vendor : BitVec 32) (s : State) (hs : Safety.Keeps que s) : ∃ t, execLumHello port src linkLocal seq tag nodes cold vendor s = .next t ∧ Safety.Keeps que t := by
  refine ⟨_, rfl, ?_⟩; dsimp only
  repeat' with_reducible first | assumption | apply State.fset_inv | apply State.finc_inv | apply State.setDstate_inv | apply State.lumRx_inv | apply State.lumBad_inv | apply State.lumConfig_inv | apply State.lumTodo_inv | apply State.lumForget_inv | apply State.lumHelloReply_inv | (apply inv_ite <;> intros) | (refine inv_of_kept ?_; dsimp only; refine kept_of_inv ?_) | (refine inv_of_kept ?_; dsimp only; first | refine kept_fewer _ ?_ | refine kept_marks _ ?_ | refine kept_tick ?_) | split

theorem execLumBadDatagram_inv (lane : Lane) (s : State) (hs : Safety.Keeps que s) : ∃ t, execLumBadDatagram lane s = .next t ∧ Safety.Keeps que t := by
  refine ⟨_, rfl, ?_⟩
  repeat' with_reducible first | assumption | apply State.lumBad_inv

theorem execLumHelloTimeout_inv (port : PortNo) (s : State) (hs : Safety.Keeps que s) : ∃ t, execLumHelloTimeout port s = .next t ∧ Safety.Keeps que t := by
  refine ⟨_, rfl, ?_⟩
  repeat' with_reducible first | assumption | apply State.setDstate_inv | (apply inv_ite <;> intros) | (refine inv_of_kept ?_; dsimp only; refine kept_of_inv ?_) | (refine inv_of_kept ?_; dsimp only; first | refine kept_fewer _ ?_ | refine kept_marks _ ?_ | refine kept_tick ?_) | split

theorem execLumConfigReply_inv (port : PortNo) (src : BitVec 48) (node : Fin 4) (result : BitVec 16) (s : State) (hs : Safety.Keeps que s) : ∃ t, execLumConfigReply port src node result s = .next t ∧ Safety.Keeps que t := by
  refine ⟨_, rfl, ?_⟩; dsimp only
  repeat' with_reducible first | assumption | apply State.setDstate_inv | apply State.lumRx_inv | apply State.lumBad_inv | apply State.lumTodo_inv | (apply inv_ite <;> intros) | (refine inv_of_kept ?_; dsimp only; refine kept_of_inv ?_) | (refine inv_of_kept ?_; dsimp only; first | refine kept_fewer _ ?_ | refine kept_marks _ ?_ | refine kept_tick ?_) | split

theorem execLumConfigResend_inv (port : PortNo) (s : State) (hs : Safety.Keeps que s) : ∃ t, execLumConfigResend port s = .next t ∧ Safety.Keeps que t := by
  refine ⟨_, rfl, ?_⟩
  repeat' with_reducible first | assumption | apply State.lumConfig_inv | (apply inv_ite <;> intros) | (refine inv_of_kept ?_; dsimp only; refine kept_of_inv ?_) | (refine inv_of_kept ?_; dsimp only; first | refine kept_fewer _ ?_ | refine kept_marks _ ?_ | refine kept_tick ?_) | split

theorem execLightTick_inv (s : State) (hs : Safety.Keeps que s) : ∃ t, execLightTick s = .next t ∧ Safety.Keeps que t := by
  refine ⟨_, rfl, ?_⟩; dsimp only
  repeat' with_reducible first | assumption | apply State.lightTick_inv

theorem execLumLevelReply_inv (port : PortNo) (src : BitVec 48) (seq : BitVec 64) (tag : BitVec 16) (result : BitVec 16) (entries : List LumStatus) (s : State) (hs : Safety.Keeps que s) : ∃ t, execLumLevelReply port src seq tag result entries s = .next t ∧ Safety.Keeps que t := by
  refine ⟨_, rfl, ?_⟩; dsimp only
  repeat' with_reducible first | assumption | apply State.finc_inv | apply State.setDstate_inv | apply State.setLum_inv | apply State.lumRx_inv | apply State.lumBad_inv | (apply inv_ite <;> intros) | (refine inv_of_kept ?_; dsimp only; refine kept_of_inv ?_) | (refine inv_of_kept ?_; dsimp only; first | refine kept_fewer _ ?_ | refine kept_marks _ ?_ | refine kept_tick ?_) | split

theorem execLumLateReply_inv (port : PortNo) (s : State) (hs : Safety.Keeps que s) : ∃ t, execLumLateReply port s = .next t ∧ Safety.Keeps que t := by
  refine ⟨_, rfl, ?_⟩
  repeat' with_reducible first | assumption | apply State.finc_inv | (refine inv_of_kept ?_; dsimp only; refine kept_of_inv ?_) | (refine inv_of_kept ?_; dsimp only; first | refine kept_fewer _ ?_ | refine kept_marks _ ?_ | refine kept_tick ?_) | split

theorem State.lumClose_inv (s : State) (l : Lane) (hs : Safety.Keeps que s) : Safety.Keeps que (State.lumClose s l) := by
  unfold State.lumClose; dsimp only
  repeat' with_reducible first | assumption | apply State.finc_inv | (apply State.forPorts_inv <;> intros) | apply State.setDstate_inv | apply State.setLum_inv | (apply inv_ite <;> intros)

theorem execLumReplyWindowClose_inv (s : State) (hs : Safety.Keeps que s) : ∃ t, execLumReplyWindowClose s = .next t ∧ Safety.Keeps que t := by
  refine ⟨_, rfl, ?_⟩; dsimp only
  repeat' with_reducible first | assumption | apply State.lumClose_inv | (apply inv_ite <;> intros)

end Sys2Proof.Machine
end

