-- ==== Sys2Proof/Laws/InvMtr.lean ====
section
/-! SUPPORT. The invariant under what Machine/Mtr.lean does. -/

namespace Sys2Proof.Machine
open Sys2Proof

variable {que : List Instr}

theorem execMeterSample_inv (x : MeterSample) (s : State) (hs : Safety.Keeps que s) : ∃ t, execMeterSample x s = .next t ∧ Safety.Keeps que t := by
  refine ⟨_, rfl, ?_⟩; dsimp only
  repeat' with_reducible first | assumption | apply State.inSample_inv | apply State.lineSample_inv | apply State.setSample_inv | apply State.setIdle_inv | (apply inv_foldl <;> intros) | (apply inv_ite <;> intros) | (refine inv_of_kept ?_; dsimp only; refine kept_of_inv ?_)

theorem execPortMeterSample_inv (port : PortNo) (power volts amps : BitVec 32) (s : State) (hs : Safety.Keeps que s) : ∃ t, execPortMeterSample port power volts amps s = .next t ∧ Safety.Keeps que t := by
  unfold execPortMeterSample; split
  · exact ⟨_, rfl, hs⟩
  refine ⟨_, rfl, ?_⟩
  repeat' with_reducible first | assumption | apply State.setPortMtr_inv | apply State.portAdd_inv

theorem execLineCycleEnd_inv (base : Fin 3) (frac : Fin 256) (s : State) (hs : Safety.Keeps que s) : ∃ t, execLineCycleEnd base frac s = .next t ∧ Safety.Keeps que t := by
  refine ⟨_, rfl, ?_⟩; dsimp only
  repeat' with_reducible first | assumption | apply State.boundary_inv | apply State.setCycle_inv | (apply inv_ite <;> intros)

theorem State.pulseOn_inv (s : State) (k : Nat) (x : PulseX) (hs : Safety.Keeps que s) : Safety.Keeps que (State.pulseOn s k x) := by
  unfold State.pulseOn; dsimp only
  repeat' with_reducible first | assumption | apply State.fset_inv | apply State.send_inv | apply State.setPulse_inv

theorem execPulseStart_inv (k : Fin 8) (s : State) (hs : Safety.Keeps que s) : ∃ t, execPulseStart k s = .next t ∧ Safety.Keeps que t := by
  refine ⟨_, rfl, ?_⟩
  repeat' with_reducible first | assumption | apply State.setPulse_inv | apply State.setPending_inv | apply State.pulseLate_inv | apply State.pulseOn_inv | (apply inv_ite <;> intros) | (refine inv_of_kept ?_; dsimp only; refine kept_of_inv ?_) | (refine inv_of_kept ?_; dsimp only; first | refine kept_fewer _ ?_ | refine kept_marks _ ?_ | refine kept_tick ?_) | split

theorem execPulseEnd_inv (k : Fin 8) (s : State) (hs : Safety.Keeps que s) : ∃ t, execPulseEnd k s = .next t ∧ Safety.Keeps que t := by
  refine ⟨_, rfl, ?_⟩
  repeat' with_reducible first | assumption | apply State.send_inv | apply State.setPulse_inv | (apply inv_ite <;> intros)

theorem State.mtrAdopt_inv (s : State) (hs : Safety.Keeps que s) : Safety.Keeps que (State.mtrAdopt s) := by
  unfold State.mtrAdopt; dsimp only
  repeat' with_reducible first | assumption | apply State.fset_inv | (refine inv_of_kept ?_; dsimp only; refine kept_of_inv ?_) | (refine inv_of_kept ?_; dsimp only; first | refine kept_fewer _ ?_ | refine kept_marks _ ?_ | refine kept_tick ?_) | split

theorem execMeterLatch_inv (s : State) (hs : Safety.Keeps que s) : ∃ t, execMeterLatch s = .next t ∧ Safety.Keeps que t := by
  refine ⟨_, rfl, ?_⟩
  repeat' with_reducible first | assumption | apply State.latch_inv | apply State.mtrAdopt_inv | (apply inv_ite <;> intros)

theorem execMeterPublish_inv (deferred : Bool) (s : State) (hs : Safety.Keeps que s) : ∃ t, execMeterPublish deferred s = .next t ∧ Safety.Keeps que t := by
  refine ⟨_, rfl, ?_⟩
  repeat' with_reducible first | assumption | apply State.finc_inv | apply State.publish_inv | (apply inv_ite <;> intros)

theorem execEnergyPeriodicSave_inv (done : Bool) (s : State) (hs : Safety.Keeps que s) : ∃ t, execEnergyPeriodicSave done s = .next t ∧ Safety.Keeps que t := by
  unfold execEnergyPeriodicSave; split
  · exact ⟨_, rfl, hs⟩
  refine ⟨_, rfl, ?_⟩
  repeat' with_reducible first | assumption | apply State.fset_inv | apply State.event_inv | apply State.energyCommit_inv | (apply inv_ite <;> intros)

theorem execMeterSelfcheckFail_inv (channel : BitVec 8) (s : State) (hs : Safety.Keeps que s) : ∃ t, execMeterSelfcheckFail channel s = .next t ∧ Safety.Keeps que t := by
  refine ⟨_, rfl, ?_⟩
  repeat' with_reducible first | assumption | apply State.event_inv | (apply inv_ite <;> intros)

theorem execMeterRead_inv (r : Req) (select : BitVec 16) (s : State) (hs : Safety.Keeps que s) : ∃ t, execMeterRead r select s = .next t ∧ Safety.Keeps que t := by
  refine ⟨_, rfl, ?_⟩; dsimp only
  repeat' with_reducible first | assumption | apply State.ans_inv | apply State.ansB_inv | (apply State.serve_inv <;> intros <;> try dsimp only) | (apply inv_ite_st <;> intros)

end Sys2Proof.Machine
end

