-- ==== Sys2Proof/Laws/InvOwnOps.lean ====
section
/-! SUPPORT. The invariant under what Machine/OwnOps.lean does. -/

namespace Sys2Proof.Machine
open Sys2Proof

variable {que : List Instr}

theorem State.ownStart_inv (s : State) (hs : Safety.Keeps que s) : Safety.Keeps que (State.ownStart s).1 := by
  unfold State.ownStart; dsimp only
  repeat' with_reducible first | assumption | apply State.wr_inv | apply State.event_inv | (apply inv_ite_fst <;> intros) | (refine inv_of_kept ?_; dsimp only; refine kept_of_inv ?_)

theorem State.galOff_inv (s : State) (g : Nat) (hs : Safety.Keeps que s) : Safety.Keeps que (State.galOff s g) := by
  unfold State.galOff; dsimp only
  repeat' with_reducible first | assumption | apply State.closeSessions_inv | apply State.noGrant_inv | (refine inv_of_kept ?_; dsimp only; refine kept_of_inv ?_) | (refine inv_of_kept ?_; dsimp only; first | refine kept_fewer _ ?_ | refine kept_marks _ ?_ | refine kept_tick ?_)

theorem State.galOn_inv (s : State) (g : Nat) (hs : Safety.Keeps que s) : Safety.Keeps que (State.galOn s g) := by
  unfold State.galOn; dsimp only
  repeat' with_reducible first | assumption | apply State.setGrant_inv | (apply inv_ite <;> intros)

theorem State.slotOwned_inv (s : State) (q : Nat) (hs : Safety.Keeps que s) : Safety.Keeps que (State.slotOwned s q) := by
  unfold State.slotOwned
  repeat' with_reducible first | assumption | apply State.loopOwned_inv

theorem State.portOwned_inv (s : State) (p g : Nat) (hs : Safety.Keeps que s) : Safety.Keeps que (State.portOwned s p g) := by
  unfold State.portOwned; dsimp only
  repeat' with_reducible first | assumption | apply State.lumMove_inv | apply State.lumOwner_inv | (apply inv_ite <;> intros) | (refine inv_of_kept ?_; dsimp only; refine kept_of_inv ?_) | (refine inv_of_kept ?_; dsimp only; first | refine kept_fewer _ ?_ | refine kept_marks _ ?_ | refine kept_tick ?_) | split

theorem State.ownApply_inv (s : State) (hs : Safety.Keeps que s) : Safety.Keeps que (State.ownApply s) := by
  unfold State.ownApply; dsimp only
  repeat' with_reducible first | assumption | apply State.wr_inv | apply State.event_inv | apply State.pulseJudge_inv | apply State.galChanges_inv | apply State.dropActs_inv | apply State.reRole_inv | apply State.galOff_inv | apply State.galOn_inv | apply State.slotOwned_inv | apply State.portOwned_inv | (apply inv_foldl <;> intros) | (refine inv_of_kept ?_; dsimp only; refine kept_of_inv ?_)

end Sys2Proof.Machine
end

