-- ==== Sys2Proof/Laws/InvOwn.lean ====
section
/-! SUPPORT. The invariant under what Machine/Own.lean does. -/

namespace Sys2Proof.Machine
open Sys2Proof

variable {que : List Instr}

theorem execOwnershipApplyTick_inv (s : State) (hs : Safety.Keeps que s) : ∃ t, execOwnershipApplyTick s = .next t ∧ Safety.Keeps que t := by
  unfold execOwnershipApplyTick; split
  · exact ⟨_, rfl, hs⟩
  refine ⟨_, rfl, ?_⟩
  repeat' with_reducible first | assumption | apply State.ownApply_inv | (apply inv_ite <;> intros) | (refine inv_of_kept ?_; dsimp only; refine kept_of_inv ?_) | (refine inv_of_kept ?_; dsimp only; first | refine kept_fewer _ ?_ | refine kept_marks _ ?_ | refine kept_tick ?_) | split

end Sys2Proof.Machine
end

