-- ==== Sys2Proof/Laws/InvPorts.lean ====
section
/-! SUPPORT. The invariant under what Machine/Ports.lean does. -/

namespace Sys2Proof.Machine
open Sys2Proof

variable {que : List Instr}

theorem execPortDetectPass_inv (port : PortNo) (a b : Signature) (s : State) (hs : Safety.Keeps que s) : ∃ t, execPortDetectPass port a b s = .next t ∧ Safety.Keeps que t := by
  refine ⟨_, rfl, ?_⟩; dsimp only
  repeat' with_reducible first | assumption | apply State.setPortX_inv | apply State.reason_inv | apply State.faultEvent_inv | (apply inv_ite <;> intros)

theorem execPortConnectionCheckDone_inv (port : PortNo) (single : Bool) (s : State) (hs : Safety.Keeps que s) : ∃ t, execPortConnectionCheckDone port single s = .next t ∧ Safety.Keeps que t := by
  refine ⟨_, rfl, ?_⟩; dsimp only
  repeat' with_reducible first | assumption | apply State.fset_inv | apply State.setPortX_inv | apply State.setPst_inv | apply State.setBoth_inv | (apply inv_ite <;> intros)

theorem State.classify_inv (s : State) (p : Nat) (ps : PairSet) (c : Option (Fin 16)) (hs : Safety.Keeps que s) : Safety.Keeps que (State.classify s p ps c) := by
  unfold State.classify; dsimp only
  repeat' with_reducible first | assumption | apply State.fset_inv | apply State.setPortX_inv | apply State.removeFault_inv | (apply inv_ite <;> intros) | (refine inv_of_kept ?_; dsimp only; refine kept_of_inv ?_) | (refine inv_of_kept ?_; dsimp only; first | refine kept_fewer _ ?_ | refine kept_marks _ ?_ | refine kept_tick ?_) | split

theorem execPortClassifyDone_inv (port : PortNo) (clsA clsB : Option (Fin 16)) (auto : Bool) (s : State) (hs : Safety.Keeps que s) : ∃ t, execPortClassifyDone port clsA clsB auto s = .next t ∧ Safety.Keeps que t := by
  refine ⟨_, rfl, ?_⟩; dsimp only
  repeat' with_reducible first | assumption | apply State.fset_inv | apply State.setPortX_inv | apply State.classify_inv | (apply inv_ite <;> intros)

theorem execPortGrantReceived_inv (port : PortNo) (s : State) (hs : Safety.Keeps que s) : ∃ t, execPortGrantReceived port s = .next t ∧ Safety.Keeps que t := by
  refine ⟨_, rfl, ?_⟩; dsimp only
  repeat' with_reducible first | assumption | apply State.setPortX_inv | apply State.setPst_inv | apply State.showV_inv | (apply inv_foldl <;> intros) | (apply inv_ite <;> intros)

theorem execPortGrantTimeout_inv (port : PortNo) (s : State) (hs : Safety.Keeps que s) : ∃ t, execPortGrantTimeout port s = .next t ∧ Safety.Keeps que t := by
  refine ⟨_, rfl, ?_⟩; dsimp only
  repeat' with_reducible first | assumption | apply State.setPortX_inv | apply State.setPst_inv | apply State.adopt_inv | (apply inv_foldl <;> intros) | (apply inv_ite <;> intros)

theorem State.classEvent_inv (s : State) (p prev : Nat) (hs : Safety.Keeps que s) : Safety.Keeps que (State.classEvent s p prev) := by
  unfold State.classEvent; dsimp only
  repeat' with_reducible first | assumption | apply State.event_inv

theorem execPortInrushComplete_inv (port : PortNo) (ps : PairSet) (s : State) (hs : Safety.Keeps que s) : ∃ t, execPortInrushComplete port ps s = .next t ∧ Safety.Keeps que t := by
  refine ⟨_, rfl, ?_⟩; dsimp only
  repeat' with_reducible first | assumption | apply State.setPortX_inv | apply State.setPst_inv | apply State.lumArrive_inv | apply State.classEvent_inv | (apply inv_ite <;> intros)

theorem execPortInrushTimeout_inv (port : PortNo) (ps : PairSet) (s : State) (hs : Safety.Keeps que s) : ∃ t, execPortInrushTimeout port ps s = .next t ∧ Safety.Keeps que t := by
  refine ⟨_, rfl, ?_⟩
  repeat' with_reducible first | assumption | apply State.removeFault_inv | (apply inv_ite <;> intros)

theorem execPortMpsLost_inv (port : PortNo) (ps : PairSet) (s : State) (hs : Safety.Keeps que s) : ∃ t, execPortMpsLost port ps s = .next t ∧ Safety.Keeps que t := by
  refine ⟨_, rfl, ?_⟩
  repeat' with_reducible first | assumption | apply State.removeFault_inv | (apply inv_ite <;> intros)

theorem execPortOverload_inv (port : PortNo) (ps : PairSet) (s : State) (hs : Safety.Keeps que s) : ∃ t, execPortOverload port ps s = .next t ∧ Safety.Keeps que t := by
  refine ⟨_, rfl, ?_⟩
  repeat' with_reducible first | assumption | apply State.removeFault_inv | (apply inv_ite <;> intros)

theorem State.weirAdd_inv (s : State) (p e : Nat) (hs : Safety.Keeps que s) : Safety.Keeps que (State.weirAdd s p e) := by
  unfold State.weirAdd; dsimp only
  repeat' with_reducible first | assumption | apply State.setPortX_inv | apply State.faultEvent_inv | (apply inv_ite <;> intros)

theorem execPortShort_inv (port : PortNo) (ps : PairSet) (energy : BitVec 32) (s : State) (hs : Safety.Keeps que s) : ∃ t, execPortShort port ps energy s = .next t ∧ Safety.Keeps que t := by
  refine ⟨_, rfl, ?_⟩
  repeat' with_reducible first | assumption | apply State.removeFault_inv | apply State.weirAdd_inv | (apply inv_ite <;> intros)

theorem execPortRegFault_inv (port : PortNo) (ps : PairSet) (s : State) (hs : Safety.Keeps que s) : ∃ t, execPortRegFault port ps s = .next t ∧ Safety.Keeps que t := by
  refine ⟨_, rfl, ?_⟩
  repeat' with_reducible first | assumption | apply State.removeFault_inv | (apply inv_ite <;> intros)

theorem execPortBackoffExpired_inv (port : PortNo) (ps : PairSet) (s : State) (hs : Safety.Keeps que s) : ∃ t, execPortBackoffExpired port ps s = .next t ∧ Safety.Keeps que t := by
  refine ⟨_, rfl, ?_⟩
  repeat' with_reducible first | assumption | apply State.toDetect_inv | (apply inv_ite <;> intros)

theorem execAutoclassWindowEnd_inv (port : PortNo) (peak : BitVec 32) (s : State) (hs : Safety.Keeps que s) : ∃ t, execAutoclassWindowEnd port peak s = .next t ∧ Safety.Keeps que t := by
  refine ⟨_, rfl, ?_⟩; dsimp only
  repeat' with_reducible first | assumption | apply State.fset_inv | apply State.setPortX_inv | apply State.classEvent_inv | (apply inv_ite <;> intros)

theorem execLoopRMeasureDue_inv (port : PortNo) (s : State) (hs : Safety.Keeps que s) : ∃ t, execLoopRMeasureDue port s = .next t ∧ Safety.Keeps que t := by
  refine ⟨_, rfl, ?_⟩
  repeat' with_reducible first | assumption | apply State.measDue_inv | (apply inv_ite <;> intros)

theorem execLoopRMeasureRetry_inv (port : PortNo) (s : State) (hs : Safety.Keeps que s) : ∃ t, execLoopRMeasureRetry port s = .next t ∧ Safety.Keeps que t := by
  refine ⟨_, rfl, ?_⟩
  repeat' with_reducible first | assumption | apply State.measDue_inv | (apply inv_ite <;> intros)

theorem State.cableEvent_inv (s : State) (p cause : Nat) (hs : Safety.Keeps que s) : Safety.Keeps que (State.cableEvent s p cause) := by
  unfold State.cableEvent; dsimp only
  repeat' with_reducible first | assumption | apply State.event_inv

theorem execLoopRMeasureComplete_inv (port : PortNo) (base stepA stepB : LoopSample) (s : State) (hs : Safety.Keeps que s) : ∃ t, execLoopRMeasureComplete port base stepA stepB s = .next t ∧ Safety.Keeps que t := by
  refine ⟨_, rfl, ?_⟩; dsimp only
  repeat' with_reducible first | assumption | apply State.fset_inv | apply State.setPortX_inv | apply State.showV_inv | apply State.retarget_inv | apply State.cableEvent_inv | (apply inv_ite <;> intros) | (refine inv_of_kept ?_; dsimp only; refine kept_of_inv ?_) | (refine inv_of_kept ?_; dsimp only; first | refine kept_fewer _ ?_ | refine kept_marks _ ?_ | refine kept_tick ?_) | split

theorem execVoltageRampStep_inv (port : PortNo) (s : State) (hs : Safety.Keeps que s) : ∃ t, execVoltageRampStep port s = .next t ∧ Safety.Keeps que t := by
  refine ⟨_, rfl, ?_⟩; dsimp only
  repeat' with_reducible first | assumption | apply State.setPortX_inv | apply State.showV_inv | apply State.measDue_inv | (apply inv_ite <;> intros)

theorem execWeirClampEngage_inv (port : PortNo) (ps : PairSet) (s : State) (hs : Safety.Keeps que s) : ∃ t, execWeirClampEngage port ps s = .next t ∧ Safety.Keeps que t := by
  refine ⟨_, rfl, ?_⟩; dsimp only
  repeat' with_reducible first | assumption | apply State.fset_inv | apply State.setPortX_inv | apply State.showLimit_inv | apply State.faultEvent_inv | (apply inv_ite <;> intros)

theorem execWeirClampRelease_inv (port : PortNo) (ps : PairSet) (energy : BitVec 32) (s : State) (hs : Safety.Keeps que s) : ∃ t, execWeirClampRelease port ps energy s = .next t ∧ Safety.Keeps que t := by
  refine ⟨_, rfl, ?_⟩
  repeat' with_reducible first | assumption | apply State.fsetB_inv | apply State.setPortX_inv | apply State.showLimit_inv | apply State.weirAdd_inv | (apply inv_ite <;> intros)

theorem execWeirEnergyTrip_inv (port : PortNo) (energy : BitVec 32) (s : State) (hs : Safety.Keeps que s) : ∃ t, execWeirEnergyTrip port energy s = .next t ∧ Safety.Keeps que t := by
  refine ⟨_, rfl, ?_⟩
  repeat' with_reducible first | assumption | apply State.faultEvent_inv | apply State.removeWeir_inv | apply State.weirAdd_inv | (apply inv_ite <;> intros)

theorem execWeirFaultEventEnd_inv (port : PortNo) (s : State) (hs : Safety.Keeps que s) : ∃ t, execWeirFaultEventEnd port s = .next t ∧ Safety.Keeps que t := by
  refine ⟨_, rfl, ?_⟩
  repeat' with_reducible first | assumption | apply State.faultEvent_inv | apply State.weirEnd_inv | (apply inv_ite <;> intros)

theorem execWeir3sTrip_inv (port : PortNo) (s : State) (hs : Safety.Keeps que s) : ∃ t, execWeir3sTrip port s = .next t ∧ Safety.Keeps que t := by
  refine ⟨_, rfl, ?_⟩
  repeat' with_reducible first | assumption | apply State.removeWeir_inv | (apply inv_ite <;> intros)

theorem execWeirOvervoltage_inv (port : PortNo) (ps : PairSet) (s : State) (hs : Safety.Keeps que s) : ∃ t, execWeirOvervoltage port ps s = .next t ∧ Safety.Keeps que t := by
  refine ⟨_, rfl, ?_⟩
  repeat' with_reducible first | assumption | apply State.removeWeir_inv | (apply inv_ite <;> intros)

theorem execWeirRefusalEnd_inv (port : PortNo) (s : State) (hs : Safety.Keeps que s) : ∃ t, execWeirRefusalEnd port s = .next t ∧ Safety.Keeps que t := by
  refine ⟨_, rfl, ?_⟩; dsimp only
  repeat' with_reducible first | assumption | apply State.setPortX_inv

end Sys2Proof.Machine
end

