-- ==== Sys2Proof/Laws/InvPower.lean ====
section
/-! SUPPORT. The invariant under what Machine/Power.lean does. -/

namespace Sys2Proof.Machine
open Sys2Proof

variable {que : List Instr}

theorem execMainPowerValidAsserted_inv (s : State) (hs : Safety.Keeps que s) : ∃ t, execMainPowerValidAsserted s = .next t ∧ Safety.Keeps que t := by
  refine ⟨_, rfl, ?_⟩; dsimp only
  repeat' with_reducible first | assumption | apply State.fromCell_inv | (apply inv_ite <;> intros) | (refine inv_of_kept ?_; dsimp only; refine kept_of_inv ?_)

theorem execRefclkStable_inv (slot : BitVec 8) (s : State) (hs : Safety.Keeps que s) : ∃ t, execRefclkStable slot s = .next t ∧ Safety.Keeps que t := by
  refine ⟨_, rfl, ?_⟩; dsimp only
  repeat' with_reducible first | assumption | apply State.fset_inv | apply State.free_inv | (apply inv_ite <;> intros) | (refine inv_of_kept ?_; dsimp only; refine kept_of_inv ?_)

theorem execHeadgateStartCompareDone_inv (agree : Bool) (s : State) (hs : Safety.Keeps que s) : ∃ t, execHeadgateStartCompareDone agree s = .next t ∧ Safety.Keeps que t := by
  refine ⟨_, rfl, ?_⟩; dsimp only
  repeat' with_reducible first | assumption | apply State.portpwrUp_inv | apply State.headgateHold_inv | (apply inv_ite <;> intros) | (refine inv_of_kept ?_; dsimp only; refine kept_of_inv ?_)

theorem execPllLocked_inv (s : State) (hs : Safety.Keeps que s) : ∃ t, execPllLocked s = .next t ∧ Safety.Keeps que t := by
  refine ⟨_, rfl, ?_⟩; dsimp only
  repeat' with_reducible first | assumption | apply State.fset_inv | (apply inv_ite <;> intros) | (refine inv_of_kept ?_; dsimp only; refine kept_of_inv ?_)

theorem execDomainReleaseStep_inv (reads : PowerReads) (s : State) (hs : Safety.Keeps que s) : ∃ t, execDomainReleaseStep reads s = .next t ∧ Safety.Keeps que t := by
  refine ⟨_, rfl, ?_⟩
  repeat' with_reducible first | assumption | apply State.releaseStep_inv | (apply inv_ite <;> intros)

theorem execMainPowerLostBeforeT8_inv (s : State) (hs : Safety.Keeps que s) : ∃ t, execMainPowerLostBeforeT8 s = .next t ∧ Safety.Keeps que t := by
  refine ⟨_, rfl, ?_⟩
  repeat' with_reducible first | assumption | apply State.powerLost_inv | (apply inv_ite <;> intros)

theorem execPllLossOfLock_inv (s : State) (hs : Safety.Keeps que s) : ∃ t, execPllLossOfLock s = .next t ∧ Safety.Keeps que t := by
  refine ⟨_, rfl, ?_⟩; dsimp only
  repeat' with_reducible first | assumption | apply State.fset_inv | apply State.finc_inv | apply State.enterSafe_inv | apply State.resetSix_inv | (apply inv_ite <;> intros) | (refine inv_of_kept ?_; dsimp only; refine kept_of_inv ?_)

theorem execPllLockAttemptTimeout_inv (s : State) (hs : Safety.Keeps que s) : ∃ t, execPllLockAttemptTimeout s = .next t ∧ Safety.Keeps que t := by
  refine ⟨_, rfl, ?_⟩; dsimp only
  repeat' with_reducible first | assumption | apply State.enterSafe_inv | (apply inv_ite <;> intros) | (refine inv_of_kept ?_; dsimp only; refine kept_of_inv ?_)

theorem execRefclkLost_inv (s : State) (hs : Safety.Keeps que s) : ∃ t, execRefclkLost s = .next t ∧ Safety.Keeps que t := by
  refine ⟨_, rfl, ?_⟩; dsimp only
  repeat' with_reducible first | assumption | apply State.fset_inv | apply State.resetSix_inv | (apply inv_ite <;> intros) | (refine inv_of_kept ?_; dsimp only; refine kept_of_inv ?_)

theorem execRefclkReturned_inv (s : State) (hs : Safety.Keeps que s) : ∃ t, execRefclkReturned s = .next t ∧ Safety.Keeps que t := by
  refine ⟨_, rfl, ?_⟩; dsimp only
  repeat' with_reducible first | assumption | apply State.fset_inv | apply State.fsat_inv | (apply inv_ite <;> intros) | (refine inv_of_kept ?_; dsimp only; refine kept_of_inv ?_)

theorem State.pfwAssert_inv (s : State) (cause : Nat) (hs : Safety.Keeps que s) : Safety.Keeps que (State.pfwAssert s cause) := by
  unfold State.pfwAssert
  repeat' with_reducible first | assumption | apply State.powerFail_inv | (apply inv_ite <;> intros)

theorem execMateNHigh_inv (s : State) (hs : Safety.Keeps que s) : ∃ t, execMateNHigh s = .next t ∧ Safety.Keeps que t := by
  refine ⟨_, rfl, ?_⟩
  repeat' with_reducible first | assumption | apply State.fset_inv | apply State.ceiling_inv | apply State.pfwAssert_inv

theorem execPowerFailWarning_inv (s : State) (hs : Safety.Keeps que s) : ∃ t, execPowerFailWarning s = .next t ∧ Safety.Keeps que t := by
  refine ⟨_, rfl, ?_⟩
  repeat' with_reducible first | assumption | apply State.pfwAssert_inv

theorem execHotspotOvertemp_inv (s : State) (hs : Safety.Keeps que s) : ∃ t, execHotspotOvertemp s = .next t ∧ Safety.Keeps que t := by
  refine ⟨_, rfl, ?_⟩
  repeat' with_reducible first | assumption | apply State.enterSafe_inv | (apply inv_ite <;> intros)

theorem execPfwSaveComplete_inv (us : BitVec 16) (ok : Bool) (s : State) (hs : Safety.Keeps que s) : ∃ t, execPfwSaveComplete us ok s = .next t ∧ Safety.Keeps que t := by
  refine ⟨_, rfl, ?_⟩
  repeat' with_reducible first | assumption | apply State.powerSaved_inv | (apply inv_ite <;> intros)

theorem execHoldupLost_inv (torn : List FlashPage) (s : State) (hs : Safety.Keeps que s) : ∃ t, execHoldupLost torn s = .next t ∧ Safety.Keeps que t := by
  refine ⟨_, rfl, ?_⟩
  repeat' with_reducible first | assumption | apply State.powerLost_inv

theorem execRetainSetCommit_inv (lane : Lane) (s : State) (hs : Safety.Keeps que s) : ∃ t, execRetainSetCommit lane s = .next t ∧ Safety.Keeps que t := by
  refine ⟨_, rfl, ?_⟩
  repeat' with_reducible first | assumption | apply State.retainCommit_inv | (apply inv_ite <;> intros)

end Sys2Proof.Machine
end

