-- ==== Sys2Proof/Laws/InvRegWrite.lean ====
section
/-! SUPPORT. The invariant under what Machine/RegWrite.lean does. -/

namespace Sys2Proof.Machine
open Sys2Proof

variable {que : List Instr}

theorem State.regSet_inv (s : State) (l : Lane) (a v : Nat) (hs : Safety.Keeps que s) : Safety.Keeps que (State.regSet s l a v) := by
  unfold State.regSet; dsimp only
  repeat' with_reducible first | assumption | apply State.wr_inv

theorem State.sealTo_inv (s : State) (on : Bool) (hs : Safety.Keeps que s) : Safety.Keeps que (State.sealTo s on) := by
  unfold State.sealTo
  repeat' with_reducible first | assumption | apply State.fsetB_inv | apply State.sysPage_inv | apply State.event_inv | (apply inv_ite <;> intros)

theorem State.calChanged_inv (s : State) (a : Nat) (hs : Safety.Keeps que s) : Safety.Keeps que (State.calChanged s a) := by
  unfold State.calChanged; dsimp only
  repeat' with_reducible first | assumption | apply State.fset_inv | apply State.sysPage_inv | apply State.event_inv

theorem State.rtcLoadNow_inv (s : State) (hs : Safety.Keeps que s) : Safety.Keeps que (State.rtcLoadNow s) := by
  unfold State.rtcLoadNow
  repeat' with_reducible first | assumption | apply State.fset_inv | apply State.event_inv | apply State.calLoad_inv | (refine inv_of_kept ?_; dsimp only; refine kept_of_inv ?_) | (refine inv_of_kept ?_; dsimp only; first | refine kept_fewer _ ?_ | refine kept_marks _ ?_ | refine kept_tick ?_) | split

theorem State.cycClear_inv (s : State) (l : Lane) (hs : Safety.Keeps que s) : Safety.Keeps que (State.cycClear s l) := by
  unfold State.cycClear
  repeat' with_reducible first | assumption | apply State.regClear_inv

theorem State.ckvWrite_inv (s : State) (l : Lane) (a v : Nat) (hs : Safety.Keeps que s) : Safety.Keeps que (State.ckvWrite s l a v).1 := by
  unfold State.ckvWrite; dsimp only
  repeat' with_reducible first | assumption | apply State.ckvFeed_inv | apply State.ckvCmd_inv | apply State.regSet_inv | (refine inv_of_kept ?_; dsimp only; refine kept_of_inv ?_) | (refine inv_of_kept ?_; dsimp only; first | refine kept_fewer _ ?_ | refine kept_marks _ ?_ | refine kept_tick ?_) | split

theorem State.hgCmd_inv (s : State) (v : Nat) (hs : Safety.Keeps que s) : Safety.Keeps que (State.hgCmd s v) := by
  unfold State.hgCmd; dsimp only
  repeat' with_reducible first | assumption | apply State.setLaneHg_inv | (apply inv_ite <;> intros) | (refine inv_of_kept ?_; dsimp only; refine kept_of_inv ?_)

theorem State.lumIdent_inv (s : State) (l : Lane) (v : Nat) (hs : Safety.Keeps que s) : Safety.Keeps que (State.lumIdent s l v) := by
  unfold State.lumIdent; dsimp only
  repeat' with_reducible first | assumption | apply State.lumSend_inv | (apply inv_ite <;> intros)

theorem State.ethWrite_inv (s : State) (l : Lane) (a v : Nat) (hs : Safety.Keeps que s) : Safety.Keeps que (State.ethWrite s l a v) := by
  unfold State.ethWrite; dsimp only
  repeat' with_reducible first | assumption | (apply State.forPorts_inv <;> intros) | apply State.lpiEnter_inv | apply State.lpiLeave_inv | apply State.linkDown_inv | apply State.rateRaise_inv | apply State.ethRelink_inv | apply State.ethSnap_inv | apply State.ptpEnable_inv | apply State.regSet_inv | (apply inv_ite <;> intros) | (refine inv_of_kept ?_; dsimp only; refine kept_of_inv ?_) | (refine inv_of_kept ?_; dsimp only; first | refine kept_fewer _ ?_ | refine kept_marks _ ?_ | refine kept_tick ?_) | split

theorem State.canWrite_inv (s : State) (l : Lane) (a v : Nat) (hs : Safety.Keeps que s) : Safety.Keeps que (State.canWrite s l a v) := by
  unfold State.canWrite; dsimp only
  repeat' with_reducible first | assumption | apply State.setCanObj_inv | apply State.canChanged_inv | apply State.canCtrlWritten_inv | apply State.canRecover_inv | apply State.canClrStats_inv | apply State.canTxreq_inv | apply State.regSet_inv | (apply inv_foldl <;> intros) | (apply inv_ite <;> intros)

theorem State.loopRegWrite_inv (s : State) (l : Lane) (a v : Nat) (hs : Safety.Keeps que s) : Safety.Keeps que (State.loopRegWrite s l a v) := by
  unfold State.loopRegWrite; dsimp only
  repeat' with_reducible first | assumption | apply State.loopCfg_inv | apply State.loopParam_inv | apply State.loopClrStats_inv | apply State.capClear_inv | apply State.regSet_inv | (apply inv_foldl <;> intros) | (apply inv_ite <;> intros)

theorem State.portWrite_inv (s : State) (l : Lane) (a v : Nat) (hs : Safety.Keeps que s) : Safety.Keeps que (State.portWrite s l a v) := by
  unfold State.portWrite; dsimp only
  repeat' with_reducible first | assumption | apply State.fset_inv | apply State.measDue_inv | apply State.portRestart_inv | apply State.portCtrlChanged_inv | apply State.regSet_inv | (apply inv_ite <;> intros) | (refine inv_of_kept ?_; dsimp only; refine kept_of_inv ?_) | (refine inv_of_kept ?_; dsimp only; first | refine kept_fewer _ ?_ | refine kept_marks _ ?_ | refine kept_tick ?_) | split

theorem State.aioRegWrite_inv (s : State) (l : Lane) (a v : Nat) (hs : Safety.Keeps que s) : Safety.Keeps que (State.aioRegWrite s l a v) := by
  unfold State.aioRegWrite; dsimp only
  repeat' with_reducible first | assumption | apply State.fset_inv | apply State.aioShow_inv | apply State.aioApply_inv | apply State.regSet_inv | (apply inv_ite <;> intros) | (refine inv_of_kept ?_; dsimp only; refine kept_of_inv ?_) | (refine inv_of_kept ?_; dsimp only; first | refine kept_fewer _ ?_ | refine kept_marks _ ?_ | refine kept_tick ?_) | split

theorem State.regDo_inv (s : State) (l : Lane) (a v : Nat) (hs : Safety.Keeps que s) : Safety.Keeps que (State.regDo s l a v).1 := by
  unfold State.regDo; dsimp only
  repeat' with_reducible first | assumption | refine State.flowClear_inv _ ?_ _ (by assumption) | refine State.rstCommand_inv _ _ ?_ _ (by assumption) | apply State.fset_inv | apply State.setColdNext_inv | apply State.flowChanged_inv | apply State.osfClear_inv | apply State.ownStart_inv | apply State.regSet_inv | apply State.sealTo_inv | apply State.calChanged_inv | apply State.rtcLoadNow_inv | apply State.cycClear_inv | apply State.ckvWrite_inv | apply State.hgCmd_inv | apply State.lumIdent_inv | apply State.ethWrite_inv | apply State.canWrite_inv | apply State.loopRegWrite_inv | apply State.portWrite_inv | apply State.aioRegWrite_inv | (apply inv_ite <;> intros) | (apply inv_ite_fst <;> intros) | (refine inv_of_kept ?_; dsimp only; refine kept_of_inv ?_) | (refine inv_of_kept ?_; dsimp only; first | refine kept_fewer _ ?_ | refine kept_marks _ ?_ | refine kept_tick ?_) | split

theorem State.cellWrite_inv (s : State) (l : Lane) (a v : Nat) (hs : Safety.Keeps que s) : Safety.Keeps que (State.cellWrite s l a v) := by
  unfold State.cellWrite; dsimp only
  repeat' with_reducible first | assumption | apply State.mwrite_inv | (apply inv_ite <;> intros)

theorem State.writeWord_inv (s : State) (l : Lane) (a v : Nat) (hs : Safety.Keeps que s) : Safety.Keeps que (State.writeWord s l a v).1 := by
  unfold State.writeWord
  repeat' with_reducible first | assumption | apply State.regDo_inv | apply State.cellWrite_inv | (apply inv_ite_fst <;> intros) | (refine inv_of_kept ?_; dsimp only; refine kept_of_inv ?_) | (refine inv_of_kept ?_; dsimp only; first | refine kept_fewer _ ?_ | refine kept_marks _ ?_ | refine kept_tick ?_) | split

theorem State.writeWords_inv (s : State) (l : Lane) (a : Nat) (vs : List Nat) (hs : Safety.Keeps que s) : Safety.Keeps que (s.writeWords l a vs).1 := by
  induction vs generalizing s a with
  | nil => exact hs
  | cons v vs ih => exact ih _ _ (State.writeWord_inv _ _ _ _ hs)

theorem State.writeOp_inv (s : State) (l : Lane) (a : Nat) (vs : List Nat) (hs : Safety.Keeps que s) : Safety.Keeps que (State.writeOp s l a vs).1 := by
  unfold State.writeOp; dsimp only
  repeat' with_reducible first | assumption | apply State.cisUpdate_inv | apply State.writeWords_inv | (apply inv_ite_fst <;> intros)

end Sys2Proof.Machine
end

