-- ==== Sys2Proof/Laws/InvRegRows.lean ====
section
/-! SUPPORT. The invariant under what Machine/RegRows.lean does. -/

namespace Sys2Proof.Machine
open Sys2Proof

variable {que : List Instr}

theorem State.readReq_inv (s : State) (r : Req) (addr count : Nat) (hs : Safety.Keeps que s) : Safety.Keeps que (State.readReq s r addr count) := by
  unfold State.readReq; dsimp only
  repeat' with_reducible first | assumption | apply State.ans_inv | apply State.ansB_inv | (apply State.serve_inv <;> intros <;> try dsimp only) | apply State.readWords_inv | (apply inv_ite_st <;> intros)

theorem State.writeReqWith_inv (s : State) (r : Req) (addr count n : Nat) (ws : State → Lane → List Nat) (hs : Safety.Keeps que s) : Safety.Keeps que (State.writeReqWith s r addr count n ws) := by
  unfold State.writeReqWith; dsimp only
  repeat' with_reducible first | assumption | apply State.ans_inv | (apply State.serve_inv <;> intros <;> try dsimp only) | apply State.rstAfter_inv | apply State.writeOp_inv | (apply inv_ite_st <;> intros)

theorem State.writeReq_inv (s : State) (r : Req) (addr : Nat) (ws : List Nat) (hs : Safety.Keeps que s) : Safety.Keeps que (State.writeReq s r addr ws) := by
  unfold State.writeReq
  repeat' with_reducible first | assumption | apply State.writeReqWith_inv

theorem State.cmdReq_inv (s : State) (r : Req) (addr v : Nat) (hs : Safety.Keeps que s) : Safety.Keeps que (State.cmdReq s r addr v) := by
  unfold State.cmdReq
  repeat' with_reducible first | assumption | apply State.writeReqWith_inv

theorem execRegRead_inv (r : Req) (addr : BitVec 32) (count : BitVec 16) (s : State) (hs : Safety.Keeps que s) : ∃ t, execRegRead r addr count s = .next t ∧ Safety.Keeps que t := by
  refine ⟨_, rfl, ?_⟩
  repeat' with_reducible first | assumption | apply State.readReq_inv

theorem execRegWrite_inv (r : Req) (addr : BitVec 32) (count : BitVec 16) (words : List (BitVec 32)) (s : State) (hs : Safety.Keeps que s) : ∃ t, execRegWrite r addr count words s = .next t ∧ Safety.Keeps que t := by
  refine ⟨_, rfl, ?_⟩
  repeat' with_reducible first | assumption | apply State.writeReqWith_inv

theorem execRegModify_inv (r : Req) (addr mask value : BitVec 32) (s : State) (hs : Safety.Keeps que s) : ∃ t, execRegModify r addr mask value s = .next t ∧ Safety.Keeps que t := by
  refine ⟨_, rfl, ?_⟩; dsimp only
  repeat' with_reducible first | assumption | apply State.ans_inv | apply State.ansOk_inv | (apply State.serve_inv <;> intros <;> try dsimp only) | apply State.rstAfter_inv | apply State.readWord_inv | apply State.writeOp_inv | (apply inv_ite_st <;> intros)

theorem execRlRegisterRead_inv (r : Req) (addr : BitVec 32) (s : State) (hs : Safety.Keeps que s) : ∃ t, execRlRegisterRead r addr s = .next t ∧ Safety.Keeps que t := by
  refine ⟨_, rfl, ?_⟩
  repeat' with_reducible first | assumption | apply State.readReq_inv

theorem execPortRestart_inv (r : Req) (port : PortNo) (s : State) (hs : Safety.Keeps que s) : ∃ t, execPortRestart r port s = .next t ∧ Safety.Keeps que t := by
  refine ⟨_, rfl, ?_⟩
  repeat' with_reducible first | assumption | apply State.cmdReq_inv

theorem execPortCtrlWrite_inv (r : Req) (port : PortNo) (vset : Bool) (value : BitVec 32) (s : State) (hs : Safety.Keeps que s) : ∃ t, execPortCtrlWrite r port vset value s = .next t ∧ Safety.Keeps que t := by
  refine ⟨_, rfl, ?_⟩
  repeat' with_reducible first | assumption | apply State.writeReq_inv

theorem execPortRemeasure_inv (r : Req) (port : PortNo) (s : State) (hs : Safety.Keeps que s) : ∃ t, execPortRemeasure r port s = .next t ∧ Safety.Keeps que t := by
  refine ⟨_, rfl, ?_⟩
  repeat' with_reducible first | assumption | apply State.cmdReq_inv

theorem execAllocRestore_inv (r : Req) (s : State) (hs : Safety.Keeps que s) : ∃ t, execAllocRestore r s = .next t ∧ Safety.Keeps que t := by
  refine ⟨_, rfl, ?_⟩
  repeat' with_reducible first | assumption | apply State.cmdReq_inv

theorem execLumIdentify_inv (r : Req) (node : BitVec 8) (seconds : BitVec 16) (s : State) (hs : Safety.Keeps que s) : ∃ t, execLumIdentify r node seconds s = .next t ∧ Safety.Keeps que t := by
  refine ⟨_, rfl, ?_⟩
  repeat' with_reducible first | assumption | apply State.writeReq_inv

theorem execEthPortRaise_inv (r : Req) (k : EthPort) (s : State) (hs : Safety.Keeps que s) : ∃ t, execEthPortRaise r k s = .next t ∧ Safety.Keeps que t := by
  refine ⟨_, rfl, ?_⟩
  repeat' with_reducible first | assumption | apply State.cmdReq_inv

theorem execEthPortRelink_inv (r : Req) (k : EthPort) (s : State) (hs : Safety.Keeps que s) : ∃ t, execEthPortRelink r k s = .next t ∧ Safety.Keeps que t := by
  refine ⟨_, rfl, ?_⟩
  repeat' with_reducible first | assumption | apply State.cmdReq_inv

theorem execEthPortSnap_inv (r : Req) (k : EthPort) (s : State) (hs : Safety.Keeps que s) : ∃ t, execEthPortSnap r k s = .next t ∧ Safety.Keeps que t := by
  refine ⟨_, rfl, ?_⟩
  repeat' with_reducible first | assumption | apply State.cmdReq_inv

theorem execMgmtVidWrite_inv (r : Req) (value : BitVec 32) (s : State) (hs : Safety.Keeps que s) : ∃ t, execMgmtVidWrite r value s = .next t ∧ Safety.Keeps que t := by
  refine ⟨_, rfl, ?_⟩
  repeat' with_reducible first | assumption | apply State.writeReq_inv

theorem execPtpEnableChange_inv (r : Req) (value : BitVec 32) (s : State) (hs : Safety.Keeps que s) : ∃ t, execPtpEnableChange r value s = .next t ∧ Safety.Keeps que t := by
  refine ⟨_, rfl, ?_⟩
  repeat' with_reducible first | assumption | apply State.writeReq_inv

theorem execColdNextWrite_inv (r : Req) (on : Bool) (s : State) (hs : Safety.Keeps que s) : ∃ t, execColdNextWrite r on s = .next t ∧ Safety.Keeps que t := by
  refine ⟨_, rfl, ?_⟩
  repeat' with_reducible first | assumption | apply State.writeReq_inv

theorem execCycClrStats_inv (r : Req) (s : State) (hs : Safety.Keeps que s) : ∃ t, execCycClrStats r s = .next t ∧ Safety.Keeps que t := by
  refine ⟨_, rfl, ?_⟩
  repeat' with_reducible first | assumption | apply State.cmdReq_inv

theorem execLoopCaptureClear_inv (r : Req) (buffer : Fin 4) (s : State) (hs : Safety.Keeps que s) : ∃ t, execLoopCaptureClear r buffer s = .next t ∧ Safety.Keeps que t := by
  refine ⟨_, rfl, ?_⟩
  repeat' with_reducible first | assumption | apply State.cmdReq_inv

theorem execLoopClrStats_inv (r : Req) (s : State) (hs : Safety.Keeps que s) : ∃ t, execLoopClrStats r s = .next t ∧ Safety.Keeps que t := by
  refine ⟨_, rfl, ?_⟩
  repeat' with_reducible first | assumption | apply State.cmdReq_inv

theorem execMtrSeal_inv (r : Req) (s : State) (hs : Safety.Keeps que s) : ∃ t, execMtrSeal r s = .next t ∧ Safety.Keeps que t := by
  refine ⟨_, rfl, ?_⟩
  repeat' with_reducible first | assumption | apply State.cmdReq_inv

theorem execMtrUnseal_inv (r : Req) (s : State) (hs : Safety.Keeps que s) : ∃ t, execMtrUnseal r s = .next t ∧ Safety.Keeps que t := by
  refine ⟨_, rfl, ?_⟩
  repeat' with_reducible first | assumption | apply State.cmdReq_inv

theorem execRevenueParamWrite_inv (r : Req) (offset : BitVec 16) (value : BitVec 32) (s : State) (hs : Safety.Keeps que s) : ∃ t, execRevenueParamWrite r offset value s = .next t ∧ Safety.Keeps que t := by
  refine ⟨_, rfl, ?_⟩
  repeat' with_reducible first | assumption | apply State.writeReq_inv

theorem execCanLeaveInit_inv (r : Req) (ctl : Fin 4) (value : BitVec 32) (s : State) (hs : Safety.Keeps que s) : ∃ t, execCanLeaveInit r ctl value s = .next t ∧ Safety.Keeps que t := by
  refine ⟨_, rfl, ?_⟩
  repeat' with_reducible first | assumption | apply State.writeReq_inv

theorem execCanEnterInit_inv (r : Req) (ctl : Fin 4) (value : BitVec 32) (s : State) (hs : Safety.Keeps que s) : ∃ t, execCanEnterInit r ctl value s = .next t ∧ Safety.Keeps que t := by
  refine ⟨_, rfl, ?_⟩
  repeat' with_reducible first | assumption | apply State.writeReq_inv

theorem execCanRecover_inv (r : Req) (ctl : Fin 4) (s : State) (hs : Safety.Keeps que s) : ∃ t, execCanRecover r ctl s = .next t ∧ Safety.Keeps que t := by
  refine ⟨_, rfl, ?_⟩
  repeat' with_reducible first | assumption | apply State.cmdReq_inv

theorem execCanTxreq_inv (r : Req) (ctl : Fin 4) (w : Fin 4) (bits : BitVec 32) (s : State) (hs : Safety.Keeps que s) : ∃ t, execCanTxreq r ctl w bits s = .next t ∧ Safety.Keeps que t := by
  refine ⟨_, rfl, ?_⟩
  repeat' with_reducible first | assumption | apply State.writeReq_inv

theorem execCanHeaderWrite_inv (r : Req) (ctl : Fin 4) (descr : Bool) (n : Fin 512) (w : Fin 3) (value : BitVec 32) (s : State) (hs : Safety.Keeps que s) : ∃ t, execCanHeaderWrite r ctl descr n w value s = .next t ∧ Safety.Keeps que t := by
  refine ⟨_, rfl, ?_⟩
  repeat' with_reducible first | assumption | apply State.writeReq_inv

theorem execCanClrStats_inv (r : Req) (ctl : Fin 4) (s : State) (hs : Safety.Keeps que s) : ∃ t, execCanClrStats r ctl s = .next t ∧ Safety.Keeps que t := by
  refine ⟨_, rfl, ?_⟩
  repeat' with_reducible first | assumption | apply State.cmdReq_inv

theorem execHgRebalance_inv (r : Req) (s : State) (hs : Safety.Keeps que s) : ∃ t, execHgRebalance r s = .next t ∧ Safety.Keeps que t := by
  refine ⟨_, rfl, ?_⟩
  repeat' with_reducible first | assumption | apply State.cmdReq_inv

theorem execHgRejoin_inv (r : Req) (s : State) (hs : Safety.Keeps que s) : ∃ t, execHgRejoin r s = .next t ∧ Safety.Keeps que t := by
  refine ⟨_, rfl, ?_⟩
  repeat' with_reducible first | assumption | apply State.cmdReq_inv

theorem execHgRstCmdDomain_inv (r : Req) (value : BitVec 32) (s : State) (hs : Safety.Keeps que s) : ∃ t, execHgRstCmdDomain r value s = .next t ∧ Safety.Keeps que t := by
  refine ⟨_, rfl, ?_⟩
  repeat' with_reducible first | assumption | apply State.writeReq_inv

theorem execEnterSafeCommand_inv (r : Req) (s : State) (hs : Safety.Keeps que s) : ∃ t, execEnterSafeCommand r s = .next t ∧ Safety.Keeps que t := by
  refine ⟨_, rfl, ?_⟩
  repeat' with_reducible first | assumption | apply State.writeReq_inv

theorem execHgOwnApply_inv (r : Req) (s : State) (hs : Safety.Keeps que s) : ∃ t, execHgOwnApply r s = .next t ∧ Safety.Keeps que t := by
  refine ⟨_, rfl, ?_⟩
  repeat' with_reducible first | assumption | apply State.cmdReq_inv

theorem execRtcSnapSecRead_inv (r : Req) (s : State) (hs : Safety.Keeps que s) : ∃ t, execRtcSnapSecRead r s = .next t ∧ Safety.Keeps que t := by
  refine ⟨_, rfl, ?_⟩
  repeat' with_reducible first | assumption | apply State.readReq_inv

theorem execRtcSnapYearRead_inv (r : Req) (s : State) (hs : Safety.Keeps que s) : ∃ t, execRtcSnapYearRead r s = .next t ∧ Safety.Keeps que t := by
  refine ⟨_, rfl, ?_⟩
  repeat' with_reducible first | assumption | apply State.readReq_inv

theorem execRtcLoad_inv (r : Req) (value : BitVec 32) (s : State) (hs : Safety.Keeps que s) : ∃ t, execRtcLoad r value s = .next t ∧ Safety.Keeps que t := by
  refine ⟨_, rfl, ?_⟩
  repeat' with_reducible first | assumption | apply State.writeReq_inv

theorem execRtcOsfClear_inv (r : Req) (s : State) (hs : Safety.Keeps que s) : ∃ t, execRtcOsfClear r s = .next t ∧ Safety.Keeps que t := by
  refine ⟨_, rfl, ?_⟩
  repeat' with_reducible first | assumption | apply State.cmdReq_inv

theorem execCisternUpdate_inv (r : Req) (word : Fin 126) (words : List (BitVec 32)) (s : State) (hs : Safety.Keeps que s) : ∃ t, execCisternUpdate r word words s = .next t ∧ Safety.Keeps que t := by
  refine ⟨_, rfl, ?_⟩
  repeat' with_reducible first | assumption | apply State.writeReq_inv

theorem execRecorderClear_inv (r : Req) (s : State) (hs : Safety.Keeps que s) : ∃ t, execRecorderClear r s = .next t ∧ Safety.Keeps que t := by
  refine ⟨_, rfl, ?_⟩
  repeat' with_reducible first | assumption | apply State.cmdReq_inv

theorem execFlowDescriptorChange_inv (r : Req) (extreme : Bool) (desc : Fin 64) (reg : Fin 4) (value : BitVec 32) (s : State) (hs : Safety.Keeps que s) : ∃ t, execFlowDescriptorChange r extreme desc reg value s = .next t ∧ Safety.Keeps que t := by
  refine ⟨_, rfl, ?_⟩
  repeat' with_reducible first | assumption | apply State.writeReq_inv

theorem execCkvDataWrite_inv (r : Req) (unit : Fin 4) (value : BitVec 32) (s : State) (hs : Safety.Keeps que s) : ∃ t, execCkvDataWrite r unit value s = .next t ∧ Safety.Keeps que t := by
  refine ⟨_, rfl, ?_⟩
  repeat' with_reducible first | assumption | apply State.writeReq_inv

theorem execCkvFold_inv (r : Req) (unit : Fin 4) (s : State) (hs : Safety.Keeps que s) : ∃ t, execCkvFold r unit s = .next t ∧ Safety.Keeps que t := by
  refine ⟨_, rfl, ?_⟩
  repeat' with_reducible first | assumption | apply State.cmdReq_inv

theorem execCkvInit_inv (r : Req) (unit : Fin 4) (s : State) (hs : Safety.Keeps que s) : ∃ t, execCkvInit r unit s = .next t ∧ Safety.Keeps que t := by
  refine ⟨_, rfl, ?_⟩
  repeat' with_reducible first | assumption | apply State.cmdReq_inv

theorem execCkvStart_inv (r : Req) (unit : Fin 4) (s : State) (hs : Safety.Keeps que s) : ∃ t, execCkvStart r unit s = .next t ∧ Safety.Keeps que t := by
  refine ⟨_, rfl, ?_⟩
  repeat' with_reducible first | assumption | apply State.cmdReq_inv

theorem execCkvAbort_inv (r : Req) (unit : Fin 4) (s : State) (hs : Safety.Keeps que s) : ∃ t, execCkvAbort r unit s = .next t ∧ Safety.Keeps que t := by
  refine ⟨_, rfl, ?_⟩
  repeat' with_reducible first | assumption | apply State.cmdReq_inv

theorem execCkvValueWrite_inv (r : Req) (unit : Fin 4) (high : Bool) (value : BitVec 32) (s : State) (hs : Safety.Keeps que s) : ∃ t, execCkvValueWrite r unit high value s = .next t ∧ Safety.Keeps que t := by
  refine ⟨_, rfl, ?_⟩
  repeat' with_reducible first | assumption | apply State.writeReq_inv

end Sys2Proof.Machine
end

