-- ==== Sys2Proof/Laws/InvResets.lean ====
section
/-! SUPPORT. The invariant under what Machine/Resets.lean does. -/

namespace Sys2Proof.Machine
open Sys2Proof

variable {que : List Instr}

theorem execBlockWatchdog_inv (dom : Dom) (s : State) (hs : Safety.Keeps que s) : ∃ t, execBlockWatchdog dom s = .next t ∧ Safety.Keeps que t := by
  unfold execBlockWatchdog; split
  · exact ⟨_, rfl, hs⟩
  refine ⟨_, rfl, ?_⟩
  repeat' with_reducible first | assumption | apply State.domRequest_inv | (refine inv_of_kept ?_; dsimp only; refine kept_of_inv ?_) | (refine inv_of_kept ?_; dsimp only; first | refine kept_fewer _ ?_ | refine kept_marks _ ?_ | refine kept_tick ?_) | split

theorem execResetCommandDue_inv (dom : Dom) (s : State) (hs : Safety.Keeps que s) : ∃ t, execResetCommandDue dom s = .next t ∧ Safety.Keeps que t := by
  unfold execResetCommandDue; split
  · exact ⟨_, rfl, hs⟩
  refine ⟨_, rfl, ?_⟩
  repeat' with_reducible first | assumption | apply State.domRequest_inv | (apply inv_ite <;> intros)

theorem execDomainQuiesced_inv (dom : Dom) (s : State) (hs : Safety.Keeps que s) : ∃ t, execDomainQuiesced dom s = .next t ∧ Safety.Keeps que t := by
  unfold execDomainQuiesced; split
  · exact ⟨_, rfl, hs⟩
  refine ⟨_, rfl, ?_⟩
  repeat' with_reducible first | assumption | apply State.domAssert_inv | (apply inv_ite <;> intros)

theorem execQuiesceTimeout_inv (dom : Dom) (s : State) (hs : Safety.Keeps que s) : ∃ t, execQuiesceTimeout dom s = .next t ∧ Safety.Keeps que t := by
  unfold execQuiesceTimeout; split
  · exact ⟨_, rfl, hs⟩
  refine ⟨_, rfl, ?_⟩
  repeat' with_reducible first | assumption | apply State.domAssert_inv | (apply inv_ite <;> intros) | (refine inv_of_kept ?_; dsimp only; refine kept_of_inv ?_) | (refine inv_of_kept ?_; dsimp only; first | refine kept_fewer _ ?_ | refine kept_marks _ ?_ | refine kept_tick ?_) | split

theorem execDomainResetRelease_inv (dom : Dom) (s : State) (hs : Safety.Keeps que s) : ∃ t, execDomainResetRelease dom s = .next t ∧ Safety.Keeps que t := by
  unfold execDomainResetRelease; split
  · exact ⟨_, rfl, hs⟩
  refine ⟨_, rfl, ?_⟩
  repeat' with_reducible first | assumption | apply State.domRelease_inv

theorem execSharedFwReloaded_inv (dom : Dom) (s : State) (hs : Safety.Keeps que s) : ∃ t, execSharedFwReloaded dom s = .next t ∧ Safety.Keeps que t := by
  unfold execSharedFwReloaded; split
  · exact ⟨_, rfl, hs⟩
  refine ⟨_, rfl, ?_⟩
  repeat' with_reducible first | assumption | apply State.domReload_inv

theorem execResetBackoffExpired_inv (dom : Dom) (s : State) (hs : Safety.Keeps que s) : ∃ t, execResetBackoffExpired dom s = .next t ∧ Safety.Keeps que t := by
  unfold execResetBackoffExpired; split
  · exact ⟨_, rfl, hs⟩
  refine ⟨_, rfl, ?_⟩
  repeat' with_reducible first | assumption | apply State.rstBit_inv | apply State.domRelease_inv | (apply inv_ite <;> intros)

theorem execNvPulseEnd_inv (dom : Dom) (s : State) (hs : Safety.Keeps que s) : ∃ t, execNvPulseEnd dom s = .next t ∧ Safety.Keeps que t := by
  refine ⟨_, rfl, ?_⟩; dsimp only
  repeat' with_reducible first | assumption | apply State.rstBit_inv | (apply inv_ite <;> intros) | (refine inv_of_kept ?_; dsimp only; refine kept_of_inv ?_)

end Sys2Proof.Machine
end

