-- ==== Sys2Proof/Laws/InvRtc.lean ====
section
/-! SUPPORT. The invariant under what Machine/Rtc.lean does. -/

namespace Sys2Proof.Machine
open Sys2Proof

variable {que : List Instr}

theorem execRtcFreezeTimeout_inv (s : State) (hs : Safety.Keeps que s) : ∃ t, execRtcFreezeTimeout s = .next t ∧ Safety.Keeps que t := by
  refine ⟨_, rfl, ?_⟩; dsimp only
  repeat' with_reducible first | assumption | (apply inv_ite <;> intros) | (refine inv_of_kept ?_; dsimp only; refine kept_of_inv ?_)

theorem execRtcDisciplineCompare_inv (announced : Option (BitVec 16)) (rate phase : BitVec 16) (s : State) (hs : Safety.Keeps que s) : ∃ t, execRtcDisciplineCompare announced rate phase s = .next t ∧ Safety.Keeps que t := by
  refine ⟨_, rfl, ?_⟩
  repeat' with_reducible first | assumption | apply State.rtcDiscipline_inv

theorem execRtcOscStopped_inv (s : State) (hs : Safety.Keeps que s) : ∃ t, execRtcOscStopped s = .next t ∧ Safety.Keeps que t := by
  refine ⟨_, rfl, ?_⟩; dsimp only
  repeat' with_reducible first | assumption | apply State.osfSet_inv | (apply inv_ite <;> intros) | (refine inv_of_kept ?_; dsimp only; refine kept_of_inv ?_)

theorem execRtcOscRestarted_inv (s : State) (hs : Safety.Keeps que s) : ∃ t, execRtcOscRestarted s = .next t ∧ Safety.Keeps que t := by
  refine ⟨_, rfl, ?_⟩; dsimp only
  repeat' with_reducible first | assumption | (apply inv_ite <;> intros) | (refine inv_of_kept ?_; dsimp only; refine kept_of_inv ?_)

theorem execRtcCalendarWrap_inv (s : State) (hs : Safety.Keeps que s) : ∃ t, execRtcCalendarWrap s = .next t ∧ Safety.Keeps que t := by
  refine ⟨_, rfl, ?_⟩
  repeat' with_reducible first | assumption | apply State.calWrap_inv

theorem execBackupSwitchover_inv (s : State) (hs : Safety.Keeps que s) : ∃ t, execBackupSwitchover s = .next t ∧ Safety.Keeps que t := by
  refine ⟨_, rfl, ?_⟩; dsimp only
  repeat' with_reducible first | assumption | apply State.toCell_inv | (refine inv_of_kept ?_; dsimp only; refine kept_of_inv ?_)

theorem execCoinCellMeasure_inv (mv : BitVec 16) (s : State) (hs : Safety.Keeps que s) : ∃ t, execCoinCellMeasure mv s = .next t ∧ Safety.Keeps que t := by
  refine ⟨_, rfl, ?_⟩
  repeat' with_reducible first | assumption | apply State.coinCell_inv | (apply inv_ite <;> intros)

theorem execBackupBrownOut_inv (s : State) (hs : Safety.Keeps que s) : ∃ t, execBackupBrownOut s = .next t ∧ Safety.Keeps que t := by
  refine ⟨_, rfl, ?_⟩; dsimp only
  repeat' with_reducible first | assumption | (apply inv_ite <;> intros) | (refine inv_of_kept ?_; dsimp only; refine kept_of_inv ?_)

end Sys2Proof.Machine
end

