-- ==== Sys2Proof/Laws/InvSnap.lean ====
section
/-! SUPPORT. The invariant under what Machine/Snap.lean does. -/

namespace Sys2Proof.Machine
open Sys2Proof

variable {que : List Instr}

theorem execSnapshotArm_inv (r : Req) (instant : BitVec 64) (id : BitVec 32) (s : State) (hs : Safety.Keeps que s) : ∃ t, execSnapshotArm r instant id s = .next t ∧ Safety.Keeps que t := by
  refine ⟨_, rfl, ?_⟩; dsimp only
  repeat' with_reducible first | assumption | apply State.fset_inv | apply State.finc_inv | apply State.ans_inv | (apply State.serve_inv <;> intros <;> try dsimp only) | (apply inv_ite <;> intros) | (apply inv_ite_st <;> intros) | (refine inv_of_kept ?_; dsimp only; refine kept_of_inv ?_)

theorem execSnapshotStrobe_inv (late : Bool) (s : State) (hs : Safety.Keeps que s) : ∃ t, execSnapshotStrobe late s = .next t ∧ Safety.Keeps que t := by
  unfold execSnapshotStrobe; split
  · exact ⟨_, rfl, hs⟩
  refine ⟨_, rfl, ?_⟩
  repeat' with_reducible first | assumption | (refine inv_of_kept ?_; dsimp only; refine kept_of_inv ?_) | (refine inv_of_kept ?_; dsimp only; first | refine kept_fewer _ ?_ | refine kept_marks _ ?_ | refine kept_tick ?_) | split

theorem execSnapshotRecordComplete_inv (s : State) (hs : Safety.Keeps que s) : ∃ t, execSnapshotRecordComplete s = .next t ∧ Safety.Keeps que t := by
  unfold execSnapshotRecordComplete; split
  · exact ⟨_, rfl, hs⟩
  refine ⟨_, rfl, ?_⟩; dsimp only
  repeat' with_reducible first | assumption | apply State.wr_inv | apply State.fset_inv | apply State.finc_inv | (apply inv_foldl <;> intros) | (refine inv_of_kept ?_; dsimp only; refine kept_of_inv ?_) | (refine inv_of_kept ?_; dsimp only; first | refine kept_fewer _ ?_ | refine kept_marks _ ?_ | refine kept_tick ?_) | split

end Sys2Proof.Machine
end

