-- ==== Sys2Proof/Laws/InvUpd.lean ====
section
/-! SUPPORT. The invariant under what Machine/Upd.lean does. -/

namespace Sys2Proof.Machine
open Sys2Proof

variable {que : List Instr}

theorem execImageBegin_inv (r : Req) (kind : BitVec 8) (size : BitVec 32) (s : State) (hs : Safety.Keeps que s) : ∃ t, execImageBegin r kind size s = .next t ∧ Safety.Keeps que t := by
  refine ⟨_, rfl, ?_⟩
  repeat' with_reducible first | assumption | apply State.ans_inv | (apply State.serve_inv <;> intros <;> try dsimp only) | apply State.xferBegin_inv | (apply inv_ite_st <;> intros)

theorem execImageData_inv (r : Req) (offset : BitVec 32) (data : List Byte) (s : State) (hs : Safety.Keeps que s) : ∃ t, execImageData r offset data s = .next t ∧ Safety.Keeps que t := by
  refine ⟨_, rfl, ?_⟩
  repeat' with_reducible first | assumption | apply State.ans_inv | (apply State.serve_inv <;> intros <;> try dsimp only) | apply State.xferWrite_inv | (apply inv_ite_st <;> intros) | (refine inv_of_kept ?_; dsimp only; refine kept_of_inv ?_) | (refine inv_of_kept ?_; dsimp only; first | refine kept_fewer _ ?_ | refine kept_marks _ ?_ | refine kept_tick ?_) | split

theorem execImageCommit_inv (r : Req) (body : Option ImageBody) (s : State) (hs : Safety.Keeps que s) : ∃ t, execImageCommit r body s = .next t ∧ Safety.Keeps que t := by
  refine ⟨_, rfl, ?_⟩; dsimp only
  repeat' with_reducible first | assumption | apply State.ans_inv | (apply State.serveThen_inv <;> intros <;> try dsimp only) | apply State.imageReject_inv | apply State.imageTake_inv | (apply inv_ite_st <;> intros) | (refine inv_of_kept ?_; dsimp only; refine kept_of_inv ?_) | (refine inv_of_kept ?_; dsimp only; first | refine kept_fewer _ ?_ | refine kept_marks _ ?_ | refine kept_tick ?_) | split

theorem execUpdateConfirm_inv (r : Req) (s : State) (hs : Safety.Keeps que s) : ∃ t, execUpdateConfirm r s = .next t ∧ Safety.Keeps que t := by
  refine ⟨_, rfl, ?_⟩; dsimp only
  repeat' with_reducible first | assumption | apply State.event_inv | apply State.ans_inv | (apply State.serveThen_inv <;> intros <;> try dsimp only) | apply State.setSiphon_inv | apply State.confirmBank_inv | apply State.sipReset_inv | (apply inv_ite_st <;> intros) | (refine inv_of_kept ?_; dsimp only; refine kept_of_inv ?_)

theorem execSiphonHandoverTick_inv (s : State) (hs : Safety.Keeps que s) : ∃ t, execSiphonHandoverTick s = .next t ∧ Safety.Keeps que t := by
  unfold execSiphonHandoverTick; split
  · exact ⟨_, rfl, hs⟩
  refine ⟨_, rfl, ?_⟩
  repeat' with_reducible first | assumption | apply State.galReturn_inv | apply State.sipHandover_inv | apply State.settingsTake_inv | apply State.windowStart_inv | apply State.sipFallback_inv | apply State.sipLone_inv | (apply inv_ite <;> intros) | (refine inv_of_kept ?_; dsimp only; refine kept_of_inv ?_) | (refine inv_of_kept ?_; dsimp only; first | refine kept_fewer _ ?_ | refine kept_marks _ ?_ | refine kept_tick ?_) | split

theorem execSiphonT3Late_inv (s : State) (hs : Safety.Keeps que s) : ∃ t, execSiphonT3Late s = .next t ∧ Safety.Keeps que t := by
  unfold execSiphonT3Late; split
  · exact ⟨_, rfl, hs⟩
  refine ⟨_, rfl, ?_⟩
  repeat' with_reducible first | assumption | apply State.fallbackEvent_inv | apply State.sipFallback_inv | (apply inv_ite <;> intros)

theorem execUpdateConfirmWindowExpired_inv (s : State) (hs : Safety.Keeps que s) : ∃ t, execUpdateConfirmWindowExpired s = .next t ∧ Safety.Keeps que t := by
  unfold execUpdateConfirmWindowExpired; split
  · exact ⟨_, rfl, hs⟩
  refine ⟨_, rfl, ?_⟩
  repeat' with_reducible first | assumption | apply State.fallbackEvent_inv | (apply inv_ite <;> intros)

theorem execTransferAbandoned_inv (s : State) (hs : Safety.Keeps que s) : ∃ t, execTransferAbandoned s = .next t ∧ Safety.Keeps que t := by
  unfold execTransferAbandoned; split
  · exact ⟨_, rfl, hs⟩
  refine ⟨_, rfl, ?_⟩; dsimp only
  split
  · apply inv_ite <;> intros
    · assumption
    · refine inv_of_kept ?_; dsimp only; exact kept_of_inv hs
  · assumption

theorem execProgramImageStart_inv (s : State) (hs : Safety.Keeps que s) : ∃ t, execProgramImageStart s = .next t ∧ Safety.Keeps que t := by
  unfold execProgramImageStart; split
  · exact ⟨_, rfl, hs⟩
  refine ⟨_, rfl, ?_⟩
  repeat' with_reducible first | assumption | apply State.imageStart_inv | (apply inv_ite <;> intros) | (refine inv_of_kept ?_; dsimp only; refine kept_of_inv ?_) | (refine inv_of_kept ?_; dsimp only; first | refine kept_fewer _ ?_ | refine kept_marks _ ?_ | refine kept_tick ?_) | split

theorem execSettingsImageStart_inv (s : State) (hs : Safety.Keeps que s) : ∃ t, execSettingsImageStart s = .next t ∧ Safety.Keeps que t := by
  unfold execSettingsImageStart; split
  · exact ⟨_, rfl, hs⟩
  refine ⟨_, rfl, ?_⟩; dsimp only
  repeat' with_reducible first | assumption | apply State.settingsStart_inv | (apply inv_ite <;> intros) | (refine inv_of_kept ?_; dsimp only; refine kept_of_inv ?_) | (refine inv_of_kept ?_; dsimp only; first | refine kept_fewer _ ?_ | refine kept_marks _ ?_ | refine kept_tick ?_) | split

end Sys2Proof.Machine
end

