-- ==== Sys2Proof/Laws/Serve.lean ====
section
/-! SUPPORT. What serving a request comes to when a lane serves it, and what a write of a register comes to when it reaches it. -/

namespace Sys2Proof.Safety
open Sys2Proof Sys2Proof.Machine

/-- A session that has accepted a SEQ keeps its identity. -/
@[simp] theorem accepted_id (x : Session) (q n : Nat) : (x.accepted q n).id = x.id := by
  unfold Session.accepted Session.mark
  split <;> rfl

theorem find_map_id (l : List Session) (i : Nat) (x y : Session) (h : l.find? (fun z => z.id == i) = some x) (hy : y.id = x.id) :
    (l.map (fun z => if z.id == y.id then y else z)).find? (fun z => z.id == i) = some y := by
  have hx : x.id = i := by have := List.find?_some h; simpa using this
  induction l with
  | nil => simp at h
  | cons z l ih =>
    by_cases hz : z.id = i
    · simp [hz, hy, hx]
    · have h' : l.find? (fun z => z.id == i) = some x := by simpa [List.find?_cons, hz] using h
      simp [List.find?_cons, hz, hy, hx]
      simpa [hy, hx] using ih h'

/-- The accepting session is found again under its identity. -/
theorem took_session {s : State} {r : Req} {x : Session} (h : s.session? r.session.toNat = some x) {u : State}
    (hu : u.sessions = (took s r x).sessions) : u.session? (x.accepted r.seq.toNat s.now).id = some (x.accepted r.seq.toNat s.now) := by
  have hx : x.id = r.session.toNat := by have := List.find?_some h; simpa using this
  unfold State.session?
  rw [hu, accepted_id, hx]
  exact find_map_id s.sessions _ x _ h (accepted_id x _ _)

@[simp] theorem sendReply_regs (s : State) (t : Transport) (b : Bool) (id seq tag opcode : Nat) (body wire : List Byte) :
    (s.sendReply t b id seq tag opcode body wire).regs = s.regs := by
  unfold State.sendReply
  dsimp only
  split <;> rfl

/-- A request that a lane hears has come to the module and is no stranger to the doorbell. -/
theorem Heard.gate {s : State} {r : Req} {opcode : Nat} {x : Session} {l : Lane} (h : Heard s r opcode x l) :
    ¬((r.transport = .doorbell ∧ (!s.dbHolds r opcode) = true) ∨ (!s.reached r.transport) = true) := by
  rintro (⟨h1, h2⟩ | h2)
  · rw [h.ring h1] at h2
    cases h2
  · rw [h.reached] at h2
    cases h2

/-- A served request whose operation leaves the sessions alone is answered with what the operation gives. -/
theorem serve_of_served {s : State} {r : Req} {opcode want : Nat} {x : Session} {l : Lane} {run : State → Session → Lane → Answer}
    {u : State} {res : Res} {body : List Byte} (h : Served s r opcode want x l)
    (hr : run (took s r x) (x.accepted r.seq.toNat s.now) l = ⟨u, some (res, body)⟩) (hu : u.sessions = (took s r x).sessions) :
    s.serve r opcode want run = replied u s r x l opcode res body := by
  unfold State.serve State.serveThen
  rw [if_neg h.gate, h.session]
  dsimp only
  rw [h.lane]
  dsimp only
  rw [h.fresh, if_neg (by simp), if_neg (by have := h.seq; omega)]
  have hf := h.free
  unfold took at hf hr hu
  unfold State.runReq
  rw [hf]
  dsimp only
  rw [hr]
  unfold Answer.sendTo
  dsimp only
  rw [took_session h.session hu]
  dsimp only
  split <;> rfl

/-- The same for a request with a consequence `next` after its reply with OK. -/
theorem serveThen_of_served {s : State} {r : Req} {opcode want : Nat} {x : Session} {l : Lane} {run : State → Session → Lane → Answer}
    {next : State → State} {u : State} {body : List Byte} (h : Served s r opcode want x l)
    (hr : run (took s r x) (x.accepted r.seq.toNat s.now) l = ⟨u, some (.ok, body)⟩) (hu : u.sessions = (took s r x).sessions) :
    s.serveThen r opcode want run next = next (replied u s r x l opcode .ok body) := by
  unfold State.serveThen
  rw [if_neg h.gate, h.session]
  dsimp only
  rw [h.lane]
  dsimp only
  rw [h.fresh, if_neg (by simp), if_neg (by have := h.seq; omega)]
  have hf := h.free
  unfold took at hf hr hu
  unfold State.runReq
  rw [hf]
  dsimp only
  rw [hr]
  unfold Answer.sendTo
  dsimp only
  rw [took_session h.session hu]
  simp only [if_true]
  rfl

/-- A served request whose operation is not answered yet. -/
theorem serve_waits {s : State} {r : Req} {opcode want : Nat} {x : Session} {l : Lane} {run : State → Session → Lane → Answer}
    {u : State} (h : Served s r opcode want x l)
    (hr : run (took s r x) (x.accepted r.seq.toNat s.now) l = ⟨u, none⟩) : s.serve r opcode want run = u := by
  unfold State.serve State.serveThen
  rw [if_neg h.gate, h.session]
  dsimp only
  rw [h.lane]
  dsimp only
  rw [h.fresh, if_neg (by simp), if_neg (by have := h.seq; omega)]
  have hf := h.free
  unfold took at hf hr
  unfold State.runReq
  rw [hf]
  dsimp only
  rw [hr]
  rfl

@[simp] theorem setSession_regs (s : State) (x : Session) : (s.setSession x).regs = s.regs := rfl

@[simp] theorem took_regs (s : State) (r : Req) (x : Session) : (took s r x).regs = s.regs := rfl

theorem took_rd (s : State) (r : Req) (x : Session) (k : Nat) : (took s r x).rd k = s.rd k := rfl

theorem took_fget (s : State) (r : Req) (x : Session) (b : Nat) (f : Fld) : (took s r x).fget b f = s.fget b f := rfl

@[simp] theorem xferKeep_regs (s : State) : s.xferKeep.regs = s.regs := by
  unfold State.xferKeep
  split
  · split <;> rfl
  · rfl

@[simp] theorem replied_regs (u s : State) (r : Req) (x : Session) (l : Lane) (opcode : Nat) (res : Res) (body : List Byte) :
    (replied u s r x l opcode res body).regs = u.regs := by
  unfold replied State.replyTo
  dsimp only
  split
  · unfold State.dropSession
    rw [xferKeep_regs]
    exact sendReply_regs _ _ _ _ _ _ _ _ _
  · exact sendReply_regs _ _ _ _ _ _ _ _ _

/-- A write of one word that reaches its register does what the register does with it. -/
theorem writeReqWith_of_served {s : State} {r : Req} {a v : Nat} {ws : State → Lane → List Nat} {x : Session} {l : Lane} {u : State}
    (h : Served s r 0x12 (lenRegWrite 1) x l) (hw : Writable (took s r x) l a v) (hv : ws (took s r x) l = [v]) (ha : a % 4 = 0)
    (hc : cisTouched a 1 = false) (hf : isFlowWin a = false ∧ isRetWin a = false ∧ isCellWin a = false)
    (hd : (took s r x).regDo l a v = (u, .ok)) (hu : u.sessions = (took s r x).sessions) (hq : u.rd 0x11000 = 0) :
    s.writeReqWith r a 1 1 ws = replied u s r x l 0x12 .ok [] := by
  unfold State.writeReqWith
  have hword : (took s r x).writeWord l a v = (u, .ok) := by
    unfold State.writeWord
    rw [hw.place]
    simp [hw.own, hf.1, hf.2.1, hf.2.2, hw.allowed, hd]
  have hop : (took s r x).writeOp l a [v] = (u, .ok) := by
    unfold State.writeOp
    simp [State.writeWords, hword, hc]
  rw [serve_of_served (u := u) (res := .ok) (body := []) h ?_ hu]
  · unfold State.rstAfter
    rw [if_pos]
    rw [State.rd_regs u _ _ (replied_regs u s r x l _ _ _)]
    exact hq
  · dsimp only
    rw [if_neg (by omega), if_neg (by omega), hv, hop]
    rfl

end Sys2Proof.Safety
end

