-- ==== Sys2Proof/Tests/Slice0.lean ====
section
/-! SUPPORT. Tests: ill-formed commands, values worked out from the spec's tables and examples, and for each statement states and operands
that meet its hypotheses. -/

namespace Sys2Proof.Tests

-- one theorem at a time: each waits for the kernel, and waiting threads need memory
set_option Elab.async false
open Sys2Proof Sys2Proof.Machine Sys2Proof.Safety

/-! ### Small states -/

/-- An established session of gallery 0 and one of gallery 5. -/
def peer : Peer := ⟨0xFE800000000000000000000000000002, 39220⟩
def x0 : Session := ⟨1, 0, true, 60, 0, 0, 0, 0, .uplinkA peer, false, [], []⟩
def x5 : Session := ⟨2, 5, true, 60, 0, 0, 0, 0, .uplinkB peer, false, [], []⟩

/-- A request of session 1 with SEQ 1, tag 7 and a LENGTH. -/
def rq (len : Nat) : Req := ⟨1, 1, 7, BitVec.ofNat 16 len, .uplinkA peer⟩

/-- A lane of the headgate in a state. -/
def hgLane (x : LState) : LaneHg := { LaneHg.reset with state := x }

/-- Lane A in one state and lane B in another, in a mode, every domain out of reset, the switch forwarding with both uplinks up, two sessions open, lane A
granted galleries 0 and 5. -/
def run2 (m : Mode) (a b : LState) : State :=
  let s : State := { State.reset with
    mode := m, pwr := ⟨true, true, true, true, 5, .powerOn, 0, 0, 0, [], false, 0, false⟩, sessions := [x0, x5], usedIds := [1, 2],
    hg := { State.reset.hg with a := hgLane a, b := hgLane b, linkA := true, linkB := true } }
  let s := ((s.fset 0 SYS_DOMAINS_IN_RESET 0).setGrant 0 .a false false).setGrant 5 .a false false
  ((s.fset 0 ETH_STATUS_FW_LOADED 1).fset (ethB 65) ETH_PORT_STATUS_LINK_UP 1).fset (ethB 66) ETH_PORT_STATUS_LINK_UP 1

/-- PAIRED with lane A ACTIVE and lane B STANDBY. -/
def run : State := run2 .paired .active .standby

/-- WIDE with both lanes running. -/
def wide : State := run2 .wide .wideRun .wideRun

def Outcome.st : Host.Outcome State Fault Refusal → State
  | .next s => s
  | .fault f => nomatch f
  | .refused _ => State.reset

/-- The state after a command. -/
def after (c : Instr) (s : State) : State := Outcome.st (exec c s)

/-- What the newest reply says: its result. -/
def lastRes (s : State) : Option Nat :=
  match s.sent with
  | .reply _ _ _ _ _ _ (_ :: b :: c :: d :: _) _ :: _ => some ((b.toNat % 16) * 65536 + c.toNat * 256 + d.toNat)
  | _ => none

/-- The body of the newest reply after its STATUS. -/
def lastBody (s : State) : List Byte :=
  match s.sent with
  | .reply _ _ _ _ _ _ body _ :: _ => body.drop 4
  | _ => []

/-- `Served` as a check. -/
def servedB (s : State) (r : Req) (op want : Nat) (x : Session) (l : Lane) : Bool :=
  decide (r.transport ≠ .doorbell) && s.reached r.transport &&
  decide (s.session? r.session.toNat = some x) && decide (s.answering x.gallery = some l) && !x.replayed r.seq.toNat &&
  decide (r.seq.toNat < seqMax) && decide (x.replies + 1 < seqMax) &&
  decide ((took s r x).early (x.accepted r.seq.toNat s.now) r.tag.toNat op r.length.toNat want = none)

theorem served_of {s : State} {r : Req} {op want : Nat} {x : Session} {l : Lane} (h : servedB s r op want x l = true) :
    Served s r op want x l := by
  simp only [servedB, Bool.and_eq_true, decide_eq_true_eq, Bool.not_eq_true'] at h
  obtain ⟨⟨⟨⟨⟨⟨⟨h1, h2⟩, h3⟩, h4⟩, h5⟩, h6⟩, h7⟩, h8⟩ := h
  exact ⟨⟨fun h => absurd h h1, h2, h3, h4, h5, h7⟩, h6, h8⟩

/-- `Writable` as a check. -/
def writableB (s : State) (l : Lane) (a v : Nat) : Bool :=
  decide (s.regJudge l a = .ok) && !isAlias a && decide (s.regDeny l a v = none) && decide (s.rd 0x11000 = 0)

/-- `Writes` as a check: request `r` of session `x` writes the one word `v` at `a`. -/
def writesB (s : State) (r : Req) (x : Session) (l : Lane) (a v : Nat) : Bool :=
  servedB s r 0x12 12 x l && writableB (took s r x) l a v

theorem writes_of {s : State} {r : Req} {x : Session} {l : Lane} {a v : Nat} (h : writesB s r x l a v = true) : Writes s r x l a v := by
  simp only [writesB, writableB, Bool.and_eq_true, decide_eq_true_eq, Bool.not_eq_true'] at h
  exact ⟨served_of h.1, h.2.1.1.1, h.2.1.1.2, h.2.1.2, h.2.2⟩

/-- The same for a command that sets bits `v`. -/
def setsB (s : State) (r : Req) (x : Session) (l : Lane) (a v : Nat) : Bool := writesB s r x l a (s.cmdWord l a v)

theorem sets_of {s : State} {r : Req} {x : Session} {l : Lane} {a v : Nat} (h : setsB s r x l a v = true) : Sets s r x l a v := writes_of h

/-- `Inv` as a check. -/
theorem run_inv : Inv run := ⟨by decide +kernel, by decide +kernel, by decide +kernel, by decide +kernel, by decide +kernel⟩
/-! ### The hypotheses of the statements are met: the queue, sessions and registers -/

theorem wit_StepRunsFront : State.reset.pending = [] := rfl

theorem wit_StepKeepsInv : Inv run ∧ ∃ t, step run = .next t := ⟨run_inv, _, rfl⟩

theorem wit_CommandsGo : Inv run := run_inv

theorem wit_ReplayWindow : x0.replayed 0 = true ∧ (x0.mark 300).replayed 44 = true := by decide +kernel

/-- An event entry. -/
def ev (seq src gal : Nat) (marked : Bool) : EvEntry := ⟨seq, gal, src, false, marked, marked, 1, 0, 0⟩

/-- A full queue of entries of gallery 9, the first marked or not. -/
def fullEvents (m : Bool) : List EvEntry := ev 1 100 9 m :: (List.range 1023).map (fun i => ev (i + 2) 100 9 false)

theorem wit_EventQueue :
    (({ run with events := [ev 1 32 0 false] } : State).events.length < 1024 ∧
      ([ev 1 32 0 false].find? (fun e => e.source == 32 && e.gallery == 0 && !(e.ackOwner && e.ackOp))).isSome = true) ∧
    ((fullEvents false).tail.length < 1024 ∧
      (fullEvents false).tail.find? (fun e => e.source == 32 && e.gallery == 0 && !(e.ackOwner && e.ackOp)) = none) ∧
    ((fullEvents true).length = 1024 ∧ (32 : Nat) ≠ 508 ∧
      (fullEvents true).find? (fun e => e.source == 32 && e.gallery == 0 && !(e.ackOwner && e.ackOp)) = none ∧
      (fullEvents true).findIdx? (fun e => e.ackOwner && e.ackOp) = some 0) ∧
    ((fullEvents false).length = 1024 ∧
      (fullEvents false).find? (fun e => e.source == 32 && e.gallery == 0 && !(e.ackOwner && e.ackOp)) = none ∧
      (fullEvents false).findIdx? (fun e => e.ackOwner && e.ackOp) = none) := by decide +kernel

theorem wit_EventMarks : (ev 1 32 0 false).gallery = 0 ∧ (ev 1 32 63 false).gallery ≠ 0 ∧ (1 : Nat) ≠ 0 := by decide

theorem wit_RequestServed : Served run (rq 4) 4 4 x0 .a ∧
    (fun (u : State) (_ : Session) (_ : Lane) => u.ans .ok) (took run (rq 4) x0) (x0.accepted 1 0) .a = ⟨took run (rq 4) x0, some (.ok, [])⟩ :=
  ⟨served_of (by decide +kernel), rfl⟩

theorem wit_RequestDropped :
    run.reached (rq 0).transport = true ∧ run.pwr.refclkLost = false ∧ run.session? 3 = none ∧
    (let y := { x0 with h := 300, window := 1#256, replies := seqMax - 2 }
     let s : State := { run with sessions := [y] }
     s.session? (rq 0).session.toNat = some y ∧ s.answering y.gallery = some .a ∧ y.replayed (rq 0).seq.toNat = true ∧ y.replies + 1 < seqMax) := by
  decide +kernel

/-- `n` operations in flight of session `i`. -/
def inFlight (n i : Nat) : List Flight := (List.range n).map (fun k => ⟨i, k, 0x60, .uplinkA peer, false⟩)

theorem wit_RequestRefused :
    x0.closing = false ∧ ({ x0 with closing := true } : Session).closing = true ∧
    ((inFlight 256 1).filter (fun f => f.session == 1)).length = 256 ∧ (inFlight 2048 9).length = 2048 ∧
    ((inFlight 255 1).filter (fun f => f.session == 1)).length = 255 ∧
    (inFlight 255 1).any (fun f => f.session == 1 && f.tag == 254) = true ∧ (inFlight 255 1).any (fun f => f.session == 1 && f.tag == 255) = false ∧
    0 ∉ opcodes ∧ 0x91 ∉ opcodes ∧ 0x90 ∈ opcodes ∧ gallery0Only 0x90 = true ∧ x5.gallery ≠ 0 ∧ gallery0Only 0x20 = false ∧
    ({ x0 with established := false } : Session).established = false ∧ 2 ∈ opcodes ∧
    (let s : State := { run with flights := inFlight 256 1 }
     s.reached (rq 0).transport = true ∧ s.session? 1 = some x0 ∧ s.answering 0 = some .a ∧ x0.replayed 1 = false ∧ (1 : Nat) < seqMax ∧
      (took s (rq 0) x0).early (x0.accepted 1 s.now) 7 0x60 0 0 = some .busy) := by decide +kernel

theorem wit_AbortRules :
    servedB run (rq 4) 5 4 x0 .a = true ∧ x0.replies + 2 < seqMax ∧
    (let s : State := { run with flights := [⟨1, 8, 0x60, .uplinkA peer, true⟩, ⟨1, 9, 0x60, .uplinkA peer, false⟩] }
     servedB s (rq 4) 5 4 x0 .a = true ∧ (s.flights.find? (fun f => f.session == 1 && f.tag == 8)).isSome = true ∧
      (s.flights.find? (fun f => f.session == 1 && f.tag == 9)).map (fun f => f.started) = some false) := by decide +kernel

/-- A header alone with SECURE set and session 9, and one with a wrong MAGIC. -/
def strange : List Byte := packetHeader 0x40 9 1 0 4 0 ++ List.replicate 16 0
def badMagic : List Byte := 0 :: strange.tail

theorem wit_SessionsRun :
    (run.pwr.refclkLost = false ∧ run.reached (.uplinkA peer) = true ∧ run.arrived (.uplinkA peer) badMagic = some badMagic ∧
      packetMalformed badMagic = true ∧ packetMalformed strange = false ∧ packetSecure strange = true ∧ run.authentic strange = false) ∧
    (let s := run.fset 0 CAB_STATUS_DB_STATE dbBusy
     s.arrived .doorbell [] = some [] ∧ packetMalformed [] = true ∧ Transport.doorbell ≠ .uplinkA peer) ∧
    (let s := run.fset (keySlotB 64) KEY_SLOT_ATTR 0x40010004
     s.answering 0 = some .a ∧ s.openRefused 0 (.service peer) none = none) ∧
    (run.openRefused 64 (.service peer) none ≠ none ∧ run.answering 0 = some .a ∧ (19#16) ≠ 20) ∧
    ({ run with sessions := [{ x0 with established := false }] } : State).session? 1 = some { x0 with established := false } ∧
    run.session? 1 = some x0 ∧ x0.established = true ∧
    ([3] : List Nat).length < 0xFFFFFFFE ∧ 1 ≤ 0xFFFFFFFE ∧ (0xFFFFFFFE : Nat) ≤ 0xFFFFFFFE := by decide +kernel

theorem wit_SessionOperations :
    (let y := { x0 with established := false }
     servedB { run with sessions := [y] } (rq 4) 2 4 y .a = true ∧ y.established = false ∧ (10 : Nat) ≤ 3600) ∧
    (servedB run (rq 0) 3 0 x0 .a = true ∧ run.flights.all (fun f => f.session != x0.id) = true) ∧
    (let s : State := { run with flights := inFlight 1 1 }
     servedB s (rq 0) 3 0 x0 .a = true ∧ s.flights = [⟨1, 0, 0x60, .uplinkA peer, false⟩]) ∧
    servedB run (rq 0) 4 0 x0 .a = true ∧ servedB run (rq 0) 0x10 0 x0 .a = true ∧ (0x91#16).toNat ∉ opcodes ∧
    (let r : Req := { rq 0 with seq := 0xFFFFFFFFFFFFFFFF }
     r.seq.toNat = seqMax ∧ x0.replayed seqMax = false ∧ (took run r x0).early (x0.accepted seqMax 0) 7 4 0 0 = none) ∧
    (let s : State := { run with flights := inFlight 1 1 }
     (s.flights.find? (fun f => f.session == 1 && f.tag == 0)).isSome = true ∧ s.session? 1 = some x0 ∧ s.answering 0 = some .a ∧
      x0.closing = false ∧ x0.replies + 1 < seqMax) := by decide +kernel

theorem wit_EventOperations :
    servedB run (rq 8) 0x30 8 x0 .a = true ∧ 1 ≤ (64#8).toNat ∧ (64#8).toNat ≤ 64 ∧ 64 < (65#8).toNat ∧
    servedB run (rq 260) 0x31 (4 + 4 * (List.replicate 64 (1#32)).length) x0 .a = true ∧ (List.replicate 64 (1#32)).length ≤ 64 ∧
    (let s : State := { run with rates := [⟨504, 0, 0, 0, 1000000000, true, 3, 0, true⟩] }
     s.pwr.refclkLost = false ∧
     ∃ w, s.rates.find? (fun w => w.source == (504 : Fin 640).val && w.obj == 0) = some w ∧ w.counts = true ∧ (504 : Fin 640).val ≠ 508) := by
  refine ⟨by decide +kernel, by decide, by decide, by decide, by decide +kernel, by decide, rfl, ⟨_, rfl, rfl, by decide⟩⟩

theorem wit_RegisterAbsent :
    (0x2C % 4 = 0 ∧ isAlias 0x2C = false ∧ isFlowWin 0x2C = false ∧ isRetWin 0x2C = false ∧ isCellWin 0x2C = false ∧ run.rd 0x11000 = 0 ∧
      regRow? 0x2C = none ∧ cisTouched 0x2C 1 = false) ∧
    (regRow? 0xB0000 ≠ none ∧ (run.setInReset 4 true).regBlocked 0xB0000 = true ∧ cisTouched 0xB0000 1 = false) ∧
    (isAlias 0x3A0000 = true ∧ (run.setInReset 7 true).inReset Lane.b.dom.bit = true) ∧
    servedB (run.setInReset 4 true) (rq 12) 0x12 (lenRegWrite 1) x0 .a = true ∧ servedB run (rq 8) 0x11 8 x0 .a = true := by decide +kernel

theorem wit_AccessCodes : (regRow? 0x1000).isSome = true ∧ (regRow? 0x18000).isSome = true ∧ (31 : Nat) < 32 := by decide +kernel

theorem wit_RegisterOperations :
    (servedB run (rq 8) 0x11 8 x0 .a = true ∧ (0xFFFFFFFC#32).toNat % 4 = 0 ∧ 1 ≤ (256#16).toNat ∧ (256#16).toNat ≤ 256 ∧
      run.regJudge .a 0x1000 = .ok ∧ run.regOpen (regPlace .a 0x1000).1 (regPlace .a 0x1000).2 = false) ∧
    (servedB run (rq 12) 0x12 (lenRegWrite 1) x0 .a = true ∧ writableB (took run (rq 12) x0) .a 0x1000 3 = true ∧
      isFlowWin 0x1000 = false ∧ isRetWin 0x1000 = false ∧ isCellWin 0x1000 = false ∧ cisTouched 0x1000 1 = false ∧
      regKey .a 0x1000 ≠ 0x11000 ∧ (took run (rq 12) x0).regDo .a 0x1000 3 = ((took run (rq 12) x0).regSet .a 0x1000 3, .ok)) ∧
    (isAlias 0x3A0030 = true ∧ (took run (rq 12) x0).regJudge .a 0x3A0030 = .ok) ∧
    ((run.fset 0 MTR_SEAL 1).regDeny .a 0xA0A08 1 = some .state) ∧
    (let v := (took run (rq 12) x0).regRead .a 0x1000
     servedB run (rq 12) 0x13 12 x0 .a = true ∧ run.rd 0x11000 = 0 ∧ writableB v .a 0x1000 3 = true ∧
      (took run (rq 12) x0).regOpen .a 0x1000 = false ∧ v.regDo .a 0x1000 3 = (v.regSet .a 0x1000 3, .ok)) := by
  decide +kernel
/-! ### Power, ports and the allocator -/

/-- Main power valid and the AON domain out of reset, nothing further. -/
def t1 : State := { State.reset with pwr := { State.reset.pwr with mainPower := true, aonOut := true }, rtc := { State.reset.rtc with lost := false } }

theorem wit_PowerSequence :
    (State.reset.pwr.mainPower = false ∧ State.reset.pwr.aonOut = false ∧ ({ State.reset.rtc with lost := false } : RtcSt).lost = false) ∧
    (({ t1 with pwr := { t1.pwr with aonOut := false } } : State).pwr.mainPower = true) ∧
    (t1.pwr.aonOut = true ∧ t1.pwr.compared = false ∧ t1.pwr.refclkLost = false) ∧
    (let s : State := { t1.fset 0 CLK_STATUS_PLL_LOCK 1 with pwr := { t1.pwr with agreed := true } }
     s.pwr.agreed = true ∧ s.fbit 0 CLK_STATUS_PLL_LOCK = true ∧ s.pwr.step = 0) ∧
    (let s : State := { t1.fset 0 CLK_STATUS_PLL_LOCK 1 with pwr := { t1.pwr with agreed := true, step := 4, cause := .relock, refclkDue := true } }
     s.pwr.step = 4 ∧ s.pwr.cause = .relock ∧ s.pwr.refclkDue = true ∧ s.mode ≠ .safe ∧ s.mode ≠ .hold ∧ s.lstate .a = .reset) ∧
    ((releaseOrder 0).isSome = true ∧ (releaseOrder 3).isSome = true ∧ (run2 .boot .retired .reset).lstate .a ≠ .reset) ∧
    (t1.pwr.mainPower = true ∧ t1.pwr.step ≠ 5 ∧ ({ t1.pwr with step := 4 } : PowerSeq).step ≠ 5) := by decide +kernel

theorem wit_ClockMonitors :
    (let s : State := { run.fset 0 CLK_STATUS_PLL_LOCK 1 with pwr := { run.pwr with losses := [0] } }
     s.pwr.aonOut = true ∧ s.pwr.refclkLost = false ∧ s.fbit 0 CLK_STATUS_PLL_LOCK = true ∧
      (s.pwr.losses.filter (fun t => s.now < t + 60000000000)).length < 2) ∧
    (2 ≤ ({ run.pwr with losses := [0, 0] }.losses.filter (fun t => run.now < t + 60000000000)).length ∧ run.mode ≠ .safe ∧
      run.lstate .a ≠ .failed ∧ run.lstate .a ≠ .retired) ∧
    (run.pwr.aonOut = true ∧ run.pwr.refclkLost = false ∧ run.fbit 0 CLK_STATUS_PLL_LOCK = false ∧
      ({ run.pwr with fails := 1 } : PowerSeq).fails < 2 ∧ 2 ≤ ({ run.pwr with fails := 2 } : PowerSeq).fails) ∧
    ({ run.pwr with refclkLost := true } : PowerSeq).refclkLost = true := by decide +kernel

theorem wit_PowerEntry :
    run.pwr.refclkLost = false ∧
    (run.fset 0 ALLOC_ENTRY_STATUS_MATED 1).busClosed .a = true ∧ (run.fset 0 ALLOC_ENTRY_STATUS_MATED 1).busClosed .b = true ∧
    (run.fset 0 ALLOC_ENTRY_STATUS_B_PRESENT 1).busPresent .b = true ∧ (run.fset 0 ALLOC_ENTRY_STATUS_B_PRESENT 1).busPresent .a = false ∧
    ((run.fset 0 ALLOC_ENTRY_STATUS_B_PRESENT 1).fset 0 ALLOC_ENTRY_STATUS_A_PRESENT 1).busPresent .a = true ∧
    ((run.fset 0 ALLOC_FAN_STATUS_FAN_OK 8).fget 0 ALLOC_FAN_STATUS_FAN_OK).testBit (3 : Fin 4).val = true ∧
    (let s := (run.fset 0 ALLOC_FAN_STATUS_FAN_OK 15).fset 0 ALLOC_THERM_DERATE_PERCENT 100
     let n := deratePercent (toSigned 16 7000) 0
     n < s.fget 0 ALLOC_THERM_DERATE_PERCENT ∧ n < 100 ∧ s.alloc.derateRef = 100) := by decide +kernel

theorem wit_PowerFailure :
    run.inReset 1 = false ∧ run.fbit 0 ALLOC_ENTRY_STATUS_PFW = false ∧ (run.setInReset 1 true).inReset 1 = true ∧
    (let s := (run.fset 0 ALLOC_ENTRY_STATUS_PFW 1).fset 0 ALLOC_ENTRY_STATUS_A_PRESENT 1
     s.pwr.refclkLost = false ∧ s.fbit 0 ALLOC_ENTRY_STATUS_PFW = true ∧ (s.busPresent .a = true ∨ s.busPresent .b = true)) ∧
    ({ run.alloc with saving := true, riding := true } : AllocSt).saving = true ∧ ({ run.alloc with riding := true } : AllocSt).riding = true ∧
    2000 < (2001#16).toNat ∧
    (let s := run.setCyc .a { run.cyc .a with stage := { Staging.none with cycle := 1 } }
     s.runsCycles .a = true ∧ s.fbit 0 ALLOC_ENTRY_STATUS_PFW = false ∧ (s.cyc .a).stage.cycle ≠ s.fget (cycB .a) CYC_RETAIN_CYCLE) ∧
    run.pwr.aonOut = true ∧ run.mode ≠ .safe := by decide +kernel

/-- Port P64 ON, and asked for 5 W. -/
def on64 : State := (run.setBoth 63 stOn).fset (portB 63) PORT_POWER 5000

theorem wit_ShedOrder :
    on64.pst 63 .a ≠ stOff ∧ on64.pst 63 .a ≠ stSafeOff ∧ (on64.shedList ≠ []) ∧ ¬ ((1 : Nat) ≤ 0 ∧ 100 * 0 ≤ 95 * 0) := by decide +kernel

theorem wit_AllocatorTick :
    run.fbit 0 ALLOC_ENTRY_STATUS_PFW = false ∧ run.fbit 0 ALLOC_STATUS_DIP = false ∧ run.pwr.refclkLost = false ∧
    (run.portX 63).asked = none ∧ setsB run (rq 12) x0 .a 0x90130 1 = true ∧ ({ PortX.reset with asked := some 5 } : PortX).asked = some 5 ∧
    (on64.fset (portB 63) PORT_GRANT 1).allocDip.fget 0 ALLOC_STATUS_DIP ≤ 1 ∧
    run.seqRuns = true ∧ (run.setInReset 1 true).seqRuns = false ∧
    (run.fset 0 ALLOC_STATUS_DIP 1).fbit 0 ALLOC_STATUS_DIP = true ∧ (63 : PortNo) ≠ 0 := by decide +kernel

theorem wit_Sluice :
    (let s := (run.fset 0 SLU_CAP_C 0xFFFF).fset 0 SLU_BANK_VOLTAGE 32400
     0 < s.ePeak ∧ (run.fset 0 ALLOC_ENTRY_STATUS_PFW 1).fbit 0 ALLOC_ENTRY_STATUS_PFW = true) ∧
    (run.ePeak = 0 ∧ run.fbit 0 ALLOC_ENTRY_STATUS_PFW = false) ∧
    (run.fset 0 SLU_STATUS_RESERVE_OK 1).fbit 0 SLU_STATUS_RESERVE_OK = true ∧
    (let a := { run.alloc with config := true }
     a.everReserve = false ∧ a.noReserve = false ∧ a.config = true) ∧
    (100 * (max 1100 ((run.fset 0 SLU_CAP_C 1000).fget 0 SLU_CAP_C) - min 1100 ((run.fset 0 SLU_CAP_C 1000).fget 0 SLU_CAP_C)) ≤
      10 * (run.fset 0 SLU_CAP_C 1000).fget 0 SLU_CAP_C) ∧ within 3 1200 1201 = true ∧ run.pwr.refclkLost = false ∧
    ¬ (100 * (max 1200 1000 - min 1200 1000) ≤ 10 * 1000) ∧ (5501#16).toInt > 5500 ∧ run.fbit 0 SLU_STATUS_HOT = false ∧
    run.fbit 0 SLU_STATUS_CELL_FAULT = false ∧ run.alloc.cellVmax = none := by decide +kernel

theorem wit_PortPowerUp :
    (let s := run.setBoth 63 stDetect
     s.seqRuns = true ∧ s.pst 63 .a = stDetect ∧ s.pst 63 .b = stDetect ∧ (s.portX 63).backfeed = false ∧
      2800 ≤ (⟨2800, 0, 0⟩ : Signature).open_.toNat ∧ ¬ 2800 ≤ (⟨2799, 26500, 150000⟩ : Signature).open_.toNat) ∧
    (let s := (run.setBoth 63 stDetect).setPortX 63 { PortX.reset with sigA := true, sigB := true }
     s.pst 63 .a = stDetect ∧ s.pst 63 .b = stDetect ∧ (s.portX 63).sigA = true ∧ (s.portX 63).sigB = true) ∧
    (let s := (run.setBoth 63 stDetect).setPortX 63 { PortX.reset with sigA := true }
     (s.portX 63).sigA = true ∧ (s.portX 63).sigB = false) ∧
    (let s := (((run.fset (portB 63) PORT_STATUS_SIG 2).setPst 63 .a stDetect).setPst 63 .b stOn).setPortX 63 { PortX.reset with sigA := true }
     s.dual 63 = true ∧ s.pst 63 .a = stDetect ∧ s.pst 63 .b ≠ stDetect ∧ (s.portX 63).sigA = true) ∧
    (let s := run.setBoth 63 stClassify
     s.seqRuns = true ∧ s.dual 63 = false ∧ (8 : Fin 16).val ≤ 8 ∧ 8 < (9 : Fin 16).val ∧ s.pst 63 .a = stClassify ∧ s.pst 63 .b = stClassify ∧
      (s.portX 63).granted = false ∧ ((s.setPortX 63 { PortX.reset with granted := true }).portX 63).granted = true ∧
      (s.fset (portB 63) PORT_STATUS_SIG 2).dual 63 = true) ∧
    (let s := run.setBoth 63 stInrush
     s.seqRuns = true ∧ s.dual 63 = false ∧ s.pst 63 .a = stInrush ∧ (s.portX 63).lastOn ≠ some (0, 0, 0)) ∧
    (let s := on64.setPortX 63 { PortX.reset with autoReq := true }
     s.portOn 63 = true ∧ (s.portX 63).autoReq = true ∧ s.dual 63 = false) ∧
    (let s := run.setBoth 63 stBackoff
     s.pst 63 .b = stBackoff ∧ s.mode ≠ .safe ∧ s.recentFaults 63 < 5) ∧
    ((run.setBoth 63 stLockout).pst 63 .a = stLockout ∧ (run.setBoth 63 stPending).pst 63 .a = stPending ∧ run.pst 63 .a ≠ stLockout) ∧
    setsB run (rq 12) x0 .a (portB 63 + 0x34) 1 = true ∧
    (writesB on64 (rq 12) x0 .a (portB 63) 0 = true ∧ (0#32).getLsbD 0 = false ∧ on64.pst 63 .a ≠ stOff ∧ on64.pst 63 .a ≠ stSafeOff ∧
      on64.powered 63 = true) ∧
    (let s : State := { ((run.setBoth 63 stOff).fset (portB 63) PORT_STATUS_REQ 1).fset (portB 63) PORT_MCODE_STAGED 1 with
        alloc := { run.alloc with config := true } }
     writesB s (rq 12) x0 .a (portB 63) 1 = true ∧ (1#32).getLsbD 0 = true ∧ s.fbit (portB 63) PORT_STATUS_REQ = true ∧ s.alloc.config = true ∧
      s.mode ≠ .safe ∧ s.seqRuns = true ∧ s.fget (portB 63) PORT_MCODE_STAGED ≠ 0 ∧ s.pst 63 .a = stOff ∧ s.pst 63 .b = stOff) := by decide +kernel

theorem wit_PortRemoval :
    (on64.seqRuns = true ∧ on64.pst 63 .a = stOn ∧ on64.psPowered 63 .b = true) ∧ (on64.dual 63 = false ∧ (10 : Nat) ∈ [2, 3, 4, 5, 6, 10]) ∧
    (let s := on64.setPortX 63 { PortX.reset with faultEvent := true, clampA := true }
     (s.portX 63).faultEvent = true ∧ (s.portX 63).clampA = true ∧ (s.portX 63).clampB = false ∧ s.powered 63 = true) ∧
    (let x := { PortX.reset with faultEvent := true }
     x.faultEvent = true ∧ x.clampA = false ∧ x.clampB = false) := by decide +kernel

theorem wit_CableAndRamp :
    (on64.seqRuns = true ∧ on64.powered 63 = true ∧ (on64.portX 63).measuring = false) ∧
    (let s := on64.setPortX 63 { PortX.reset with measuring := true }
     (s.portX 63).measuring = true ∧ s.loopResult 63 ⟨0, 0, 0, 0⟩ ⟨0, 0, 0, 0⟩ ⟨0, 0, 0, 0⟩ = none ∧
      ((s.fset (portB 63) PORT_POWER 21200).loopResult 63 ⟨53000, 53000, 200000, 200000⟩ ⟨52000, 53000, 152063, 252063⟩
        ⟨53000, 52000, 252063, 152063⟩).isSome = true) ∧
    2 ≤ ({ PortX.reset with badRun := 2 } : PortX).badRun ∧ setsB on64 (rq 12) x0 .a (portB 63 + 0x34) 2 = true ∧
    (let s := on64.fset (portB 63) PORT_GRANT 60000
     s.portOn 63 = true ∧ 5000 ≤ s.fget (portB 63) PORT_POWER - s.fget (portB 63) PORT_PD_END_CABLE_LOSS ∧
      s.fbit (portB 63) PORT_STATUS_LIMIT = false ∧ s.fbit (portB 63) PORT_STATUS_WEIR_LIMIT = false ∧
      100 * s.fget (portB 63) PORT_POWER < 95 * s.fget (portB 63) PORT_GRANT ∧ s.fbit 0 ALLOC_ENTRY_STATUS_PFW = false) ∧
    ¬ (100 * on64.fget (portB 63) PORT_POWER < 95 * on64.fget (portB 63) PORT_GRANT) := by decide +kernel

/-! ### The luminaire link and the switch -/

/-- Port P01 ON, its device in a state of lane A's link, its MAC 1. -/
def lum1 (d : Nat) : State := ((run.setBoth 0 stOn).setDstate .a 0 d).fset (lumP .a 0) LUM_PORT_MAC_LO 1

theorem wit_LuminaireLink :
    (let s := lum1 dsWaitHello
     s.lumLane 0 = some .a ∧ s.lumLive .a = true ∧ s.ethReady = true ∧ s.portOn 0 = true ∧ 1 ≤ (4#8).toNat ∧ (4#8).toNat ≤ 4 ∧ s.dstate .a 0 ≠ dsNone ∧
      s.dstate .a 0 = dsWaitHello ∧ s.lumMac .a 0 ≠ 0 ∧ s.lumMac .a 0 ≠ (2#48).toNat ∧ s.lumMac .a 0 = (1#48).toNat) ∧
    ((lum1 dsWaitHello).fset (laneKey .a 0) LUM_CTRL_EN 1).lumMay .a = true ∧ (lum1 dsWaitHello |>.fset (laneKey .a 0) LUM_CTRL_EN 0).lumMay .a = false ∧
    (let s := (lum1 dsConfig).setLum .a { LumSt.reset with todo := [(0, 8)] }
     s.lumLane 0 = some .a ∧ s.lumLive .a = true ∧ s.portOn 0 = true ∧ s.lumMac .a 0 = (1#48).toNat ∧ s.dstate .a 0 = dsConfig ∧
      nat0 (s.lum .a).todo 0 = 2 ^ (3 : Fin 4).val) ∧
    (run.mode ≠ .hold ∧ (run2 .hold .held .held).mode = .hold ∧ run.lumLive .b = false) ∧
    (let s := lum1 dsLost
     s.lumLane 0 = some .a ∧ s.lumLive .a = true ∧ s.portOn 0 = true ∧ s.lumMac .a 0 = (1#48).toNat ∧ s.dstate .a 0 ≠ dsNone ∧
      nat0 (s.lum .a).sent 0 = 0 ∧ (s.cyc .a).n % (s.lum .a).div = 0 ∧ (s.setCyc .a { s.cyc .a with n := 3 } |>.cyc .a).n % 10 ≠ 0) ∧
    (let s := ((lum1 dsLost).setLum .a { LumSt.reset with sent := [(0, 1)] }).fset (laneKey .a 0) LUM_EPOCH 1
     nat0 (s.lum .a).sent 0 = [(⟨0, 0, 0, 0, 0⟩ : LumStatus)].length ∧ nat0 (s.lum .a).sent 0 ≠ 0 ∧
      (0x100000000#64).toNat = s.fget (laneKey .a 0) LUM_EPOCH * 0x100000000 + s.fget (laneKey .a 0) LUM_COUNT ∧
      (0#16).toNat = s.fget (laneKey .a 0) LUM_COUNT % 0x10000) ∧
    (let s := (lum1 dsConfig).fset (lumP .a 0) LUM_PORT_STATE_ACCEPT 4
     writesB s (rq 12) x0 .a 0x1B003C (0xFFFF * 0x10000 + 3) = true ∧ (3#8).toNat % 4 < s.accept .a 0 ∧ s.dstate .a 0 = dsConfig) := by decide +kernel

theorem wit_LightCycle : 1 ≤ 10000 ∧ (5000 ≤ max 20 1 * 250 ∧ max 20 1 * 250 ≤ 1000000) ∧ max 0 1 * 4999 < 5000 ∧ 1000000 < max 101 1 * 10000 := by
  decide

/-- A good broadcast frame of `n` bytes, FCS included: untagged, or with VLAN tag `v`. -/
def fr (n : Nat) : Frame := ⟨List.replicate 6 0xFF ++ [2, 0, 0, 0, 0, 2] ++ List.replicate (n - 16) 0, false, false⟩
def frTag (n v : Nat) : List Byte := List.replicate 6 0xFF ++ [2, 0, 0, 0, 0, 2] ++ beBytes 2 0x8100 ++ beBytes 2 v ++ List.replicate (n - 20) 0

/-- Nothing was seen by the PHY. -/
def quietPhy : PhySeen := ⟨0, false, 0⟩

/-- Ports 1, 2 and the uplinks enabled with their links up, in gallery 0 with live VID 10. -/
def sw (s : State) : State := ([1, 2, 65, 66].foldl (fun s k => (s.fset (ethB k) ETH_PORT_STATUS_LINK_UP 1).fset (ethB k) ETH_PORT_CTRL_EN 1)
  ((s.fset (galB 0) HG_GAL_LIVE_EN 1).fset (galB 0) HG_GAL_LIVE_VID 10))

theorem wit_VlanIsolation :
    (∃ v, (sw run).frameVid 1 (fr 64).bytes = some v ∧ 2 ∈ (sw run).egress 1 v (fr 64).bytes) ∧
    (∃ v, ((sw run).fset 0 ETH_UPLA_MEMBER_LO 1).frameVid 65 (frTag 64 10) = some v ∧
      1 ∈ ((sw run).fset 0 ETH_UPLA_MEMBER_LO 1).egress 65 v (fr 64).bytes) ∧
    isJack 64 = true ∧ isJack 65 = false ∧ isUplink 66 = true ∧ isUplink 67 = false := by
  refine ⟨⟨10, by decide +kernel, by decide +kernel⟩, ⟨10, by decide +kernel, by decide +kernel⟩, by decide, by decide, by decide, by decide⟩

theorem wit_SwitchFrames :
    (let s := sw run
     s.ethReady = true ∧ s.ethLink (ethK 0) = true ∧ s.fbit (ethB (ethK 0)) ETH_PORT_CTRL_EN = true ∧
      s.mtu (ethK 0) < (fr (s.mtu (ethK 0) + 1)).bytes.length + 4 ∧ (fr (s.mtu (ethK 0))).bytes.length + 4 ≤ s.mtu (ethK 0) ∧
      (fr 63).bytes.length + 4 < 64 ∧ 64 ≤ (fr 64).bytes.length + 4 ∧ isUplink (ethK 65) = true ∧ s.ethLink (ethK 65) = true ∧ isExternal (ethK 65) = true ∧
      s.ethUp = true ∧ State.reset.ethReady = false ∧ frameKind (untag (frTag 64 10)) = .plain ∧
      frameKind (untag (List.replicate 12 0 ++ beBytes 2 0x88F7 ++ List.replicate 46 0)) = .ptpEvent) ∧
    (let s := (sw run).fset (ethB 66) ETH_PORT_CTRL_RX_PAUSE_EN 1
     (s.cnt (ethK 65) 5 1).fbit (ethB (ethK 65)) ETH_PORT_CTRL_RX_PAUSE_EN = true ∧
      (run.fset (ethB 66) ETH_PORT_CTRL_RX_PAUSE_EN 0).fbit (ethB (ethK 65)) ETH_PORT_CTRL_RX_PAUSE_EN = false) ∧
    (let s := ((sw run).fset (ethB 1) ETH_PORT_STATUS_PAUSING 1).fset (ethB 1) ETH_PORT_CTRL_TX_PAUSE_EN 1
     let q : EthQ := ⟨0, 1, 2, 3, (fr 1024).bytes, false, 4, false⟩
     let t : State := { (s.fset (ethB 1) ETH_PORT_FLOW_LOW 0) with eth := { s.eth with queue := [q] } }
     s.fbit (ethB (ethK 0)) ETH_PORT_STATUS_PAUSING = true ∧ s.ingressUse (ethK 0) ≤ 1024 * s.fget (ethB (ethK 0)) ETH_PORT_FLOW_LOW ∧
      t.ethUp = true ∧ t.fbit (ethB (ethK 0)) ETH_PORT_CTRL_TX_PAUSE_EN = true ∧ t.fbit (ethB (ethK 0)) ETH_PORT_STATUS_PAUSING = true ∧
      1024 * t.fget (ethB (ethK 0)) ETH_PORT_FLOW_LOW < t.ingressUse (ethK 0) ∧ t.eth.queue = q :: [] ∧ q.egr = ethK 1 ∧ q.queue = (3 : Fin 4).val) ∧
    setsB run (rq 12) x0 .a (ethB (ethK 67) + 0x30) 1 = true := by decide +kernel

theorem wit_SwitchLinks :
    (let s := run.fset (ethB 1) ETH_PORT_CTRL_EN 1
     s.inReset 2 = false ∧ s.pwr.refclkLost = false ∧ isExternal (ethK 0) = true ∧ s.linkMay (ethK 0) (3#3).toNat = true ∧
      isJack (ethK 0) = true ∧ s.linkMay (ethK 0) (7#3).toNat = false) ∧
    (let s := ((run.fset (ethB 66) ETH_PORT_STATUS_LINK_UP 0).fset (ethB 66) ETH_PORT_CTRL_EN 1).fset 0 ETH_CAGE_A_CODE 0
     let u := (s.fset 0 (cageF .b ETH_CAGE_A_PRESENT) 1).setCage .b ⟨true, false, 0⟩ |>.fset 0 (cageF .b ETH_CAGE_A_POWERED) 1
     isUplink (ethK 65) = true ∧ u.linkMay (ethK 65) (4#3).toNat = true) ∧
    ((sw run).fbit (ethB (ethK 65)) ETH_PORT_STATUS_LINK_UP = true ∧ ((sw run).ethX (ethK 65)).changing = none) ∧
    (let s := ((((sw run).fset 0 ETH_CTRL_RATE_EN 1).fset (ethB 1) ETH_PORT_CTRL_AUTO_RATE_EN 1).fset (ethB 1) ETH_PORT_STATUS_SPEED 3).setEthX 1
       { EthX.reset with quiet := 60 }
     s.ethUp = true ∧ s.rateEnabled 1 = true ∧ s.fbit (ethB 1) ETH_PORT_STATUS_LINK_UP = true ∧
      s.fget (ethB 1) ETH_PORT_STATUS_SPEED = 3 ∧ (s.ethX 1).changing = none ∧ (s.ethX 1).barred = false ∧
      (s.fset 0 ETH_RATE_WINDOW_START (s.fget 0 ETH_RATE_WINDOW_END)).rateWindow = true ∧ 60 ≤ (s.ethX 1).quiet ∧ s.rateBusy 1 = false ∧
      (s.ethX 1).raisedAt = none) ∧
    (let s := ((sw run).fset (ethB 1) ETH_PORT_STATUS_LOWERED 1).setEthX 1 { EthX.reset with rxLast := 10000000 }
     s.fbit (ethB 1) ETH_PORT_STATUS_LOWERED = true ∧ (s.ethX 1).changing = none ∧ s.rateBusy 1 = true ∧
      setsB s (rq 12) x0 .a (ethB 1 + 4) 2 = true ∧ setsB s (rq 12) x0 .a (ethB 1 + 4) 1 = true) ∧
    (let s := run.setEthX 64 { EthX.reset with changing := some 3 }
     (s.ethX 64).changing = some 3 ∧ ((run.setEthX 1 { EthX.reset with changing := some 2 }).ethX 1).changing = some 2 ∧ on64.portOn 63 = true ∧
      (run.fset 0 ETH_CTRL_RATE_EN 0).rateEnabled 1 = false) ∧
    ((sw run).ethReady = true ∧ (sw run).ethLink (uplinkK .b) = true ∧ (1000#12) ≠ 0) ∧
    (writesB run (rq 12) x0 .a 0x100010 0x1001 = true ∧ (sw run).galEn 0 = true ∧
      (sw run).fget (galB 0) HG_GAL_LIVE_VID = (10#32).toNat % 0x1000 ∧ (took (sw run) (rq 12) x0).regJudge .a 0x100010 = .ok) ∧
    (run.fset 0 (cageF .b ETH_CAGE_A_PRESENT) 1).fbit 0 (cageF .b ETH_CAGE_A_PRESENT) = true ∧
    run.fbit 0 (cageF .b ETH_CAGE_A_PRESENT) = false := by decide +kernel

/-- gPTP in a state. -/
def ptp (n : Nat) : State := run.fset 0 ETH_PTP_STATUS_STATE n

/-- A grandmaster of the best priority. -/
def best : Announce := ⟨0, 6, 0x20, 0, 0, 0x0011223344556677, 1⟩

theorem wit_GptpStates :
    (ptp 1).ethUp = true ∧ (ptp 1).ptpState = ptpListening ∧ ((ptp 1).fset 0 ETH_PTP_CTRL_PRIORITY1 255).fget 0 ETH_PTP_CTRL_PRIORITY1 = 255 ∧
    ((ptp 1).fset 0 ETH_PTP_CTRL_PRIORITY1 254).fget 0 ETH_PTP_CTRL_PRIORITY1 ≠ 255 ∧ (ptp 5).ptpState = ptpGrandmaster ∧
    (ptp 2).ptpState = ptpSyncing ∧ (ptp 3).ptpState = ptpLocked ∧ (ptp 4).ptpState = ptpHoldover ∧ (ptp 0).ptpState = ptpDisabled ∧
    ((ptp 5).fset 0 ETH_PTP_CTRL_PRIORITY1 246).ptpBetter best = true ∧ ((ptp 5).fset 0 ETH_PTP_CTRL_PRIORITY1 246).ptpBetter { best with priority1 := 255 } = false ∧
    -100000000 < (ptp 2).eth.rate ∧ writesB (ptp 0) (rq 12) x0 .a 0x100040 0x80000000 = true ∧ writesB (ptp 3) (rq 12) x0 .a 0x100040 0 = true := by
  decide +kernel
/-! ### Cycles, loops and metering -/

/-- Lane A in a phase of cycle 4 while tick 5 is the newest. -/
def inPhase (p : CycPhase) : State := { run.setCyc .a { CycSt.reset with phase := p, n := 4 } with tickNo := 5, now := 2001 }

/-- A defined entry: an output of task 0 bound to DQ, of type 2. -/
def dq : PointEnt := ⟨2, 1, .prog, 0, 0, false, false, true, 0, none⟩

/-- Task 0 of gallery 0 every second cycle, in phase 1, on cell 0, whose code ends at 0x2000; task 1 in every cycle. -/
def tk0 : TaskDesc := ⟨0, 0, 2000000, 1, 5, 0, 0, []⟩
def tk1 : TaskDesc := ⟨1, 0, 1000000, 0, 3, 0, 0, []⟩
def pt0 : PartDesc := ⟨0, 0, 0x2000, 0x100, 0x1000, none, 1000, [], [], []⟩
def img0 : ProgImage := ⟨7, false, 1000, 618, 0, 0, [], [], [], [tk0, tk1], [pt0], [⟨0, 2, []⟩], [], [], [], []⟩
def prog : State := { run with image := some img0 }
def px : ProgCtx := ⟨.a, tk0, pt0, ⟨0, 0, 0, 0, 0x2000, true⟩, 5, 0, false, false, 0⟩
def atStack (st : List Sys2Proof.Machine.Val) : Run := { Run.start with stack := st }

theorem wit_CycleTick :
    (run.inReset 1 = false ∧ run.pwr.refclkLost = false) ∧ (run.setInReset 1 true).inReset 1 = true ∧ run.ptpOk = false ∧
    ({ run.pwr with refclkLost := true } : PowerSeq).refclkLost = true ∧ ((run.setPoint 8191 dq).point 8191).ptype ≠ 0 ∧
    writesB run (rq 12) x0 .a 0x1A0030 2 = true ∧ writesB run (rq 12) x0 .a 0x1A0030 0 = true ∧ setsB run (rq 12) x0 .a 0x1A0030 1 = true := by
  decide +kernel

theorem wit_CyclePhases :
    ((inPhase .waiting).runsCycles .a = true ∧ ((inPhase .waiting).cyc .a).phase = .waiting ∧ (inPhase .waiting).nextCycle .a = some (5, 0)) ∧
    ((inPhase .computing).cyc .a).phase = .computing ∧ ((inPhase .done).cyc .a).phase = .done ∧
    ((inPhase .committing).cyc .a).phase = .committing ∧ ((inPhase .released).cyc .a).phase = .released ∧
    ((({ CycSt.reset with overrun := true } : CycSt).overrun = true) ∧ (∀ w ∈ run.rates, w.is 512 0 = true → w.isOpen run.now = false)) ∧
    (let s : State := { (inPhase .waiting).setPoint 9 { dq with ptype := 3 } with tickLog := [⟨5, 0, 0, [⟨3, 9, 77⟩], []⟩] }
     (s.tickRec 5).forces = [⟨3, 9, 77⟩] ∧ (s.point 9).ptype = 3) ∧
    (∀ p ∈ [CycPhase.committing, .released], let s := inPhase p
     s.runsCycles .a = true ∧ cyclesAfter s.tickNo (s.cyc .a).n ≠ 0 ∧ (s.cyc .a).overrun = false ∧ (s.cyc .a).phase ≠ .waiting ∧
      (s.cyc .a).phase ≠ .stopped) ∧
    (run.fbit (cycB .a) CYC_STATUS_RETAIN_LAG = false ∧
      (run.fset (cycB .a) CYC_STATUS_RETAIN_LAG 1).fbit (cycB .a) CYC_STATUS_RETAIN_LAG = true) ∧
    (prog.dueTasks .a img0 5 = [tk1, tk0] ∧ prog.dueTasks .a img0 4 = [tk1]) ∧
    ((run.point 8191).ptype = 0 ∧ (let s := run.setPoint 8191 dq
      (s.point 8191).ptype ≠ 0 ∧ s.slotEmpty .a (s.point 8191) = false ∧ s.taskOwner (s.point 8191).task = s.pointOwner 8191 ∧
      s.granted .a (s.pointOwner 8191) = true ∧ s.granted .b (s.pointOwner 8191) = false ∧
      (s.fset 0x13C00 HG_OWN_TASK_OWNER 9).taskOwner 0 ≠ (s.setPoint 8191 { dq with bind := .port 3 }).pointOwner 8191)) ∧
    (tyReal (3#4).toNat = false ∧ tyInt (3#4).toNat 0 = 0 ∧ (atStack [.num 0, .num 5]).stack = .num 0 :: .num 5 :: []) ∧
    (arrayAt [(1, 10)] [11] = none ∧ takeIndices 1 (atStack [.num 11]).stack [] = some ([11], []) ∧ 16 * 4 ≤ 64 ∧ 63 < 16 * 4) ∧
    (tyInt (3#4).toNat 200 = 200 ∧ px.at_.base + (0#17).toNat = prog.codeEnd 0 ∧ (0x1E000 : Nat) + 0xFFF + 2 > 0x1F000 ∧
      ({ px with at_ := ⟨0, 0, 0, 0, 0x1FFF, true⟩ } : ProgCtx).at_.base + (0#17).toNat < prog.codeEnd 0) := by decide +kernel

/-- A law with gain 2, integral time 1, limits 0 and 10, and the fractions it needs. -/
def par : LoopPar := ⟨⟨2, 1⟩, ⟨1, 1⟩, Frac.zero, Frac.zero, ⟨10, 1⟩, ⟨3, 1⟩, Frac.zero, ⟨1, 2⟩⟩
def one : Frac := ⟨1, 1⟩

theorem wit_ControlLaw :
    (0 < par.umin.den ∧ 0 < par.umax.den ∧ 0 < par.rate.den ∧ 0 < one.den ∧ 0 < one.num ∧ par.umax.lt par.umin = false ∧
      (loopLaw par true one one one one one Frac.zero Frac.zero (loopPreset par one one one Frac.zero one)).isSome = true ∧
      0 < par.rate.num ∧ ({ par with rate := Frac.zero } : LoopPar).rate.num ≤ 0) ∧
    (∀ x ∈ [par.kp, par.ti, par.td, par.umin, par.umax, par.rate, par.tlead, par.tlag, one, one, one, one, one, one, ⟨10, 1⟩], 0 < x.den) ∧
    0 ≤ par.td.num ∧ 0 ≤ par.tlag.num ∧ par.umin.le ⟨10, 1⟩ = true ∧ Frac.le ⟨10, 1⟩ par.umax = true := by decide +kernel

/-- Slot 1023 of lane A switched on, with a computation under way. -/
def slot1023 : State :=
  let s := run.fset (loopD .a 1023) LOOP_CFG_EN 1
  s.setLoopX .a 1023 { s.loopX .a 1023 with job := some ⟨3, 0, 0, 0x3F800000, 1, 2, 0, 0, 0, 0, 0, true, none⟩ }

theorem wit_LoopEngine :
    (run.runsCycles .a = true ∧ run.procRuns .a = true ∧ run.runsCycles .b = false ∧ run.procRuns .b = true ∧
      1023 ∈ slot1023.loopSlots .a ∧ slot1023.loopDue .a 1023 0 0 = true ∧ (slot1023.loopX .a 1023).job.isSome = true ∧
      (run.loopX .a 1023).job = none ∧ (run.fget (loopC .a) LOOP_CTRL_DP_OK).testBit 3 = true ∧
      (slot1023.fget (loopD .a 1023) LOOP_DST_KIND = 0) ∧
      (4 ≤ (run.fset (loopD .a 1023) LOOP_DST_KIND 4).fget (loopD .a 1023) LOOP_DST_KIND) ∧
      ((run.fset (loopC .a) LOOP_CTRL_DP_OK 7).fget (loopC .a) LOOP_CTRL_DP_OK).testBit 3 = false) ∧
    (let s := run.fset (loopS .a 1023) LOOPS_STAT_STATE lsAuto
     servedB s (rq 12) 0x80 12 x0 .a = true ∧ (0x00#8).toNat % 16 ≠ 15 ∧
      (took s (rq 12) x0).testCheck ((took s (rq 12) x0).loopHome 1023 .a) 1023 false 0 0 0xF0 0x3F800000 0 = .ok ∧
      (took s (rq 12) x0).testCheck ((took s (rq 12) x0).loopHome 1022 .a) 1022 false 0 0 0xF0 0x3F800000 0 ≠ .ok ∧
      (took s (rq 12) x0).testCheck ((took s (rq 12) x0).loopHome 1023 .a) 1023 true 0 15 0 0 0 = .ok) ∧
    ((let s := run.setLoopX .a 1023 { run.loopX .a 1023 with test := some ⟨0, 0xF0, 0, 0, 0, true, 0, 1, 0⟩ }
      (s.loopX .a 1023).test.isSome = true)) ∧
    (servedB run (rq 8) 0x81 8 x0 .a = true ∧ (3#8).toNat ≤ 3 ∧ (256#16).toNat ≤ 256 ∧ (16128#16).toNat + (256#16).toNat ≤ 16384 ∧
      16384 < (16129#16).toNat + (256#16).toNat ∧ 3 < (4#8).toNat ∧ (0#16).toNat < 1) ∧
    (setsB run (rq 12) x0 .a (0x18010C + 0x10 * 3) 1 = true ∧ run.fget (capB .a 3) LOOP_CAP_STATUS_STATE = 0 ∧
      (run.fset (capB .a 3) LOOP_CAP_STATUS_STATE 2).fget (capB .a 3) LOOP_CAP_STATUS_STATE = 2) ∧
    setsB run (rq 12) x0 .a 0x180000 2 = true := by decide +kernel

theorem wit_EnergyCredit :
    (4 : Nat) < 5 ∧ (63 : Nat) < 64 ∧ (0 : Nat) < 1 ∧ run.pwr.refclkLost = false ∧
    ({ run.pwr with refclkLost := true } : PowerSeq).refclkLost = true := by decide +kernel

/-- The METER domain with its firmware. -/
def mtr : State := run.fset 0 MTR_STATUS_FW_LOADED 1

theorem wit_MeteringEvents :
    (mtr.mtrRuns = true ∧ run.mtrRuns = false ∧ (mtr.dom .meter).phase = .idle ∧ mtr.latchDue = false ∧ mtr.mtr.got = none ∧
      ({ mtr with mtr := { mtr.mtr with cycles := 4096 } } : State).latchDue = true ∧
      ((mtr.setDom .meter { DomRst.idle with phase := .quiescing }).dom .meter).phase ≠ .idle) ∧
    (∃ w up n, ({ mtr with mtr := { mtr.mtr with got := some ([], 5, 6) } } : State).mtr.got = some (w, up, n)) ∧
    (let s : State := { mtr with pulses := [(7, { PulseX.reset with sched := [0] })] }
     s.inReset Dom.meter.bit = false ∧ (s.pulse 7).sched = 0 :: [] ∧ 0 ≤ s.now ∧ (s.pulse 7).on = false ∧ (s.pulse 7).offUntil ≤ s.now) ∧
    (let s : State := { mtr with energy := { mtr.energy with pend := [(7, 65535)] } }
     (s.pulse 7).sched = [] ∧ 0 < mNat s.energy.pend 7 ∧ mNat s.energy.pend 7 ≤ 65535 ∧ mNat mtr.energy.pend 7 = 0) ∧
    (({ mtr with pulses := [(7, { PulseX.reset with on := true })] } : State).pulse 7).on = true ∧ (mtr.pulse 7).on = false ∧
    (mtr.setInReset Dom.meter.bit true).inReset Dom.meter.bit = true ∧ mtr.alloc.saving = false ∧ mtr.pwr.refclkLost = false ∧
    ({ mtr.alloc with saving := true } : AllocSt).saving = true ∧
    (servedB mtr (rq 4) 0x70 4 x0 .a = true ∧ (48#16).toNat ≤ 48 ∧ x0.gallery = 0 ∧ mtr.fbit 0 MTR_STATUS_FW_LOADED = true ∧
      mtr.inReset Dom.meter.bit = false ∧ 0x200 ≤ (0x23F#16).toNat ∧ (0x23F#16).toNat ≤ 0x23F ∧ 0x101 ≤ (0x140#16).toNat ∧
      (0x140#16).toNat ≤ 0x140 ∧ run.fbit 0 MTR_STATUS_FW_LOADED = false ∧ servedB run (rq 4) 0x70 4 x0 .a = true ∧
      servedB (mtr.setInReset Dom.meter.bit true) (rq 4) 0x70 4 x0 .a = true ∧ 0x30 < (0x31#16).toNat ∧ 0x140 < (0x141#16).toNat) ∧
    (let r : Req := { rq 4 with session := 2, transport := .uplinkB peer }
     servedB mtr r 0x70 4 x5 .a = true ∧ x5.gallery ≠ 0 ∧ mtr.inputOwner ((48#16).toNat - 1) ≠ x5.gallery ∧
      mtr.portOwner ((0x140#16).toNat - 0x101) ≠ x5.gallery ∧ (0x23F#16).toNat - 0x200 ≠ x5.gallery) := by
  refine ⟨by decide +kernel, ⟨_, _, _, rfl⟩, by decide +kernel⟩

/-! ### Analogue channels and CAN -/

/-- Channel 16 in a mode, with SAFE_ON_FAULT, VERIFY 3. -/
def ch16 (m : Nat) : State := run.setAioX 15 { AioX.reset with cfg := m * 0x10000000 + 0x0E000000 }

theorem wit_AnalogueScaling :
    (65535 : Nat) ≤ 65535 ∧ Frac.le Frac.zero one = true ∧ (ch16 3).aioMode 15 = 3 ∧
    ((ch16 4).isolated .aio = false ∧ aioIn ((ch16 4).aioMode 15) = true ∧ ((ch16 4).aioX 15).idleUntil ≤ (ch16 4).now) ∧
    ((ch16 1).isolated .aio = false ∧ aioOut ((ch16 1).aioMode 15) = true ∧ ((ch16 1).aioX 15).idleUntil ≤ (ch16 1).now ∧
      (run.setInReset Dom.aio.bit true).isolated .aio = true ∧ run.aioMode 15 = 0) := by decide +kernel

theorem wit_AnalogueFaults :
    ((15 : Nat) < 16 ∧ ((ch16 1).aioX 15).causes.testBit (9 - 1) = false ∧ aioOut ((ch16 1).aioMode 15) = true ∧
      fieldGet ((ch16 1).aioX 15).cfg 25 1 = 1) ∧
    ((ch16 1).aioQuiet 15 = false ∧ aioVerV ((ch16 1).aioX 15).cfg = true ∧ ((ch16 1).aioX 15).causes / 32 % 8 = 0 ∧
      aioVerD ((ch16 1).aioX 15).cfg = true ∧ (ch16 3).aioMode 15 = 3 ∧ (ch16 1).aioMode 15 ≠ 3 ∧
      65536 ≤ ((ch16 1).fset (aioB 15) AIO_CH_OUT_CODE 2731).fget (aioB 15) AIO_CH_OUT_CODE * 24) ∧
    (aioIn ((ch16 7).aioMode 15) = true ∧ ((ch16 4).aioMode 15 = 4) ∧ (ch16 5).aioMode 15 = 5 ∧ (ch16 5).aioQuiet 15 = false) ∧
    run.isolated .aio = false ∧ (8 : Fin 10).val ≠ 0 ∧ (8 : Fin 10).val ≠ 9 ∧
    (let s := (ch16 5).setAioX 15 { (ch16 5).aioX 15 with causes := 8 }
     s.aioMode 15 = 5 ∧ (s.aioX 15).causes.testBit 3 = true ∧ (s.aioX 15).causes.testBit (8 - 1) = false) ∧
    ((ch16 1).fset (aioB 15) AIO_CH_OUT_CODE 400).aioApart 15 = true ∧ (ch16 1).aioApart 15 = false ∧
    aioVerV 0x18000000 = false ∧ aioVerD 0x14000000 = false ∧ (ch16 3).aioQuiet 15 = false ∧ aioOut ((ch16 3).aioMode 15) = true ∧
    25000 ≤ (25000#16).toNat ∧ (24999#16).toNat < 25000 ∧ (999#16).toNat < 1000 ∧ 1000 ≤ (1000#16).toNat ∧
    (ch16 1).fget (aioB 15) AIO_CH_OUT_CODE * 24 < 65536 ∧
    240 * (ch16 5).fget (aioB 15) AIO_CH_IN_CODE < 5 * 65536 ∧ ((ch16 5).aioX 15).causes.testBit 2 = false ∧
    210 * 65536 < 240 * ((ch16 5).fset (aioB 15) AIO_CH_IN_CODE 57345).fget (aioB 15) AIO_CH_IN_CODE ∧
    (ch16 5).aioInBad 15 2 = false ∧ (ch16 5).aioInBad 15 4 = true ∧ run.aioQuiet 15 = true ∧
    (run.setInReset Dom.aio.bit true).isolated .aio = true ∧
    ((ch16 5).fset (aioB 15) AIO_CH_IN_CODE 30000).aioGood 15 1 = true ∧ (ch16 5).aioGood 15 1 = false ∧ (ch16 5).aioGood 15 9 = true ∧
    (let s := (ch16 5).setAioX 15 { (ch16 5).aioX 15 with causes := 4 }
     (s.aioX 15).causes = 2 ^ (3 - 1) ∧ (s.fset (aioB 15) AIO_CH_IN_CODE 30000).aioGood 15 3 = true) ∧
    aioModeOf (((ch16 1).fset (aioB 15) AIO_CH_CFG_MODE 3).rd (aioB 15)).toNat ≠ (ch16 1).aioMode 15 ∧
    aioOut (aioModeOf (((ch16 1).fset (aioB 15) AIO_CH_CFG_MODE 3).rd (aioB 15)).toNat) = true := by decide +kernel

/-- Controller 4 in a state; object 127 sends 8 bytes, its frame pending. -/
def can4 (st : Nat) : State :=
  ((((run.fset (canB 3) CAN_STATUS_STATE st).fset (canObjB 3 127) CAN_OBJ_STAT_STATE 1).fset (canObjB 3 127) CAN_OBJ_ID_DIR 1).fset
    (canObjB 3 127) CAN_OBJ_CTL_DLC 8).canSetPending 3 127 true

/-- Descriptor 0 of controller 4: signal 0 of object 127, 8 bits from bit 504. -/
def sig0 : State :=
  (((((can4 cActive).fset (canSigB 3 0) CAN_SIG_BIND_EN 1).fset (canSigB 3 0) CAN_SIG_BIND_OBJECT 127).fset (canSigB 3 0) CAN_SIG_BIND_SIG 0).fset
    (canSigB 3 0) CAN_SIG_LAYOUT_START 504).fset (canSigB 3 0) CAN_SIG_LAYOUT_LENGTH 7

theorem wit_CanSignal : sig0.sigOf 3 127 0 = some 0 ∧ (504 ∈ sig0.sigField 3 0) ∧ 0 ∉ sig0.sigField 3 0 ∧ (126 : Nat) ≠ 127 := by decide +kernel

/-- Controller 4 with settings that hold: 500 kbit/s from 80 MHz, FD off. -/
def canNom (st : Nat) : State :=
  ((((can4 st).fset (canB 3) CAN_NBT_NBRP 0).fset (canB 3) CAN_NBT_NTSEG1 126).fset (canB 3) CAN_NBT_NTSEG2 31).fset (canB 3) CAN_STATUS_FW_LOADED 1

theorem wit_CanEvents :
    (run.isolated .can = false ∧ (can4 cIntegrating).canState 3 = cIntegrating ∧ (can4 cRecovering).canState 3 = cRecovering) ∧
    ((can4 cPassive).canState 3 = cPassive ∧ 255 < (256#10).toNat ∧ (255#10).toNat ≤ 255 ∧ 127 < (128#9).toNat ∧ (127#10).toNat ≤ 127) ∧
    (let s := ((can4 cActive).fset (canObjB 3 5) CAN_OBJ_STAT_STATE 1).fset (canObjB 3 5) CAN_OBJ_MASK 0x7FF
     let u := s.canCounts 3 0 0
     s.canHears 3 = true ∧ (List.range 128).find? (fun o => u.canMatch 3 o false 1) = none ∧
      (List.range 128).find? (fun o => u.canMatch 3 o false 0) = some 5 ∧ u.fget (canObjB 3 5) CAN_OBJ_STAT_STATE ≠ 2 ∧
      (s.fset (canB 3) CAN_CTRL_FD_EN 1).fbit (canB 3) CAN_CTRL_FD_EN = true ∧
      s.canRuns 3 = true ∧ s.canActive 3 5 false = true ∧
      0 < 256 * (s.fset (canObjB 3 5) CAN_OBJ_CTL_PHASE 1).fget (canObjB 3 5) CAN_OBJ_CTL_DIV +
        (s.fset (canObjB 3 5) CAN_OBJ_CTL_PHASE 1).fget (canObjB 3 5) CAN_OBJ_CTL_PHASE) ∧
    (let s := can4 cActive
     s.canSends 3 = true ∧ s.canHead 3 = some 127 ∧
      (s.canObj 3 127).attempts + 1 ≤ (s.fset (canObjB 3 127) CAN_OBJ_CTL_RETRY 1).fget (canObjB 3 127) CAN_OBJ_CTL_RETRY ∧
      (s.fset (canObjB 3 127) CAN_OBJ_CTL_RETRY 0).fget (canObjB 3 127) CAN_OBJ_CTL_RETRY < (s.canObj 3 127).attempts + 1) ∧
    (let s0 := ((can4 cActive).fset (canObjB 3 127) CAN_OBJ_CTL_REPEAT 1).fset (canObjB 3 127) CAN_OBJ_CTL_TXMODE 1
     let s := s0.setCanObj 3 127 { s0.canObj 3 127 with relAt := 1 }
     s.canRepeats 3 127 = true ∧ s.fbit (canObjB 3 127) CAN_OBJ_STAT_REPEATING = false ∧
      (s.fset (canObjB 3 127) CAN_OBJ_STAT_REPEATING 1).fbit (canObjB 3 127) CAN_OBJ_STAT_REPEATING = true) ∧
    (∀ st ∈ [cInit, cBusOff], (can4 st).canState 3 = st ∧ (can4 st).canHears 3 = false ∧ (can4 st).canSends 3 = false) ∧
    (run.setInReset Dom.can.bit true).isolated .can = true ∧
    (((can4 cActive).fset (canB 3) CAN_CTRL_FD_EN 0).canHears 3 = true ∧
      ((can4 cActive).fset (canB 3) CAN_CTRL_FD_EN 0).fbit (canB 3) CAN_CTRL_FD_EN = false) ∧
    (let s := ((can4 cActive).fset (canObjB 3 5) CAN_OBJ_STAT_STATE 2).fset (canObjB 3 5) CAN_OBJ_MASK 0x7FF
     (List.range 128).find? (fun o => (s.canCounts 3 0 0).canMatch 3 o false 0) = some 5 ∧
      (s.canCounts 3 0 0).fget (canObjB 3 5) CAN_OBJ_STAT_STATE = 2) ∧
    (let s := (can4 cActive).setCanObj 3 127 { (can4 cActive).canObj 3 127 with relAt := 1 }
     s.canRepeats 3 127 = false ∧ s.fbit (canObjB 3 127) CAN_OBJ_STAT_STALE = false) ∧
    (let s0 := ((can4 cActive).fset (canObjB 3 127) CAN_OBJ_CTL_REPEAT 1).fset (canObjB 3 127) CAN_OBJ_CTL_TXMODE 1
     let s : State := { s0.setCanObj 3 127 { s0.canObj 3 127 with relAt := 1 } with now := 500000000 }
     s.canRepeats 3 127 = true ∧ 3 * s.canDiv 3 127 * s.periodNs ≤ 2 * (s.now - (s.canObj 3 127).relAt)) ∧
    ((can4 cInit).canState 3 = cInit ∧ Nat.testBit 0 31 = false ∧ (((can4 cInit).regSet .a (canB 3) 0).canCheck 3 ≠ 0) ∧
      ((canNom cInit).regSet .a (canB 3) 0).canCheck 3 = 0 ∧ (can4 cActive).canState 3 ≠ cInit ∧ Nat.testBit (2 ^ 31) 31 = true) ∧
    ((can4 cActive).canActive 3 127 true = true ∧ (can4 cActive).canRuns 3 = true ∧
      (can4 cActive).fget (canObjB 3 127) CAN_OBJ_STAT_STATE = 1 ∧
      regNext (canObjB 3 127) ((can4 cActive).rd (canObjB 3 127)).toNat 0 ≠ ((can4 cActive).rd (canObjB 3 127)).toNat ∧
      (can4 cActive).fget (canObjB 3 5) CAN_OBJ_STAT_STATE = 0 ∧
      ((can4 cActive).regSet .a (canObjB 3 5) (2 ^ 31)).fbit (canObjB 3 5) CAN_OBJ_ID_EN = true ∧
      regNext (canObjB 3 5) ((can4 cActive).rd (canObjB 3 5)).toNat (2 ^ 31) ≠ ((can4 cActive).rd (canObjB 3 5)).toNat) := by decide +kernel

/-! ### Lanes, resets and time -/

theorem wit_GrantRule :
    (run.granted .b (run.pointOwner 0) = false) ∧ (63 : Nat) < 64 ∧
    (let s := run.setPoint 8191 dq
     (s.point 8191).ptype ≠ 0 ∧ s.slotEmpty .a (s.point 8191) = false ∧ s.taskOwner (s.point 8191).task = s.pointOwner 8191 ∧
      s.granted .a (s.pointOwner 8191) = true ∧ s.forcedIn (s.cyc .a).n 8191 = none ∧
      [(0, 3), (8191, 7)].filter (fun x : Nat × Nat => x.1 == 8191) = [(8191, 7)]) ∧
    (run.setPoint 8191 { dq with bind := .aio 15 }).taskOwner 0 = 0 ∧
    ((run.fset (0x13300 + 4 * 15) HG_OWN_AIO_OWNER 5).setPoint 8191 { dq with bind := .aio 15 }).pointOwner 8191 = 5 := by
  decide +kernel

theorem wit_LaneEvents :
    (let s : State := { inPhase .computing with tickNo := 8 }
     s.runsCycles .a = true ∧ 4 ≤ cyclesAfter s.tickNo (s.unreleased .a) ∧ cyclesAfter s.tickNo (s.unreleased .a) < 0x80000000) ∧
    (run.procRuns .b = true ∧ 2 ≤ (5 : Fin 16).val ∧ (5 : Fin 16).val ≤ 5) ∧
    (run.inReset Lane.b.dom.bit = false ∧ (run.laneHg .b).wireMiss < 2 ∧
      2 ≤ ({ run.laneHg .b with wireMiss := 2, culvMiss := 3 } : LaneHg).wireMiss ∧ (run.laneHg .b).wireImp = false ∧
      (run.laneHg .b).culvImp = false ∧ (run.laneHg .b).culvMiss < 3) ∧
    ((run.setLaneHg .b { run.laneHg .b with wireImp := true }).laneHg .b).wireImp = true ∧ run.fbit 0 HG_HB_PA_OK = !true ∧
    (let s : State := { run2 .paired .failed .standby with hg := { (run2 .paired .failed .standby).hg with takeover := some ⟨.a, 2, 0⟩ } }
     s.hg.takeover = some ⟨.a, 2, 0⟩ ∧ s.upd.siphon = sipIdle ∧ s.mode = .paired ∧ s.lstate (Lane.other .a) = .standby) ∧
    ((run2 .wide .failed .wideRun).mode = .wide ∧ (run2 .wide .failed .wideRun).lstate (Lane.other .a) = .wideRun) ∧
    (let s : State := { run.setLane .b { run.lane .b with copy := some ⟨0, [], []⟩ } with hg := { run.hg with handover := some 7 } }
     s.hg.handover = some 7 ∧ (7 : Nat) ≠ 8 ∧ s.mode = .paired ∧ s.current = true ∧ s.copyFresh = true) ∧
    (let s := inPhase .waiting
     s.copyCan = true ∧ s.lstate s.hg.active.other = .standby ∧ s.mode = .paired ∧ s.lstate s.hg.active = .active) ∧
    (let s := (inPhase .waiting).setLstate .b .syncing
     s.copyCan = true ∧ s.lstate s.hg.active.other = .syncing ∧ s.hg.exercise = none ∧ s.upd.siphon = sipIdle) ∧
    (let s := (run.setLaneHg .b { run.laneHg .b with state := .starting, testPassed := true })
     s.lstate .b = .starting ∧ (s.laneHg .b).testPassed = true ∧ s.mode ≠ .safe) ∧
    ((run2 .paired .active .failed).mode ≠ .hold ∧ (run2 .paired .active .failed).lstate .b = .failed) ∧
    (wide.mode = .wide ∧ wide.lstate .b = .wideRun ∧ wide.lstate Lane.b.other = .wideRun ∧ wide.upd.siphon = sipIdle) := by decide +kernel

theorem wit_LaneEvents_others :
    (run.pwr.refclkLost = false ∧ ({ run.pwr with refclkLost := true } : PowerSeq).refclkLost = true ∧
      run.runsCycles .b = false ∧ run.mode ≠ .safe ∧ run.mode ≠ .hold ∧ run.lstate .a = .active ∧ run.lstate Lane.a.other = .standby ∧
      run.single = false ∧ (run2 .hold .held .held).mode = .hold ∧ (run2 .hold .held .held).procRuns .a = true ∧
      (run2 .paired .active .failed).procRuns .b = false) ∧
    ((run.setInReset Lane.b.dom.bit true).inReset Lane.b.dom.bit = true ∧
      ({ run.laneHg .b with wireMiss := 2, culvMiss := 1 } : LaneHg).culvMiss = 1 ∧ run.lstate .b ≠ .reset ∧ run.lstate .b ≠ .failed ∧
      run.lstate .b ≠ .retired ∧ ({ run.laneHg .b with wireImp := true, wireGood := 3999 } : LaneHg).wireGood + 1 = 4000 ∧
      ({ run.laneHg .b with culvMiss := 3 } : LaneHg).culvImp = false) ∧
    (({ run.hg with paMiss := 2 } : HgSt).paMiss = 2 ∧ (run.fset 0 HG_HB_PA_OK 1).fbit 0 HG_HB_PA_OK = true ∧ run.fbit 0 HG_HB_PA_OK = false) ∧
    (let s0 := run2 .paired .failed .standby
     let s : State := { s0 with hg := { s0.hg with takeover := some ⟨.a, 2, 0⟩ }, upd := { s0.upd with siphon := sipFirst, first := .b } }
     s.upd.siphon = sipFirst ∧ Lane.other .a = s.upd.first ∧ s.current = false ∧ (s.setLane .b { s.lane .b with copy := some ⟨0, [], []⟩ }).current = true ∧ s.galEn 0 = true ∧
      s.grant 0 = some .a) ∧
    (let s0 := run2 .wide .failed .wideRun
     let s : State := { s0 with upd := { s0.upd with siphon := sipFirst, first := .b } }
     s.upd.siphon = sipFirst ∧ Lane.other .a = s.upd.first ∧ s.lstate .b = .wideRun) ∧
    ((run2 .hold .failed .held).mode ≠ .paired ∧ (run2 .hold .failed .held).mode ≠ .wide ∧ run.hg.takeover = none ∧ run.hg.handover = none ∧
      run.copyCan = false ∧ run.mode = .paired ∧ run.lstate run.hg.active = .active ∧
      (inPhase .waiting).hg.exercise = none ∧ (inPhase .waiting).upd.siphon = sipIdle) ∧
    ((run2 .boot .starting .reset).mode = .boot ∧ (run2 .paired .active .starting).lstate Lane.b.other = .active ∧
      (run2 .service .serviceTest .starting).hg.leaveService = false) ∧
    (let s0 := run2 .hold .failed .reset
     let s : State := { s0 with hg := { s0.hg with holdCause := 3 } }
     s.mode = .hold ∧ s.hg.holdCause = 3 ∧ s.single = false ∧ s.lstate .a = .failed) ∧
    ((wide.fset (grantB 5) HG_GRANT_SHED 1).galShed 5 = true ∧ wide.galShed 5 = false) := by decide +kernel

theorem wit_HeadgateEvents :
    (let s : State := run.setLane .b { run.lane .b with copy := some ⟨0, [], []⟩ }
     servedB s (rq 0) 0x41 0 x0 .a = true ∧ s.mode = .paired ∧ s.lstate s.hg.active = .active ∧ s.current = true ∧ s.hg.exercise = none ∧
      s.upd.siphon = sipIdle) ∧
    (servedB wide (rq 0) 0x41 0 x0 .a = true ∧ wide.mode ≠ .paired) ∧
    (let s : State := { run.setLaneHg .b { run.laneHg .b with state := .serviceTest, testPassed := true } with
        hg := { (run.setLaneHg .b { run.laneHg .b with state := .serviceTest, testPassed := true }).hg with exercise := some (4, .b) } }
     s.hg.exercise = some (4, .b) ∧ s.lstate .b = .serviceTest ∧ (s.laneHg .b).testPassed = true) ∧
    (run.fset 0 HG_EXER_AGE_HOURS 0xFFFE).fget 0 HG_EXER_AGE_HOURS < 0xFFFF ∧
    (run.mode ≠ .safe ∧ run.mode ≠ .hold ∧ run.single = false ∧ run.hg.choiceAt = none ∧ (59999999999 : Nat) < 0 + 60000000000) ∧
    ({ run with hg := { run.hg with hg := .single1 } } : State).single = true ∧
    (let s : State := { run2 .hold .reset .reset with hg := { (run2 .hold .reset .reset).hg with holdCause := 3 } }
     s.mode = .hold ∧ s.hg.holdCause = 3 ∧ s.single = false) ∧
    (let s : State := { run2 .hold .failed .held with hg := { (run2 .hold .failed .held).hg with holdCause := 1 } }
     s.mode = .hold ∧ s.hg.holdCause = 1 ∧ s.pwr.agreed = true ∧ s.lstate .a ≠ .held ∧ s.lstate .a ≠ .reset) ∧
    (let s : State := { run2 .hold .held .held with hg := { (run2 .hold .held .held).hg with holdCause := 2 } }
     s.hg.holdCause = 2 ∧ s.lstate .a = .held) ∧
    (servedB run (rq 4) 0x40 4 x0 .a = true ∧ servedB wide (rq 4) 0x40 4 x0 .a = true ∧
      servedB (run2 .service .held .held) (rq 4) 0x40 4 x0 .a = true ∧ servedB (run2 .hold .held .held) (rq 4) 0x40 4 x0 .a = true ∧
      (3#8) ≠ 0 ∧ (3#8) ≠ 4 ∧ run.upd.siphon = sipIdle) := by decide +kernel

theorem wit_HeadgateEvents_others :
    (run.pwr.refclkLost = false ∧ run.hg.exercise = none ∧ ({ run.hg with exercise := some (2, .b) } : HgSt).exercise = some (2, .b) ∧
      (run.fset 0 HG_EXER_AGE_HOURS 0xFFFF).fget 0 HG_EXER_AGE_HOURS = 0xFFFF ∧
      ((run.fset 0 HG_EXER_CFG_MAX_AGE 24).fset 0 HG_EXER_AGE_HOURS 47).fget 0 HG_EXER_AGE_HOURS + 1 = 48 ∧
      run.uptime < 0xFFFF * 3600000 ∧ run.hg.exerPassAt = none ∧ ({ run.hg with exerPassAt := some 5 } : HgSt).exerPassAt.isSome = true ∧
      (run2 .safe .reset .reset).mode = .safe) ∧
    (let s0 := run2 .hold .held .held
     let s : State := { s0 with hg := { s0.hg with holdCause := 1, hg := .holdWait, heldMode := .paired } }
     let u : State := { (s.setLaneHg .a { s.laneHg .a with held := .active }) with hg := { (s.setLaneHg .a { s.laneHg .a with held := .active }).hg with choice := some .a } }
     s.mode = .hold ∧ s.hg.hg = .holdWait ∧ s.hg.choice = none ∧ u.mode = .hold ∧ u.hg.choice = some .a ∧ u.hg.holdCause = 1 ∧
      u.hg.heldMode = .paired ∧ u.lstate .a = .held ∧ u.lstate Lane.a.other = .held ∧ (u.laneHg .a).held = .active) ∧
    (let s0 := run2 .hold .reset .reset
     let s : State := { s0 with hg := { s0.hg with holdCause := 3, hg := .single1 } }
     s.mode = .hold ∧ s.hg.holdCause = 3 ∧ s.single = true ∧ s.hg.choice = none ∧ s.lstate .a = .reset ∧ s.lstate .b = .reset) ∧
    (let s0 := run2 .hold .failed .held
     let s : State := { s0 with hg := { s0.hg with holdCause := 1 } }
     ¬ (s.pwr.compared = true ∧ s.pwr.agreed = false) ∧ s.hg.holdCause = 1 ∧ s.hg.choice = none ∧ s.lstate .b = .held) := by decide +kernel

theorem wit_SafeEntry :
    (run2 .safe .reset .reset).mode = .safe ∧ run.mode ≠ .safe ∧
    (let s := run.setLaneHg .a { run.laneHg .a with parts := some 0xC0 }
     s.answering 0 = some .a ∧ s.qualifies .a = true) := by decide +kernel

theorem wit_DomainResets :
    ((run.setDom .can { DomRst.idle with due := true }).dom .can).due = true ∧ domIsLane .can = false ∧
    ((run.dom .meter).phase = .idle ∧ run.inReset Dom.meter.bit = false) ∧
    ((run.setDom .aio { DomRst.idle with phase := .quiescing }).dom .aio).phase = .quiescing ∧
    (let s := (run.setDom .can { DomRst.idle with phase := .asserted }).setInReset 5 true
     (s.dom .can).phase = .asserted ∧ (s.fget 0 HG_RST_STATUS_BACKOFF).testBit Dom.can.bit = false ∧
      (s.fget 0 HG_RST_STATUS_DEFERRED).testBit Dom.can.bit = false) ∧
    (let f : FwImage := ⟨1, 1, 1, 1, 1, 1, 1⟩
     let s := (run.setDom .aio { DomRst.idle with phase := .reloading }).setBank .a 0 ⟨3, some f⟩
     (s.dom .aio).phase = .reloading ∧ s.answering 0 = some .a ∧ (s.bank .a (s.bootBank .a)).image = some f) ∧
    ((run.rstBit HG_RST_STATUS_BACKOFF 7 true).fget 0 HG_RST_STATUS_BACKOFF).testBit Dom.laneB.bit = true ∧
    (run.fget 0 HG_RST_STATUS_BACKOFF).testBit Dom.laneB.bit = false ∧ run.pwr.refclkLost = false ∧
    ({ run.pwr with refclkLost := true } : PowerSeq).refclkLost = true ∧ domIsLane .laneB = true ∧
    (run.setInReset Dom.can.bit true).inReset Dom.can.bit = true ∧ (run.dom .can).times = [] ∧
    3 ≤ ({ DomRst.idle with times := [0, 0, 0] }.times.filter (fun t => run.now < t + 60000000000)).length ∧
    (let s := (run2 .paired .active .reset).setDom .laneB { DomRst.idle with phase := .asserted }
     (s.dom .laneB).phase = .asserted ∧ s.mode ≠ .safe ∧ ¬ (s.mode = .hold ∧ s.hg.holdCause ≠ 3) ∧ s.lstate (domLane .laneB) = .reset) ∧
    (let s := (run2 .safe .reset .reset).setDom .laneB { DomRst.idle with phase := .asserted }
     (s.dom .laneB).phase = .asserted ∧ s.mode = .safe ∧ s.answering 0 = none) ∧
    (run.bank .a (run.bootBank .a)).image = none ∧ run.answering 0 = some .a ∧
    (let s := (run.setDom .can { DomRst.idle with phase := .asserted }).rstBit HG_RST_STATUS_BACKOFF Dom.can.bit true
     (s.fget 0 HG_RST_STATUS_BACKOFF).testBit Dom.can.bit = true ∧ (s.dom .can).phase = .asserted) := by decide +kernel

/-- A self-test that found nothing. -/
def goodTest : SelfTest := ⟨some ⟨1, 1, 1, 1, 1, 1, 1⟩, some ⟨1, 1, 1, 1, 1, 1, 1⟩, 0xFF, 1, [], 0, 0⟩

theorem wit_SelfTests :
    ((run2 .paired .active .starting).lstate .b = .starting ∧ ((run2 .paired .active .starting).laneHg .b).testPassed = false ∧
      goodTest.parts = 0xFF ∧ goodTest.dpOk ≠ 0 ∧ goodTest.cells = []) ∧
    (let s := run2 .service .serviceTest .serviceTest
     s.lstate .a = .serviceTest ∧ s.mode = .service ∧ s.hg.leaveService = false ∧ ({ goodTest with parts := 0x3E }).parts.toNat / 2 % 32 = 31) ∧
    ((run.fset (laneKey .a 0) BIST_CTRL_RUN_EN 1).bistRuns .a = true ∧ (run.bist 7).running = false) ∧
    (((run.setBist 15 ⟨true, false⟩).bist 15).running = true ∧
      (run.fset (bistB 15) BIST_CLUSTER_SLICE 6).fget (bistB 15) BIST_CLUSTER_SLICE < 7) ∧
    ((run.fget (cluB 15) CYC_CLUSTER_MAPPED_OUT).testBit 16 = false ∧
      ((run.fset (cluB 15) CYC_CLUSTER_MAPPED_OUT 0x10000).fget (cluB 15) CYC_CLUSTER_MAPPED_OUT).testBit 16 = true) ∧
    ({ goodTest with parts := 0x7F }.parts.getLsbD 7 = false ∧ goodTest.bank0.isSome = true ∧ run.mode ≠ .hold ∧ run.upd.siphon ≠ sipSecond ∧
      ({ run.upd with siphon := sipSecond, first := .a } : UpdSt).first.other = .b ∧
      ((run2 .paired .active .starting).setLaneHg .b { (run2 .paired .active .starting).laneHg .b with testPassed := true }).lstate .b = .starting) ∧
    (let s := (run2 .boot .failed .starting).fset 0 HG_LANE_A_LAST_FAIL 0xB
     s.mode = .boot ∧ s.lstate Lane.b.other = .failed ∧ s.fget (4 * Lane.b.other.num) HG_LANE_A_LAST_FAIL = 0xB) ∧
    (let s0 := run2 .paired .active .serviceTest
     let s : State := { s0 with hg := { s0.hg with exercise := some (1, .b) } }
     s.lstate .b = .serviceTest ∧ s.mode = .paired ∧ s.hg.exercise.isSome = true ∧ ¬ (({ goodTest with parts := 0x3C }).parts.toNat / 2 % 32 = 31)) ∧
    (run.lstate .b ≠ .serviceTest ∧ (run2 .paired .active .failed).bistRuns .b = false ∧
      (((run.fset (laneKey .a 0) BIST_CTRL_RUN_EN 1).stallCheck 7).bistPick 7).fget (bistB 7) BIST_CLUSTER_POS ≠ 0x1F ∧
      300 < (0xFED3#16).toInt.natAbs ∧ (300#16).toInt.natAbs ≤ 300 ∧ 50 < (51#16).toInt.natAbs ∧ (0xFFCE#16).toInt.natAbs ≤ 50 ∧
      (run.fset (bistB 15) BIST_CLUSTER_SLICE 7).fget (bistB 15) BIST_CLUSTER_SLICE = 7 ∧
      (run.fset (bistB 15) BIST_CLUSTER_POS 16).fget (bistB 15) BIST_CLUSTER_POS ≤ 16) ∧
    (run.pwr.refclkLost = false ∧ (inPhase .computing).runsCycles .a = true ∧ ((inPhase .computing).cyc .a).phase = .computing ∧
      ((inPhase .computing).mapOut 0).logicalOf 0 = some 0) := by decide +kernel

theorem wit_Calendar :
    (73048 : Nat) < 73049 ∧ 31 ≤ (monthDays (leapYear 199)).getD (12 - 1) 0 ∧ 29 ≤ (monthDays (leapYear 0)).getD (2 - 1) 0 ∧
    (let s := ((((run.fset 0 RTC_SET_HI_YEAR 2199).fset 0 RTC_SET_HI_MONTH 12).fset 0 RTC_SET_LO_DAY 31).fset 0 RTC_SET_LO_HOUR 23).fset 0 RTC_SET_LO_MIN 59
     s.calSet.isSome = true) ∧
    (0 + 1 < calRange) ∧ calRange ≤ (calRange - 1) + 1 := by decide +kernel

theorem wit_BackupDomain :
    ({ run.rtc with frozen := true } : RtcSt).frozen = true ∧
    (let s := (ptp 3).fset 0 RTC_CTRL_DISC_EN 1
     s.ptpOk = true ∧ s.fbit 0 RTC_CTRL_DISC_EN = true ∧ (s.fset 0 RTC_STATUS_OSF 1).fbit 0 RTC_STATUS_OSF = true ∧
      (let u : State := { s.fset 0 RTC_STATUS_OSF 0 with eth := { s.eth with shift := 946684800000000000 } }
       u.fbit 0 RTC_STATUS_OSF = false ∧ ((u.rtcMicros : Int) - u.utcMicros (some 0)).natAbs ≤ 100000)) ∧
    (let r := { run.rtc with stopped := false, lost := false }
     r.stopped = false ∧ r.lost = false ∧ ({ r with stopped := true }).stopped = true ∧ ({ r with lost := true }).lost = true) ∧
    ({ run.rtc with frozen := false, onCell := true } : RtcSt).onCell = true ∧ run.ptpOk = false ∧
    ({ run.rtc with onCell := false } : RtcSt).onCell = false ∧ run.pwr.mainPower = true ∧ State.reset.pwr.mainPower = false ∧
    ((2599#16).toNat < 2600 ∧ 2700 ≤ (2700#16).toNat ∧ 2600 ≤ (2600#16).toNat ∧ (2699#16).toNat < 2700) := by decide +kernel

theorem wit_Recorder :
    (let s := (run.fset 0 FLOW_CTRL_EN 1).fset (flowB true 63) FLOW_H_CFG_EN 1
     s.fbit 0 FLOW_CTRL_EN = true ∧ s.fbit (flowB true (63 : Fin 64).val) FLOW_H_CFG_EN = true ∧
      s.flow.stopped.contains (flowKey true 63) = false ∧ s.flowFrozen = false ∧ (s.fset 0 FLOW_STATUS_FROZEN 1).flowFrozen = true) ∧
    (let s := (run.fset (flowB true 63) FLOW_H_CFG_EPOCH 1).setFlowOpen (flowKey true 63)
        (some (1407, ⟨1, 63, 1, 0, 0, 0, 0, 0, 0, 0, 0, 0, 0, [], 0, 0, 0, 0, 0, 0⟩))
     s.fget (flowB true 63) FLOW_H_CFG_EPOCH ≠ 0 ∧ (s.flowOpen (flowKey true 63)).isSome = true) ∧
    (servedB run (rq 4) 0x90 lenFreeze x0 .a = true ∧ servedB (run.fset 0 FLOW_STATUS_FROZEN 1) (rq 4) 0x90 lenFreeze x0 .a = true) ∧
    (run.fset 0 FLOW_CTRL_FREEZE_MAX 1).fget 0 FLOW_CTRL_FREEZE_MAX ≠ 0 ∧ flowBin 0 1 31 = some 31 ∧
    run.pwr.refclkLost = false ∧ ({ run.pwr with refclkLost := true } : PowerSeq).refclkLost = true ∧ run.pwr.mainPower = true ∧
    State.reset.pwr.mainPower = false ∧ (run.fset 0 FLOW_CTRL_EN 0).fbit 0 FLOW_CTRL_EN = false ∧ (run.flowOpen (flowKey true 63)) = none ∧
    run.flowSource 0xF 0 = none ∧ (run.flowSource 0 0).isSome = true ∧
    (let s := ((run.fset (flowB true 63) FLOW_H_CFG_EPOCH 1).setFlowOpen (flowKey true 63)
        (some (1407, ⟨1, 63, 1, 0, 0, 0, 0, 0, 0, 0, 0, 0, 0, [], 0, 0, 0, 0, 0, 0⟩))).fset 0 FLOW_HOURS 241
     (⟨1, 63, 1, 0, 0, 0, 0, 0, 0, 0, 0, 0, 0, [], 0, 0, 0, 0, 0, 0⟩ : FlowRec).start + 240 * s.fget (flowB true 63) FLOW_H_CFG_EPOCH ≤
      s.fget 0 FLOW_HOURS) ∧
    ({ run.flow with work := [(3, 4, (⟨1, 63, 1, 0, 0, 0, 0, 0, 0, 0, 0, 0, 0, [], 0, 0, 0, 0, 0, 0⟩ : FlowRec))] } : FlowSt).work.length = 1 ∧
    2 ≤ (2#8).toNat := by decide +kernel

/-! ### Points, images, keys and the check-value units -/

/-- `run` with the writable PROG input 291 of gallery 0, generation 1, and the session of gallery 0 sending a request. -/
def pts : State := run.setPoint 291 ⟨1, 1, .prog, 0, 7, false, false, true, 0, none⟩
def hOk : BitVec 32 := 0x01002123
def hOld : BitVec 32 := 0x02002123

theorem wit_PointOperations :
    (servedB pts (rq 4) 0x20 4 x0 .a = true ∧ servedB pts (rq 12) 0x21 12 x0 .a = true ∧ servedB pts (rq 68) 0x22 (4 + 4 * 16) x0 .a = true ∧
      servedB pts (rq 196) 0x23 (4 + 12 * 16) x0 .a = true ∧ servedB pts (rq 12) 0x24 12 x0 .a = true ∧
      servedB pts (rq 4) 0x25 4 x0 .a = true ∧ servedB pts (rq 4) 0x26 4 x0 .a = true) ∧
    (let u := took pts (rq 4) x0
     u.judgeHandle 0 (handleOf hOk.toNat) (u.roleAt .a (u.imageCycle .a) 1 291) = .ok ∧ u.judgeHandle 0 (handleOf hOld.toNat) (u.roleAt .a (u.imageCycle .a) 1 291) = .staleHandle ∧
     u.judgeHandle 0 (handleOf hOk.toNat) (u.roleNow 1 291) = .ok ∧ u.judgeHandle 0 (handleOf hOld.toNat) (u.roleNow 1 291) = .staleHandle ∧
     u.writeAccepts 1 291 0x3F800000 = .ok ∧ u.writeAccepts 1 291 0x100000000 = .range ∧
     u.forceAccepts 1 291 0x3F800000 = .ok ∧ u.forceAccepts 1 291 0x100000000 = .range ∧ u.forceSet.length < 512) ∧
    (let u := { took pts (rq 4) x0 with forces := (List.range 512).map (fun i => ⟨1, 1000 + i, 0⟩) }
     512 ≤ u.forceSet.length ∧ u.forceSet.contains (false, 291) = false) ∧
    (let ls := (List.replicate 16 hOk).map (fun h => (took pts (rq 68) x0).imageLane .a (handleOf h.toNat).gallery)
     ls = List.replicate 16 Lane.a) ∧ (0#8).toNat = 0 ∧ 16 < (17#8).toNat ∧ (15#8).toNat ≠ (List.replicate 16 hOk).length ∧
    servedB pts (rq 4) 0x22 (lenGather 0) x0 .a = true ∧ servedB pts (rq 4) 0x23 (lenScatter 0) x0 .a = true ∧
    hOk ≠ 0xFFFFFFFF := by decide +kernel

/-- An open transfer of a program image of 128 bytes, with so many of its words written. -/
def xfer (n : Nat) : State := { run with upd := { run.upd with xfer := some ⟨1, 2, 128, tabSet (fun _ => false) [] 31 true |>.take n, 0⟩ } }

/-- Settings that change nothing. -/
def set0 : SettingsImage := ⟨1, [], [], [], [], [], none, none, [], [], [], 0, [], 0⟩

/-- A program image of 128 bytes whose trailer is the HMAC under the key in slot 4, in both lanes' flash. -/
def kProg : List Byte := List.replicate 32 0x5A
def progBytes : List Byte :=
  [0x47, 0x46, 0x43, 0x49, 2, 0, 1, 0, 7, 0, 0, 0, 128, 0, 0, 0, 0, 4] ++ List.replicate 78 0
def prog128 : List Byte := progBytes ++ beBytes 32 0x78039D9CECFCD19C7FFC95A15DB8858A33A10E349E32992FFBCCD586766A1736
def noImage : ProgImage := ⟨7, false, 1000, 618, 0, 0, [], [], [], [], [], [], [], [], [], []⟩
def progBody : Option ImageBody := some (.program noImage)
def whole : State :=
  let s : State := { run.fset (keySlotB 4) KEY_SLOT_ATTR 0x40000002 with
    keys := [(4, kProg)], upd := { run.upd with xfer := some ⟨1, 2, 128, (List.range 32).map (fun i => (i, true)), 0⟩ } }
  (s.mwrite (flashKey .a (s.xferRegion .a 2).1) prog128).mwrite (flashKey .b (s.xferRegion .b 2).1) prog128

/-- A copy with a byte of its trailer changed does not verify (R518, R519). -/
theorem test_image_trailer :
    (whole.mwrite (flashKey .a ((whole.xferRegion .a 2).1 + 127)) [(prog128.getD 127 0) ^^^ 1]).imageOk .a 2 = false ∧
    whole.headOk .a 2 (some (.program { noImage with id := 8 })) = false := by decide +kernel

theorem wit_Updates :
    (servedB run (rq 8) 0x50 8 x0 .a = true ∧ (took run (rq 8) x0).xferRefused 2 = false ∧
      (took run (rq 8) x0).upd.xfer.any (fun t => t.session != x0.id) = false ∧ 128 ≤ kindSize 1 ∧ kindSize 3 < 0xFFFFFFFF ∧
      servedB (run2 .hold .held .held) (rq 8) 0x50 8 x0 .a = true ∧ (run2 .hold .held .held).xferRefused 1 = true ∧
      ({ run with upd := { run.upd with xfer := some ⟨9, 2, 128, [], 0⟩ } } : State).upd.xfer.any (fun t => t.session != x0.id) = true) ∧
    (servedB (xfer 0) (rq 128) 0x51 (4 + 124) x0 .a = true ∧ (took (xfer 0) (rq 128) x0).xferOf x0.id = (xfer 0).upd.xfer ∧
      (xfer 0).xferRefused 2 = false ∧ (4#32).toNat + 124 ≤ 128 ∧ 128 < (8#32).toNat + 124 ∧ (2#32).toNat % 4 ≠ 0 ∧
      (xfer 0).procRuns .b = true ∧ (took run (rq 128) x0).xferOf x0.id = none ∧ servedB run (rq 128) 0x51 (4 + 124) x0 .a = true) ∧
    (servedB run (rq 0) 0x52 0 x0 .a = true ∧ (took run (rq 0) x0).xferOf x0.id = none ∧
      servedB (xfer 1) (rq 0) 0x52 0 x0 .a = true ∧ ((took (xfer 1) (rq 0) x0).xferOf x0.id).any (fun t => decide (4 * t.words.length < t.size)) = true) ∧
    (servedB whole (rq 0) 0x52 0 x0 .a = true ∧ (took whole (rq 0) x0).xferOf x0.id = whole.upd.xfer ∧
      (took whole (rq 0) x0).xferRefused 2 = false ∧
      whole.upd.xfer.any (fun t => decide (t.size ≤ 4 * t.words.length) &&
        (let u := took whole (rq 0) x0
         u.bodyOk t.kind progBody && u.headOk .a t.kind progBody && u.imageOk .a t.kind && u.headOk .b t.kind progBody && u.imageOk .b t.kind &&
          !u.bodyOk t.kind none)) = true) ∧
    (let s := { run2 .safe .reset .reset with responder := some Lane.a }
     s.mode = .safe ∧ s.procRuns .b = false) ∧
    (servedB run (rq 0) 0x53 0 x0 .a = true ∧ run.updatePending = false ∧
      servedB ({ run with updatePending := true } : State) (rq 0) 0x53 0 x0 .a = true ∧ run.upd.siphon ≠ sipSecond ∧
      run.lstate .b ≠ .retired) ∧
    (let s : State := { (run.setLane .a { run.lane .a with copy := some ⟨0, [], []⟩ }) with
        upd := { run.upd with siphon := sipFirst, first := .a }, hg := { run.hg with active := .b } }
     let s := s.setLstate .a .standby
     s.upd.siphon = sipFirst ∧ s.sipReady = true ∧ s.mode = .paired ∧ (s.setLstate .a .starting).sipReady = false) ∧
    (let s : State := { wide with upd := { wide.upd with siphon := sipFirst, first := .b } }
     s.upd.siphon = sipFirst ∧ s.sipReady = true ∧ s.mode = .wide) ∧
    (let s : State := { run with upd := { run.upd with siphon := sipFallback, first := .a } }
     s.upd.siphon = sipFallback ∧ s.mode = .paired ∧ s.hg.active = s.upd.first ∧ s.lstate .a = .active ∧ s.lstate Lane.a.other = .standby ∧
      (s.setLstate .b .failed).lstate Lane.a.other ≠ .standby ∧ s.hg.active ≠ Lane.b) ∧
    (let s : State := { run with updatePending := true, upd := { run.upd with siphon := sipPending } }
     s.upd.siphon = sipPending ∧ s.updatePending = true ∧ s.upd.windowEnd.getD 0 ≤ s.now) ∧
    (({ run with upd := { run.upd with prog := some (noImage, 0), sett := some (set0, 0) } } : State).upd.prog = some (noImage, 0) ∧
      run.upd.sett = none ∧ run.upd.prog = none ∧ run.pwr.refclkLost = false ∧
      ({ run.pwr with refclkLost := true } : PowerSeq).refclkLost = true) ∧
    (run.now < 0 + 20000 ∧ 0 + 20000 ≤ ({ run with now := 20000 } : State).now ∧
      0 + 600000000000 ≤ ({ run with now := 600000000000 } : State).now) := by decide +kernel

/-- Slot 1 is fixed and may derive; slot 127 belongs to gallery 63 and is loaded from it. -/
def keys : State :=
  { (run.fset (keySlotB 1) KEY_SLOT_ATTR 0xC0000014).fset (keySlotB 127) KEY_SLOT_ATTR 0x7F010004 with keys := [(1, List.replicate 32 1)] }

/-- KEY_LOAD of slot 127 for gallery 63 by DERIVE from slot 1, with HKDF. -/
def load127 : KeyOp := ⟨1, 7, true, 127, 1, 0x3F010004, List.replicate 40 0⟩

theorem wit_KeyOperations :
    (servedB keys (rq 48) 0x60 48 x0 .a = true ∧ keys.keyQ = [] ∧ (took keys (rq 48) x0).keyRefused load127 = none ∧
      (took keys (rq 48) x0).keyRefused { load127 with attr := 0x3E010004 } = some .keyAttr ∧
      (took keys (rq 48) x0).keyRefused { load127 with attr := 0x3F050004 } = some .range ∧
      (took keys (rq 48) x0).keyRefused { load127 with attr := 0x3F000004, wrapped := [] } = some .verifyFailed ∧
      keys.flights.all (fun f => !(f.session == x0.id && f.tag == 7)) = true ∧
      ({ keys with keyQ := [load127] } : State).keyQ ≠ []) ∧
    (servedB keys (rq 4) 0x61 4 x0 .a = true ∧ keys.mode = .paired ∧ keys.keyState 127 ≠ 0 ∧ keys.keyState 4 = 0 ∧
      keys.fbit 0 ALLOC_ENTRY_STATUS_PFW = false ∧ (keys.fset 0 ALLOC_ENTRY_STATUS_PFW 1).fbit 0 ALLOC_ENTRY_STATUS_PFW = true ∧ (3#8).toNat < 4 ∧
      servedB (run2 .hold .held .held) (rq 4) 0x61 4 x0 .a = true) ∧
    (servedB keys (rq 4) 0x62 4 x0 .a = true ∧ 127 < (128#8).toNat ∧ (127#8).toNat ≤ 127 ∧ x0.gallery = 0 ∧
      servedB keys { rq 4 with session := 2, transport := .uplinkB peer } 0x62 4 x5 .a = true ∧ attrOwner (keys.keyAttr 127) ≠ x5.gallery) ∧
    (({ keys with keyQ := [load127] } : State).keyQ = [load127] ∧ load127.slot < 128 ∧ load127.load = true ∧ keys.pwr.refclkLost = false ∧
      ({ keys.pwr with refclkLost := true } : PowerSeq).refclkLost = true) ∧
    (let b := ckvB .a 3
     ∀ z ∈ [(ckvAt 3 0x1C, 5), (ckvAt 3 0x20, 5), (ckvAt 3 0x24, 5)], writesB run (rq 12) x0 .a z.1 z.2 = true ∧
      run.fget b CKV_LENGTH = ([] : List Byte).length) ∧
    (∀ v ∈ [1, 2, 4, 8], setsB run (rq 12) x0 .a (ckvAt 3 4) v = true) ∧
    (let s := run.fset (ckvB .a 3) CKV_STATUS_BUSY 1
     (∀ v ∈ [1, 2, 4, 8], setsB s (rq 12) x0 .a (ckvAt 3 4) v = true) ∧ servedB s (rq 12) 0x12 12 x0 .a = true ∧ s.rd 0x11000 = 0 ∧
      s.applyAt = none ∧ (took s (rq 12) x0).regJudge .a (ckvAt 3 0x1C) = .ok) ∧
    (servedB run (rq 12) 0x12 12 x0 .a = true ∧ run.rd 0x11000 = 0 ∧
      (let b := ckvB .a 3
       run.fbit b CKV_STATUS_BUSY = false ∧ run.ckvRefused b = true ∧ (run.fset b CKV_LENGTH 1).ckvRefused b = false ∧
        (run.fset b CKV_STATUS_BUSY 1).fbit b CKV_STATUS_BUSY = true)) := by decide +kernel

/-! ### The cabinet bus, snapshots, ownership and registers -/

/-- A ring buffer that holds a clear SESSION_OPEN header. -/
def open24 : List Byte := packetHeader 0 0 0 7 1 0
def rung (d : List Byte) : State := (run.fset 0 CAB_CTRL_DOORBELL_EN 1).mwrite doorbellReq d

theorem wit_CabinetBus :
    State.reset.cabUp = false ∧ run.cabUp = true ∧ run.fget 0 CAB_STATUS_DB_STATE ≠ dbBusy ∧
    (run.fset 0 CAB_STATUS_DB_STATE dbBusy).fget 0 CAB_STATUS_DB_STATE = dbBusy ∧
    (run.fset 0 CAB_STATUS_DB_STATE dbDone).fget 0 CAB_STATUS_DB_STATE = dbDone ∧ run.fget 0 CAB_STATUS_DB_STATE = dbIdle ∧
    24 ≤ (1448#16).toNat ∧ (1448#16).toNat ≤ 1448 ∧ (23#16).toNat < 24 ∧ 1448 < (1449#16).toNat ∧
    (run.fset 0 CAB_CTRL_DOORBELL_EN 1).fbit 0 CAB_CTRL_DOORBELL_EN = true ∧ (run.fset 0 CAB_CTRL_DOORBELL_EN 0).fbit 0 CAB_CTRL_DOORBELL_EN = false ∧
    (let d := (rung open24).mbytes doorbellReq 24
     packetMalformed d = false ∧ packetSecure d = false ∧ packetMalformed ((rung open24).mbytes doorbellReq 25) = true) ∧
    (let d := (rung (packetHeader 0x40 9 1 7 0x10 0 ++ List.replicate 16 0)).mbytes doorbellReq 40
     packetMalformed d = false ∧ packetSecure d = true ∧ (rung []).authentic d = false) ∧
    (let s : State := { run.fset 0 CAB_STATUS_DB_STATE dbBusy with dbReply := some (packetHeader 0x80 0 0 7 1 4 ++ [0, 0, 0, 1]) }
     s.dbReply.isSome = true ∧ run.dbReply = none) ∧
    run.answering 0 = some .a ∧ run.pwr.aonOut = true ∧ State.reset.pwr.aonOut = false ∧ run.inReset Lane.a.dom.bit = false ∧
    ({ run with now := (run.laneHg .a).hbFrom + 250000 * 3 + 999 } : State).heartbeatOut .a = true ∧
    ({ run with now := (run.laneHg .a).hbFrom + 250000 * 3 + 1000 } : State).heartbeatOut .a = false := by decide +kernel

/-- `run` with gPTP available. -/
def timed : State := run.fset 0 ETH_PTP_STATUS_STATE ptpGrandmaster

theorem wit_SnapshotsAndOwnership :
    (servedB run (rq 12) 0x42 12 x0 .a = true ∧ run.mode ≠ .boot ∧ run.mode ≠ .safe ∧ run.ptpOk = false ∧
      servedB timed (rq 12) 0x42 12 x0 .a = true ∧ timed.ptpOk = true ∧
      (0#64).toNat < timed.ptpTime + 200000 ∧ timed.ptpTime + 200000 ≤ (timed.ptpTime + 3600000000000 : BitVec 64).toNat ∧
      (timed.ptpTime + 3600000000000 : BitVec 64).toNat ≤ timed.ptpTime + 3600000000000) ∧
    (∃ t id, ({ timed with snap := ⟨some (5, 6), none⟩ } : State).snap.armed = some (t, id)) ∧ timed.snap.armed = none ∧
    (∃ ws : List Nat, ({ timed with snap := ⟨none, some (List.replicate 256 0)⟩ } : State).snap.building = some ws ∧ ws.length = 256) ∧
    (setsB run (rq 12) x0 .a 0x13000 1 = true ∧ run.applyAt = none ∧ run.ownCheck = (0, 0) ∧ run.pwr.refclkLost = false ∧
      setsB ({ run with applyAt := some 20000 } : State) (rq 12) x0 .a 0x13000 1 = true ∧
      ((run.fset (galB 63) HG_GAL_CFG_EN 1).fset (galB 63) HG_GAL_CFG_VID 1).ownCheck.1 = 2) ∧
    (∃ t, ({ run with applyAt := some 20000 } : State).applyAt = some t ∧ run.now < t ∧ t ≤ ({ run with now := 20000 } : State).now) := by
  refine ⟨by decide +kernel, ⟨_, _, rfl⟩, by decide +kernel, ⟨_, rfl, List.length_replicate⟩, by decide +kernel, ⟨_, rfl, by decide +kernel, by decide +kernel⟩⟩

/-- The lanes in SERVICE, and one in BOOT. -/
def service : State := run2 .service .serviceTest .serviceTest
def boot : State := run2 .boot .starting .starting

/-- A REG_WRITE of one word reaches the register at `a`. -/
def reach (s : State) (a v : Nat) : Bool :=
  servedB s (rq 12) 0x12 12 x0 .a && writableB (took s (rq 12) x0) .a a v

theorem wit_RegisterCommands :
    (let w := fun a v => reach run a ((took run (rq 12) x0).cmdWord .a a v)
     w (portB 63 + 0x34) 1 && w (portB 63 + 0x34) 2 && reach run (portB 63 + 4) 0xFFFFFFFF && reach run (portB 63) 0xFFFFFFFF &&
      w 0x90130 1 && reach run 0x1B003C 0xFFFF00FF && (List.range 66).all (fun k => w (ethB (k + 1) + 4) 2 && w (ethB (k + 1) + 4) 1 &&
        w (ethB (k + 1) + 0x30) 1) && reach run 0x100010 0xFFFFFFFF && reach run 0x100040 0xFFFFFFFF && reach run 0x1A0030 2 &&
      reach run 0x1A0030 0 && w 0x1A0030 1 && (List.range 4).all (fun b => w (0x18010C + 0x10 * b) 1) && w 0x180000 2) = true ∧
    (let w := fun a v => reach run a ((took run (rq 12) x0).cmdWord .a a v)
     w 0xA0020 1 && reach service 0xA0020 ((took service (rq 12) x0).cmdWord .a 0xA0020 2) && reach run (0xA0000 + 0xA08) 0xFFFFFFFF &&
      (List.range 4).all (fun c => reach run (canB c) (fieldPut 0xFFFFFFFF 31 1 0) && reach run (canB c) (fieldPut 0xFFFFFFFF 31 1 1) &&
        w (canB c + 0x18) 2 && w (canB c + 0x18) 1 && (List.range 4).all (fun i => reach run (canB c + 0x20 + 4 * i) 0xFFFFFFFF)) &&
      (List.range 3).all (fun i => reach run (canSigB 3 511 + 4 * i) 0xFFFFFFFF) && (List.range 3).all (fun i => reach run (canObjB 3 127 + 4 * i) 0xFFFFFFFF) &&
      w 0x10018 2 && w 0x10018 1 && reach run 0x20020 (fieldPut 0xFFFFFFFF 30 1 1) && w 0x20024 0x80000000 &&
      (let s : State := run.fset 0 FLOW_STATUS_FROZEN 1
       reach s 0x24010 ((took s (rq 12) x0).cmdWord .a 0x24010 1)) &&
      (List.range 4).all (fun i => reach run (flowB false 31 + 4 * i) 0xFFFFFFFF) && (List.range 2).all (fun i => reach run (flowB true 63 + 4 * i) 0xFFFFFFFF)) = true ∧
    servedB run (rq 8) 0x11 8 x0 .a = true := by decide +kernel

theorem wit_RegisterEffects :
    (run.fbit 0 MTR_SEAL = false ∧ run.fbit 0 MTR_SEAL ≠ true ∧ run.revenueMoves (0xA0000 + 0xA08) 1 = true) ∧ wide.mode = .wide ∧
    ((run2 .paired .retired .active).lstate .a = .retired ∧ (run2 .paired .retired .active).lstate .b ≠ .retired) ∧
    ((run.fset 0 RTC_SET_HI_MONTH 13).calSet = none ∧ run.calSet = some 0) ∧
    (servedB run (rq 12) 0x12 12 x0 .a = true ∧ run.rd 0x11000 = 0 ∧ (0x3C#32).getLsbD 31 = false ∧ (0x3C#32).toNat / 64 % 4 = 0 ∧
      (0x3C#32).toNat / 4 % 16 ≠ 0 ∧ run.mode = .paired ∧
      servedB boot (rq 12) 0x12 12 x0 .a = true ∧ boot.mode = .boot) ∧
    (servedB service (rq 12) 0x12 12 x0 .a = true ∧ service.mode = .service ∧ run.mode ≠ .service) ∧
    (servedB run (rq 512) 0x12 (8 + 4 * 126) x0 .a = true ∧ (0 : Fin 126).val + 126 ≤ 126) := by decide +kernel

/-! ### Ill-formed commands, one for each check -/

def means0 : PortMeas := ⟨0, 0, 0, 0, 0, 0, 0, false⟩

theorem wf_modeSetEnterService : (Instr.modeSetEnterService (rq 4) 0).wellFormed = false := by decide
theorem wf_recorderFreeze : (Instr.recorderFreeze (rq 4) 0).wellFormed = false := by decide
theorem wf_loopTest : (Instr.loopTest (rq 12) 0 0x0F 0 0 0).wellFormed = false := by decide
theorem wf_revenueParamWrite : (Instr.revenueParamWrite (rq 12) 0x102 0).wellFormed = false := by decide
theorem wf_rlRegisterRead : (Instr.rlRegisterRead (rq 8) 0x80002).wellFormed = false := by decide
theorem wf_canHeaderWrite : (Instr.canHeaderWrite (rq 12) 0 false 128 0 0).wellFormed = false ∧
    (Instr.canHeaderWrite (rq 12) 0 true 0 2 0).wellFormed = false := by decide
theorem wf_flowDescriptorChange : (Instr.flowDescriptorChange (rq 12) false 32 0 0).wellFormed = false ∧
    (Instr.flowDescriptorChange (rq 12) true 0 2 0).wellFormed = false := by decide
theorem wf_recorderSample : (Instr.recorderSample false 32).wellFormed = false := by decide
theorem wf_recorderEpochEnd : (Instr.recorderEpochEnd false 32).wellFormed = false := by decide
theorem wf_cisternUpdate : (Instr.cisternUpdate (rq 8) 0 []).wellFormed = false ∧ (Instr.cisternUpdate (rq 16) 125 [1, 2]).wellFormed = false := by
  decide
theorem wf_aioInputFault : (Instr.aioInputFault 0 0).wellFormed = false := by decide
theorem wf_aioFaultCleared : (Instr.aioFaultCleared 0 0).wellFormed = false := by decide
theorem wf_laneDirectFailure : (Instr.laneDirectFailure .a 1).wellFormed = false ∧ (Instr.laneDirectFailure .a 6).wellFormed = false := by decide
theorem wf_meterSample : (Instr.meterSample ⟨[], []⟩).wellFormed = false := by decide
theorem wf_lumLevelReply : (Instr.lumLevelReply 0 0 1 0 0 (List.replicate 5 ⟨0, 0, 0, 0, 0⟩)).wellFormed = false := by decide
theorem wf_keyLoad : (Instr.keyLoad (rq 48) 127 1 0x3F010004 (List.replicate 39 0)).wellFormed = false := by decide
theorem wf_laneStartingComplete : (Instr.laneStartingComplete .a (some { noImage with loops := [(0, [])] }) none).wellFormed = false := by decide
theorem wf_ckvScanFault : (Instr.ckvScanFault .a 0 1 [] 0).wellFormed = false ∧ (Instr.ckvScanFault .a 0 6 [] 0).wellFormed = false := by decide
theorem wf_imageCommit : (Instr.imageCommit (rq 0) (some (.program { noImage with base := 0 }))).wellFormed = false := by decide
theorem wf_allocTick : (Instr.allocTick ⟨0, 0, 0, 0, 0, 0, 0, 0, 0, 0, 0, 0, 0, 0, 0, 0, 0, false⟩ [means0, means0]).wellFormed = false := by decide

/-! ### Values from the spec's tables and worked examples -/

/-- R508: CHECK of the four algorithms, over the nine ASCII bytes "123456789". -/
theorem test_crc_check :
    [(0, 0xE3069283), (1, 0xCBF43926), (2, 0x29B1), (3, 0x6C40DF5F0B497347)].all (fun e =>
      let a := crcAlgo e.1
      (crcFeed a a.init [0x31, 0x32, 0x33, 0x34, 0x35, 0x36, 0x37, 0x38, 0x39] ^^^ a.xorout) == e.2) = true := by decide +kernel

/-- Chapter 03, the gather example: the handle 0x0730_6125, and LENGTH 68 for sixteen handles. -/
theorem test_handle : handleOf 0x07306125 = ⟨7, 12, 3, 0x125⟩ ∧ lenGather 16 = 68 := by decide
/-- Chapters 04 and 07: the handles of a node before and after an apply, and of node 2 of P09. -/
theorem test_node_handle : handleOf 0x03320040 = ⟨3, 12, 16, 64⟩ ∧ handleOf 0x010E0022 = ⟨1, 3, 16, 34⟩ := by decide

/-- Chapter 04, a tenant takes over a bay: P17, I33 and AIO06 pass from gallery 12 to gallery 14. -/
def bay : State :=
  let s : State := { run with tickNo := 0x4A1F0, now := 1000000, base := 1000, applyAt := some 320000 }
  let s := ((((s.fset (galB 12) HG_GAL_LIVE_EN 1).fset (galB 12) HG_GAL_CFG_EN 1).fset (galB 14) HG_GAL_CFG_EN 1).fset (galB 14) HG_GAL_LIVE_EN 1)
  let s := ((s.setCyc .a { CycSt.reset with phase := .waiting, n := 0x4A1F0 }).wr 0x13140 0x0E0C).wr 0x13280 0x0E0C |>.wr 0x13314 0x0E0C
  ((s.setPoint 9 ⟨4, 2, .port 16, 0, 0, false, false, false, 0, none⟩).setPoint 10 ⟨5, 3, .meterIn 32 0, 0, 0, false, false, false, 0, none⟩).setPoint
    11 ⟨6, 4, .aio 5, 0, 0, false, false, false, 0, none⟩

/-- Seven handles re-roled over three registers: event 4 carries 0x0003_0007, and HG_OWN_CYCLE names the tick. -/
theorem test_own_apply :
    (let t := after .ownershipApplyTick bay
     t.events.map (fun e => (e.source, e.data)) = [(4, 0x00030007)] ∧ t.rd 0x13008 = 0x4A1F1 ∧ t.rd 0x1300C = 0 ∧ t.genOf 16 64 = 2 ∧
       (t.point 11).gen = 5) := by decide +kernel

/-- Chapter 05, the 70 m channel: the trim of pair-set A saturates at 12 steps; the exact currents give RA 8.60 Ω and RB 9.40 Ω within 0.3 %. -/
theorem test_cable :
    (let s := ((run.setBoth 22 stOn).fset (portB 22) PORT_POWER 72210).setPortX 22 { PortX.reset with measuring := true, nowA := 280, nowB := 280 }
     let t := after (.loopRMeasureComplete 22 ⟨57000, 57000, 661547, 605245⟩ ⟨56500, 57000, 637580, 636510⟩ ⟨57000, 56500, 692810, 580656⟩) s
     (t.portX 22).trimA = 12 ∧ (t.portX 22).trimB = 0 ∧ (t.portX 22).trimSat = true ∧
       8574 ≤ t.fget (portB 22) PORT_LOOP_R_LOOP_A ∧ t.fget (portB 22) PORT_LOOP_R_LOOP_A ≤ 8626 ∧
       9372 ≤ t.fget (portB 22) PORT_LOOP_R_LOOP_B ∧ t.fget (portB 22) PORT_LOOP_R_LOOP_B ≤ 9428) := by decide +kernel

/-- Chapter 06, one bus lost: the capacity and the budget of BUS-B alone at 58.0 V (R180); V_RESERVE of 21.87 V for 4.17 F and 22.79 V for 3.50 F (R192, R194). -/
theorem test_budget :
    (let s := (run.fset 0 ALLOC_ENTRY_STATUS_B_PRESENT 1).fset 0 ALLOC_BUS_B_VOLTAGE 58000
     s.bIn = 3625000 ∧ s.bPorts = 3405000) ∧ vReserve 4170 = 21870 ∧ vReserve 3500 = 22795 := by decide +kernel

/-- Chapter 10, the heating coil: the law of slot 600, its setpoint and process value. -/
def coil : LoopPar := ⟨⟨5, 1⟩, ⟨60, 1⟩, ⟨10, 1⟩, ⟨0, 1⟩, ⟨100, 1⟩, ⟨10, 1⟩, Frac.zero, Frac.zero⟩
def coilLaw (y : Frac) (z : LoopVars) : Option (LoopVars × Nat) := loopLaw coil false ⟨10, 1⟩ ⟨1, 2⟩ Frac.zero one ⟨18, 1⟩ y Frac.zero z

/-- The preset gives I = 79.5; sample k gives u = 42.0 and I = 79.625; sample k + 1 gives D = −2.5 and u = 39.125, with no limit reached. -/
theorem test_coil :
    (let z := loopPreset coil ⟨1, 2⟩ Frac.zero ⟨18, 1⟩ ⟨33, 2⟩ ⟨42, 1⟩
     f32Of z.i = 0x429F0000 ∧ ((coilLaw ⟨33, 2⟩ z).map (fun a => (f32Of a.1.u, f32Of a.1.i)) = some (0x42280000, 0x429F4000)) ∧
     ((coilLaw ⟨33, 2⟩ z).bind (fun a => coilLaw ⟨166, 10⟩ a.1)).map (fun a => (f32Of a.1.u, f32Of a.1.d, a.2)) =
       some (0x421C8000, 0xC0200000, 0)) := by decide +kernel

/-- Chapter 11, pulse spacing at constant load: residues and starts of the three pulses. -/
theorem test_pulses :
    (let de := 145000 * 65536
     let kk := 3600000 * 65536
     (pulseEdges kk de 480000000 500000000 1 (3625000 * 65536) []) = (25000 * 65536, [521552000]) ∧
     (pulseEdges kk de 980000000 1000000000 1 (3650000 * 65536) []) = (50000 * 65536, [1018103000]) ∧
     (pulseEdges kk de 1480000000 1500000000 1 (3675000 * 65536) []) = (75000 * 65536, [1514655000])) := by decide +kernel

/-- Chapter 12, a valve output loses its wiring: AIO06 in AO_4_20 for 0–100 %, FAULT_SAFE 1, its SAFE code 4 mA; slot 600 has written 39.125 %. -/
def valve : State :=
  (((run.setAioX 5 { AioX.reset with cfg := 0x12000000 }).fset (aioB 5) AIO_CH_ENG_HI 0x42C80000).fset (aioB 5) AIO_CH_SAFE_CODE 0x2AAB).aioWrite 5
    0x421C8000

/-- The code is 28,017; OPEN_LOOP drives the SAFE code, STATUS reads 0x06C0_0000 and event 394 carries 0x0618_0000. -/
theorem test_valve :
    valve.fget (aioB 5) AIO_CH_OUT_CODE = 28017 ∧ aioCodeOf 1 ⟨4, 1⟩ = 0x2AAB ∧
    (let t := after (.aioDriverFault 5 999 199) valve
     t.events.map (fun e => (e.source, e.data)) = [(394, 0x06180000)] ∧ t.rd 0xB061C = 0x06C00000 ∧ t.fget (aioB 5) AIO_CH_OUT_CODE = 0x2AAB) := by
  decide +kernel

/-- Chapter 14, a silent failure of the active lane: lane A has failed, the copy of cycle 9,000 stands, and tick 9,002 is due. -/
def silent : State :=
  let s : State := { run.setLane .b { run.lane .b with copy := some ⟨9000, [], []⟩ } with tickNo := 9001, now := 2000000, tickAt := 1000000, base := 1000 }
  let s := (s.setLstate .a .failed).setGrant 3 .a false false
  { s.fset (galB 3) HG_GAL_LIVE_EN 1 with hg := { (s.fset (galB 3) HG_GAL_LIVE_EN 1).hg with takeover := some ⟨.a, 1, 1000000⟩ } }

/-- Event 576 carries 0x1A00_03E8, HG_LAST_SWITCH reads 0x1A00_0064 and its CYCLE 9,002, and gallery 3's grant 0xC000_0000. -/
theorem test_takeover :
    (let t := after .takeoverTick silent
     t.events.map (fun e => (e.source, e.data)) = [(576, 0x1A0003E8)] ∧ t.rd 0x10020 = 0x1A000064 ∧ t.rd 0x10024 = 0x232A ∧
       t.rd (grantB 3) = 0xC0000000) := by decide +kernel

/-- Chapter 16, a weekly power histogram: 72,262 mW falls into bin 25. -/
theorem test_bin : flowBin 0 0x453B8000 (flowEnc 0x807C0A07 72262) = some 25 := by decide +kernel

/-- Chapter 17, rotating a site key: slot 4 under slot 1, and slots 76 and 77 under slot 4. -/
def tree : State :=
  let k (s : State) (n attr parent depth : Nat) : State :=
    ((((s.fset (keySlotB n) KEY_SLOT_ATTR attr).fset (keySlotB n) KEY_SLOT_GEN 1).fset (keySlotB n) KEY_SLOT_LINK_PARENT parent).fset
      (keySlotB n) KEY_SLOT_PGEN 1).fset (keySlotB n) KEY_SLOT_LINK_DEPTH depth
  { k (k (k (k run 1 0xC0000014 0 1) 4 0x40010014 1 2) 76 0x4C000004 4 3) 77 0x4D000004 4 3 with keyQ := [⟨1, 7, false, 4, 0, 0, []⟩] }

/-- The invalidation of slot 4 orphans both: events 625 and 626 carry 0x0400_0002, and KEY_SLOT77_ATTR reads 0x8D00_0004. -/
theorem test_rotate :
    (let t := after (.keyAreaWriteDone true) tree
     t.events.map (fun e => (e.source, e.data)) = [(625, 0x04000002), (626, 0x04000002)] ∧ t.rd 0x354D0 = 0x8D000004 ∧ t.keyGen 4 = 2) := by
  decide +kernel

/-! ### Values from outside the model: published vectors of the algorithms the spec names, and a small program -/

/-- FIPS 180-4 "abc", RFC 4231 case 2, FIPS 197 C.3: SHA-256, HMAC-SHA-256 and AES-256. -/
theorem test_hashes :
    sha256 [0x61, 0x62, 0x63] = beBytes 32 0xBA7816BF8F01CFEA414140DE5DAE2223B00361A396177A9CB410FF61F20015AD ∧
    (sha384 [0x61, 0x62, 0x63]).take 8 = beBytes 8 0xCB00753F45A35E8B ∧
    hmacSha256 [0x4A, 0x65, 0x66, 0x65] ([0x77, 0x68, 0x61, 0x74, 0x20, 0x64, 0x6F, 0x20, 0x79, 0x61, 0x20, 0x77, 0x61, 0x6E, 0x74, 0x20] ++
      [0x66, 0x6F, 0x72, 0x20, 0x6E, 0x6F, 0x74, 0x68, 0x69, 0x6E, 0x67, 0x3F]) =
      beBytes 32 0x5BDCC146BF60754E6A042426089575C75A003F089D2739839DEC58B964EC3843 ∧
    aesEncrypt (beBytes 32 0x000102030405060708090A0B0C0D0E0F101112131415161718191A1B1C1D1E1F) (beBytes 16 0x00112233445566778899AABBCCDDEEFF) =
      beBytes 16 0x8EA2B7CA516745BFEAFC49904B496089 := by decide +kernel

/-- The GCM specification's case 14, and FIPS 197 C.3 backwards. -/
theorem test_gcm :
    gcmCrypt (List.replicate 32 0) (List.replicate 12 0) (List.replicate 16 0) = beBytes 16 0xCEA7403D4D606B6E074EC5D3BAF39D18 ∧
    gcmTag (List.replicate 32 0) (List.replicate 12 0) [] (beBytes 16 0xCEA7403D4D606B6E074EC5D3BAF39D18) =
      beBytes 16 0xD0D1C8A799996BF0265B98B5D48AB919 ∧
    aesDecrypt (beBytes 32 0x000102030405060708090A0B0C0D0E0F101112131415161718191A1B1C1D1E1F) (beBytes 16 0x8EA2B7CA516745BFEAFC49904B496089) =
      beBytes 16 0x00112233445566778899AABBCCDDEEFF := by decide +kernel

/-- Chapter 03, the gather example: the request's nonce. Chapter 07: the entry of level 8,000 with a fade of 500. Chapter 13: CAN2's bit timing at reset. -/
theorem test_example_bytes :
    packetNonce 0x5A3C0101 0x105 = beBytes 12 0x5A3C01010000000000000105 ∧ levelEntry (500 * 0x10000 + 8000) = beBytes 6 0x1F4001F40000 ∧
    State.reset.rd (canB 1 + 4) = 0x007E3E7C ∧ State.reset.rd (canB 1 + 8) = 0x07264F00 := by decide +kernel

/-- A luminaire frame of the module is IPv6 and UDP, of port 39221, with a checksum that the receiver's sum confirms; FCS check of IEEE 802.3 is the
CRC of R508. -/
theorem test_lum_frame :
    (let u := lumFrame 0x020000000001 0x020000000002 (linkLocal 0x020000000002) [1, 2, 3]
     frameKind u = .luminaire ∧ frameUdp u = some (u.drop 54) ∧ frameTag u = none ∧ u.length = 14 + 40 + 8 + 3 ∧ linkLocal 0x020000000002 = 0xFE800000000000000000000000000000 + 0xFFFE000002 ∧
      checksum (((u.drop 22).take 32) ++ beBytes 4 11 ++ beBytes 4 17 ++ u.drop 54) = 0 ∧
      frameTag (addTag 5 9 u) = some (5, 9) ∧ untag (addTag 5 9 u) = u) ∧
    frameFcs [0x31, 0x32, 0x33, 0x34, 0x35, 0x36, 0x37, 0x38, 0x39] false = leBytes 4 0xCBF43926 := by decide +kernel

/-- A partition that divides by zero, stores an index out of range, and stores 7 in entry 8191 through a subrange of 1 to 5. -/
def ptRun : PartDesc :=
  { pt0 with steps := [.push 5, .push 0, .bin .div 3, .store (.num 3) (.data 0), .push 11, .push 9, .storeAt (.num 3) (.data 8) [(1, 10)],
      .push 7, .storeIn 3 (.point 8191) 1 5] }
def ran : State :=
  let s : State := { run.setPoint 8191 { dq with writer := some 0, bind := .aio 0 } with image := some { img0 with tasks := [tk0], parts := [ptRun] } }
  s.setCyc .a { s.cyc .a with parts := [⟨0, 0, 0, 0, 0x2000, true⟩] }

/-- R272: 0, a discarded store and the nearer bound, with three faults of the task, the last RANGE of a subrange; cycle 4 runs nothing of task 0. -/
theorem test_program :
    (let t := ran.cycleRun .a 5
     (t.cyc .a).staged = [(8191, 5)] ∧ t.fget (taskB .a 0) CYC_TASK_FAULT_COUNT = 3 ∧ t.fget (taskB .a 0) CYC_TASK_FAULT_LAST_CODE = 5 ∧
      (t.cyc .a).empty = []) ∧ (ran.cycleRun .a 4).cyc .a = ran.cyc .a := by decide +kernel

/-- IEC 61131-3, TON: started at 100 with PT 50, 30 and 50 later. -/
theorem test_ton :
    blockVal .ton 100 ⟨0, 0, 0⟩ [.num 50, .num 1] = some (⟨1, 100, 0⟩, [], [.num 0, .num 0]) ∧
    blockVal .ton 130 ⟨1, 100, 0⟩ [.num 50, .num 1] = some (⟨1, 100, 0⟩, [], [.num 30, .num 0]) ∧
    blockVal .ton 150 ⟨1, 100, 0⟩ [.num 50, .num 1] = some (⟨1, 100, 0⟩, [], [.num 50, .num 1]) := by decide +kernel

/-- IEEE 754: 0.1 + 0.2 in LREAL, 1 ÷ 3 in REAL, the greatest REAL doubled. -/
theorem test_ieee :
    ieeeAdd 14 0x3FB999999999999A 0x3FC999999999999A = 0x3FD3333333333334 ∧ ieeeDiv 13 0x3F800000 0x40400000 = 0x3EAAAAAB ∧
    ieeeAdd 13 0x7F7FFFFF 0x7F7FFFFF = 0x7F800000 ∧ ieeeSqrt 13 0x40000000 = 0x3FB504F3 := by decide +kernel

end Sys2Proof.Tests
end

section
/-! PROOF. The MODE field of every word that reports it holds the code of the operating mode (R8, R9). -/

namespace Sys2Proof.Machine
open Sys2Proof

/-! ### The parts of a STATUS word -/

theorem Mode.code_lt_six (m : Mode) : m.code < 6 := by
  cases m <;> decide

theorem laneNum_le_one (l : Lane) : l.num ≤ 1 := by
  cases l <;> decide

theorem Res.code_le (r : Res) : r.code ≤ 0x22 := by
  cases r <;> decide

/-- The causes of DEGRADED stand in bits [15:9], and each adds at most its own bit. -/
theorem State.degBits_lt (s : State) : s.degBits < 0x10000 := by
  refine lt_of_le_of_lt (b := 0x8000 + 0x4000 + 0x2000 + 0x1000 + 0x800 + 0x400 + 0x200) ?_ (by decide)
  unfold State.degBits
  gcongr <;> split <;> decide

/-- Below MODE, the module-wide bits of STATUS are bits [25:21]. -/
theorem State.statusCommon_bounds (s : State) (l : Lane) :
    2 ^ 26 * s.mode.code ≤ s.statusCommon l ∧ s.statusCommon l ≤ 2 ^ 26 * s.mode.code + 0x3E00000 := by
  have lane := laneNum_le_one l
  unfold State.statusCommon
  split_ifs <;> omega

/-- In a word whose bits from 29 up are `high`, the bounds that `code` in bits [28:26] gives fix that field. -/
theorem modeField_of_bounds {w code : Nat} (high : Nat) (lower : 2 ^ 29 * high + 2 ^ 26 * code ≤ w)
    (upper : w < 2 ^ 29 * high + 2 ^ 26 * (code + 1)) (hcode : code < 6) : w / 2 ^ 26 % 8 = code := by
  omega

/-! ### MODE where the module reports it -/

theorem State.statusCommon_mode (s : State) (l : Lane) : s.statusCommon l / 2 ^ 26 % 8 = s.mode.code := by
  obtain ⟨lower, upper⟩ := s.statusCommon_bounds l
  exact modeField_of_bounds 0 (by omega) (by omega) s.mode.code_lt_six

theorem State.statusClear_mode (s : State) (l : Lane) (r : Res) : s.statusClear l r / 2 ^ 26 % 8 = s.mode.code := by
  obtain ⟨lower, upper⟩ := s.statusCommon_bounds l
  have result := r.code_le
  unfold State.statusClear
  exact modeField_of_bounds 0 (by omega) (by omega) s.mode.code_lt_six

theorem State.status_mode (s : State) (l : Lane) (g : Nat) (r : Res) : s.status l g r / 2 ^ 26 % 8 = s.mode.code := by
  obtain ⟨lower, upper⟩ := s.statusCommon_bounds l
  have result := r.code_le
  have mode := s.mode.code_lt_six
  unfold State.status
  split_ifs <;> omega

theorem State.liveStatus_mode (s : State) : s.liveStatus / 2 ^ 26 % 8 = s.mode.code := by
  unfold State.liveStatus
  split <;> exact s.status_mode _ _ _

/-- `SYS_STATUS` shows the module-wide bits of STATUS (R41). -/
theorem State.regShow_sysStatus (s : State) (l : Lane) : s.regShow l 0x10 = s.statusCommon l := rfl

/-- `HG_STATUS` (R438). -/
theorem State.regShow_hgStatus (s : State) (l : Lane) :
    s.regShow l 0x10000 =
      s.hg.hg.code * 0x20000000 + s.mode.code * 0x4000000 + s.hg.active.num * 0x2000000 + s.hg.holdCause % 8 * 0x400000 + s.degBits := rfl

theorem State.hgStatus_mode (s : State) (l : Lane) : s.regShow l 0x10000 / 2 ^ 26 % 8 = s.mode.code := by
  have lane := laneNum_le_one s.hg.active
  have deg := s.degBits_lt
  rw [s.regShow_hgStatus]
  exact modeField_of_bounds s.hg.hg.code (by omega) (by omega) s.mode.code_lt_six

end Sys2Proof.Machine

open Sys2Proof Sys2Proof.Machine

/-- Settles O7: each reported MODE field is the code of the mode, and the six modes have the codes 0 to 5. -/
theorem modeReported : Obligations.ModeReported := by
  intro s l g r
  rw [s.status_mode, s.statusClear_mode, s.liveStatus_mode, s.regShow_sysStatus, s.statusCommon_mode, s.hgStatus_mode]
  have mode := s.mode.code_lt_six
  exact ⟨mode, mode, mode, mode, mode, mode⟩

end

section
/-! PROOF. An operation on a word that cannot be reached is answered with the reason, changes nothing and reads zero (R15). -/

namespace Sys2Proof.Machine
open Sys2Proof

/-! ### Words that cannot be reached -/

/-- No register is implemented at `a`: in the partner's window, the partner has none (R15, R39). -/
abbrev RegAbsent (a : Nat) : Prop := regRow? (if isAlias a then a - 0x200000 else a) = none

/-- The block of the register at `a` is in reset for lane `l`: in the partner's window, the partner lane is (R15, R39). -/
abbrev State.RegHeld (s : State) (l : Lane) (a : Nat) : Prop :=
  if isAlias a then s.inReset l.other.dom.bit = true else s.regBlocked a = true

section
variable {s : State} {l : Lane} {a : Nat} (flow : isFlowWin a = false) (ret : isRetWin a = false) (cell : isCellWin a = false)
include flow ret cell

theorem State.regJudge_of_absent (absent : RegAbsent a) : s.regJudge l a = .noSuchObject := by
  cases partner : isAlias a
  · have row : regRow? a = none := by simpa [RegAbsent, partner] using absent
    simp [State.regJudge, partner, flow, ret, cell, row]
  · have row : regRow? (a - 0x200000) = none := by simpa [RegAbsent, partner] using absent
    simp [State.regJudge, partner, row]

theorem State.regJudge_of_held (there : ¬ RegAbsent a) (held : s.RegHeld l a) : s.regJudge l a = .blockInReset := by
  cases partner : isAlias a
  · have row : regRow? a ≠ none := by simpa [RegAbsent, partner] using there
    have blocked : s.regBlocked a = true := by simpa [State.RegHeld, partner] using held
    simp [State.regJudge, partner, flow, ret, cell, row, blocked]
  · have row : regRow? (a - 0x200000) ≠ none := by simpa [RegAbsent, partner] using there
    have reset : s.inReset l.other.dom.bit = true := by simpa [State.RegHeld, partner] using held
    simp [State.regJudge, partner, row, reset]

/-- Outside the memory windows, `regJudge` refuses a word that is absent or held, and absence goes first. -/
theorem State.regJudge_of_absent_or_held (h : RegAbsent a ∨ s.RegHeld l a) :
    s.regJudge l a = if RegAbsent a then .noSuchObject else .blockInReset := by
  split_ifs with absent
  · exact regJudge_of_absent flow ret cell absent
  · exact regJudge_of_held flow ret cell absent (h.resolve_left absent)

end

theorem State.readWord_of_refused {s : State} {l : Lane} {a : Nat} {e : Res} (h : s.regJudge l a = e) (he : e ≠ .ok) :
    s.readWord l a = (s, e, 0) := by
  subst h
  unfold State.readWord
  split
  · contradiction
  · rfl

theorem State.writeWord_of_refused {s : State} {l : Lane} {a v : Nat} {e : Res} (h : s.regJudge l a = e) (he : e ≠ .ok) :
    s.writeWord l a v = (s, e) := by
  subst h
  unfold State.writeWord
  split
  · contradiction
  · rfl

end Sys2Proof.Machine

namespace Sys2Proof.Safety
open Sys2Proof Sys2Proof.Machine

@[simp] theorem took_regJudge (s : State) (r : Req) (x : Session) (l : Lane) (a : Nat) :
    (took s r x).regJudge l a = s.regJudge l a := rfl

/-! ### One-word operations on them -/

section
variable {s : State} {r : Req} {a : Nat} {x : Session} {l : Lane} {e : Res}

/-- A read of one word that cannot be reached is answered with the reason and a word of zero. -/
theorem readReq_of_refused (h : Served s r 0x11 lenRegRead x l) (aligned : a % 4 = 0) (judge : s.regJudge l a = e) (he : e ≠ .ok) :
    s.readReq r a 1 = replied (took s r x) s r x l 0x11 e [0, 0, 0, 0] := by
  have word : (took s r x).readWord l a = (took s r x, e, 0) := State.readWord_of_refused ((took_regJudge s r x l a).trans judge) he
  unfold State.readReq
  refine serve_of_served h ?_ rfl
  dsimp only
  rw [if_neg (by omega), if_neg (by omega)]
  simp only [State.readWords, word, if_neg he]
  rfl

/-- A write of one word that cannot be reached is answered with the reason and changes nothing. -/
theorem writeReqWith_of_refused {v : Nat} {ws : State → Lane → List Nat} (h : Served s r 0x12 (lenRegWrite 1) x l)
    (one : ws (took s r x) l = [v]) (aligned : a % 4 = 0) (cistern : cisTouched a 1 = false) (quiet : s.rd 0x11000 = 0)
    (judge : s.regJudge l a = e) (he : e ≠ .ok) :
    s.writeReqWith r a 1 1 ws = replied (took s r x) s r x l 0x12 e [] := by
  have word : (took s r x).writeWord l a v = (took s r x, e) := State.writeWord_of_refused ((took_regJudge s r x l a).trans judge) he
  have op : (took s r x).writeOp l a [v] = (took s r x, e) := by
    simp [State.writeOp, State.writeWords, word, cistern, he]
  have still : (replied (took s r x) s r x l 0x12 e []).rd 0x11000 = 0 := by
    rw [State.rd_regs (took s r x) _ _ (replied_regs (took s r x) s r x l _ _ _)]
    exact quiet
  unfold State.writeReqWith
  rw [serve_of_served (u := took s r x) (res := e) (body := []) h ?_ rfl]
  · unfold State.rstAfter
    rw [if_pos still]
  · dsimp only
    rw [if_neg (by omega), if_neg (by omega), one, op]
    rfl

end

end Sys2Proof.Safety

open Sys2Proof Sys2Proof.Machine Sys2Proof.Safety

/-- Settles O16: the operations of one word, for the reason that `regJudge` gives. -/
theorem registerAbsent : Obligations.RegisterAbsent := by
  intro s r addr w x l aligned flow ret cell quiet absent blocked res unreachable cistern
  have judge : s.regJudge l addr.toNat = res := State.regJudge_of_absent_or_held flow ret cell unreachable
  have refused : res ≠ .ok := by
    unfold res
    split <;> decide
  exact ⟨fun served => congrArg _ (writeReqWith_of_refused served rfl aligned cistern quiet judge refused),
    fun served => congrArg _ (readReq_of_refused served aligned judge refused)⟩

end

section
/-! PROOF. The marks of events, and what ATTN says of them (R104). -/

namespace Sys2Proof.Machine
open Sys2Proof

/-! ### Marks -/

theorem EvEntry.visible_iff (e : EvEntry) (g : Nat) : e.visible g = true ↔ g = 0 ∨ e.gallery = g := by
  simp [EvEntry.visible]

theorem EvEntry.full_iff (e : EvEntry) : e.full = true ↔ e.ackOwner = true ∧ e.ackOp = true := by
  simp [EvEntry.full]

/-- For gallery 0 an entry is unmarked while the operator's mark is clear, whichever gallery it belongs to. -/
theorem EvEntry.unmarked_operator_iff (e : EvEntry) : e.unmarked 0 = true ↔ e.ackOp = false := by
  simp [EvEntry.unmarked]

theorem EvEntry.unmarked_tenant_iff (e : EvEntry) {g : Nat} (tenant : g ≠ 0) :
    e.unmarked g = true ↔ e.gallery = g ∧ e.ackOwner = false := by
  simp [EvEntry.unmarked, tenant]

/-- An acknowledgement by gallery 0: the owner's mark comes with the operator's on gallery 0's own entries. -/
theorem EvEntry.ack_operator (e : EvEntry) : e.ack 0 = { e with ackOp := true, ackOwner := e.ackOwner || e.gallery == 0 } := rfl

theorem EvEntry.ack_tenant (e : EvEntry) {g : Nat} (tenant : g ≠ 0) : e.ack g = { e with ackOwner := true } := if_neg tenant

/-! ### ATTN -/

/-- MODE is at most 101, and the module-wide bits of STATUS end there. -/
theorem State.statusCommon_lt (s : State) (l : Lane) : s.statusCommon l < 6 * 2 ^ 26 := by
  have upper := (s.statusCommon_bounds l).2
  have mode := s.mode.code_lt_six
  omega

/-- Bit 31 of STATUS is ATTN: everything else in the word adds up to less. -/
theorem State.status_attn_iff (s : State) (l : Lane) (g : Nat) (r : Res) :
    s.status l g r / 2 ^ 31 = 1 ↔ ∃ e ∈ s.events, e.unmarked g = true := by
  have common := s.statusCommon_lt l
  have result := r.code_le
  rw [← List.any_eq_true]
  unfold State.status
  by_cases attn : s.events.any (fun e => e.unmarked g) = true
  · rw [if_pos attn, iff_true_right attn]
    split_ifs <;> omega
  · rw [if_neg attn, iff_false_right attn]
    split_ifs <;> omega

end Sys2Proof.Machine

open Sys2Proof Sys2Proof.Machine

/-- Settles O8: what each mark is set by, and ATTN as the bit above the rest of STATUS. -/
theorem eventMarks : Obligations.EventMarks := by
  refine ⟨EvEntry.visible_iff, EvEntry.full_iff, fun e own => ?_, fun e other => ?_, fun e g tenant => ?_, fun s l r => ?_,
    fun s l g r tenant => ?_⟩
  · simp [e.ack_operator, own]
  · simp [e.ack_operator, other]
  · simp [e.ack_tenant tenant]
  · simp only [s.status_attn_iff, EvEntry.unmarked_operator_iff]
  · simp only [s.status_attn_iff, EvEntry.unmarked_tenant_iff _ tenant]

end

section
/-! PROOF. What ABORT does to the operation it names, and the replies it sends (R94). -/

namespace Sys2Proof.Machine
open Sys2Proof

/-! ### A reply that is not the session's last -/

/-- Bits [19:0] of STATUS hold the result. -/
theorem State.status_result (s : State) (l : Lane) (g : Nat) (r : Res) : s.status l g r % 2 ^ 20 = r.code := by
  have result := r.code_le
  unfold State.status State.statusCommon
  split_ifs <;> omega

/-- Sending a reply changes nothing but the list of what was sent and the doorbell's reply buffer. -/
theorem State.sendReply_eq (s : State) (t : Transport) (secure : Bool) (id seq tag opcode : Nat) (body wire : List Byte) :
    s.sendReply t secure id seq tag opcode body wire =
      { s with sent := .reply t secure id seq tag opcode body wire :: s.sent,
               dbReply := if t = .doorbell then some wire else s.dbReply } := by
  unfold State.sendReply
  split <;> rfl

section
variable {s : State} {x : Session} {t : Transport} {tag opcode : Nat} {l : Lane} {r : Res} {body : List Byte}
  (more : x.replies + 1 < seqMax)
include more

/-- With SEQs left the session stays, with its reply counted. -/
theorem State.replyTo_of_lt :
    let b := beBytes 4 (s.status l x.gallery r) ++ body
    s.replyTo x t tag opcode l r body =
      (s.setSession { x with replies := x.replies + 1 }).sendReply t true x.id (x.replies + 1) tag opcode b
        (sealPacket x.kOut 0xC0 x.id (x.replies + 1) tag opcode b) := by
  intro b
  unfold State.replyTo
  exact if_neg (by omega)

/-- A reply without a body after STATUS. -/
theorem State.replyTo_sent : ∃ st w, (s.replyTo x t tag opcode l r []).sent =
    .reply t true x.id (x.replies + 1) tag opcode (beBytes 4 st) w :: s.sent ∧ st % 2 ^ 20 = r.code := by
  rw [replyTo_of_lt more, sendReply_eq, List.append_nil]
  exact ⟨_, _, rfl, s.status_result l x.gallery r⟩

theorem State.replyTo_flights : (s.replyTo x t tag opcode l r body).flights = s.flights := by
  rw [replyTo_of_lt more, sendReply_eq]
  rfl

theorem State.replyTo_keyQ : (s.replyTo x t tag opcode l r body).keyQ = s.keyQ := by
  rw [replyTo_of_lt more, sendReply_eq]
  rfl

theorem State.replyTo_sessions :
    (s.replyTo x t tag opcode l r body).sessions = (s.setSession { x with replies := x.replies + 1 }).sessions := by
  rw [replyTo_of_lt more, sendReply_eq]

end

/-- The session replaced under its identity is the one found there. -/
theorem State.session?_setSession {s : State} {i : Nat} {x y : Session} (h : s.session? i = some x) (same : y.id = x.id) :
    (s.setSession y).session? i = some y :=
  Safety.find_map_id s.sessions i x y h same

/-- The replying session stays open, with its reply counted. -/
theorem State.replyTo_session {s : State} {x : Session} {t : Transport} {tag opcode i : Nat} {l : Lane} {r : Res} {body : List Byte}
    (more : x.replies + 1 < seqMax) (h : s.session? i = some x) :
    (s.replyTo x t tag opcode l r body).session? i = some { x with replies := x.replies + 1 } := by
  unfold State.session?
  rw [replyTo_sessions more]
  exact session?_setSession h rfl

end Sys2Proof.Machine

namespace Sys2Proof.Safety
open Sys2Proof Sys2Proof.Machine

@[simp] theorem accepted_replies (x : Session) (q n : Nat) : (x.accepted q n).replies = x.replies := by
  unfold Session.accepted Session.mark
  split <;> rfl

/-- A served request comes to its operation, whose answer goes to the session. -/
theorem serve_eq_sendTo {s : State} {r : Req} {opcode want : Nat} {x : Session} {l : Lane} (run : State → Session → Lane → Answer)
    (h : Served s r opcode want x l) :
    s.serve r opcode want run = (run (took s r x) (x.accepted r.seq.toNat s.now) l).sendTo x.id r opcode l (fun s => s) := by
  have below : ¬ r.seq.toNat ≥ seqMax := by
    have := h.seq
    omega
  have free := h.free
  unfold took at free
  unfold State.serve State.serveThen
  rw [if_neg h.gate, h.session]
  dsimp only
  rw [h.lane]
  simp only [h.fresh, if_neg below, State.runReq, free, accepted_id]
  rfl

/-- An answer goes out in the session as the operation leaves it. -/
theorem sendTo_of_session {u : State} {id : Nat} {z : Session} (h : u.session? id = some z) (r : Req) (opcode : Nat) (l : Lane) (res : Res)
    (body : List Byte) :
    (⟨u, some (res, body)⟩ : Answer).sendTo id r opcode l (fun s => s) = u.replyTo z r.transport r.tag.toNat opcode l res body := by
  simp only [Answer.sendTo, h, ite_self]

section
variable {u s : State} {r : Req} {opcode : Nat} {x : Session} {l : Lane} {res : Res} {body : List Byte}

/-- With SEQs left a reply leaves the operations in flight alone. -/
theorem replied_flights (more : x.replies + 1 < seqMax) : (replied u s r x l opcode res body).flights = u.flights :=
  State.replyTo_flights (by rwa [accepted_replies])

theorem replied_keyQ (more : x.replies + 1 < seqMax) : (replied u s r x l opcode res body).keyQ = u.keyQ :=
  State.replyTo_keyQ (by rwa [accepted_replies])

end

@[simp] theorem took_flights (s : State) (r : Req) (x : Session) : (took s r x).flights = s.flights := rfl

/-! ### The cancelled operation -/

/-- `f` no longer in flight, nor in the queue of key operations of session `id`. -/
def withdrawn (s : State) (id : Nat) (f : Flight) : State :=
  { s with flights := s.flights.erase f, keyQ := s.keyQ.filter (fun k => !(k.session == id && k.tag == f.tag)) }

/-- `f` withdrawn and answered CANCELLED in session `x`. -/
def cancelled (s : State) (x : Session) (l : Lane) (f : Flight) : State :=
  (withdrawn s x.id f).replyTo x f.transport f.tag f.opcode l .cancelled []

section
variable {s : State} {x : Session} {l : Lane} {f : Flight} (more : x.replies + 1 < seqMax)
include more

theorem cancelled_flights : (cancelled s x l f).flights = s.flights.erase f := State.replyTo_flights more

theorem cancelled_keyQ :
    (cancelled s x l f).keyQ = s.keyQ.filter (fun k => !(k.session == x.id && k.tag == f.tag)) := State.replyTo_keyQ more

theorem cancelled_sent : ∃ st w, (cancelled s x l f).sent =
    .reply f.transport true x.id (x.replies + 1) f.tag f.opcode (beBytes 4 st) w :: s.sent ∧ st % 2 ^ 20 = 0x20 :=
  State.replyTo_sent more

theorem cancelled_session {i : Nat} (h : s.session? i = some x) :
    (cancelled s x l f).session? i = some { x with replies := x.replies + 1 } :=
  State.replyTo_session more h

end

/-! ### ABORT -/

/-- ABORT `r` of session `x` answered OK, after the operation `f` it has cancelled. -/
def aborted (s : State) (r : Req) (x : Session) (l : Lane) (f : Flight) : State :=
  (cancelled (took s r x) (x.accepted r.seq.toNat s.now) l f).replyTo { x.accepted r.seq.toNat s.now with replies := x.replies + 1 }
    r.transport r.tag.toNat 5 l .ok []

section
variable {s : State} {r : Req} {x : Session} {l : Lane} {f : Flight} (more : x.replies + 2 < seqMax)
include more

theorem accepted_replies_lt : (x.accepted r.seq.toNat s.now).replies + 1 < seqMax := by
  rw [accepted_replies]
  omega

theorem aborted_flights : (aborted s r x l f).flights = s.flights.erase f :=
  (State.replyTo_flights more).trans (cancelled_flights (accepted_replies_lt more))

theorem aborted_keyQ : (aborted s r x l f).keyQ = s.keyQ.filter (fun k => !(k.session == x.id && k.tag == f.tag)) := by
  refine (State.replyTo_keyQ more).trans ((cancelled_keyQ (accepted_replies_lt more)).trans ?_)
  rw [accepted_id]
  rfl

/-- The cancelled operation is answered first, and ABORT with the next number (newest reply first). -/
theorem aborted_sent : ∃ st st' w w', (aborted s r x l f).sent =
    .reply r.transport true x.id (x.replies + 2) r.tag.toNat 5 (beBytes 4 st) w ::
      .reply f.transport true x.id (x.replies + 1) f.tag f.opcode (beBytes 4 st') w' :: s.sent ∧
    st % 2 ^ 20 = 0 ∧ st' % 2 ^ 20 = 0x20 := by
  obtain ⟨st', w', first, isCancelled⟩ := cancelled_sent (s := took s r x) (l := l) (f := f) (accepted_replies_lt (s := s) (r := r) more)
  obtain ⟨st, w, second, isOk⟩ : ∃ st w, (aborted s r x l f).sent = _ :: _ ∧ st % 2 ^ 20 = 0 := State.replyTo_sent more
  rw [first, accepted_id, accepted_replies] at second
  exact ⟨st, st', w, w', second, isOk, isCancelled⟩

end

section
variable {s : State} {r : Req} {target : BitVec 16} {x : Session} {l : Lane} {f : Flight} (served : Served s r 5 4 x l)
include served

theorem abort_of_absent (absent : s.flights.find? (fun f => f.session == x.id && f.tag == target.toNat) = none) :
    exec (.abort r target) s = .next (replied (took s r x) s r x l 5 .noSuchObject []) := by
  refine congrArg _ (serve_of_served served ?_ rfl)
  simp only [took_flights, accepted_id, absent]
  rfl

theorem abort_of_started (found : s.flights.find? (fun f => f.session == x.id && f.tag == target.toNat) = some f)
    (started : f.started = true) :
    exec (.abort r target) s = .next (replied (took s r x) s r x l 5 .state []) := by
  refine congrArg _ (serve_of_served served ?_ rfl)
  simp only [took_flights, accepted_id, found, started, if_true]
  rfl

theorem abort_of_waiting (found : s.flights.find? (fun f => f.session == x.id && f.tag == target.toNat) = some f)
    (waiting : f.started = false) (more : x.replies + 2 < seqMax) : exec (.abort r target) s = .next (aborted s r x l f) := by
  have left : (cancelled (took s r x) (x.accepted r.seq.toNat s.now) l f).session? x.id =
      some { x.accepted r.seq.toNat s.now with replies := x.replies + 1 } := by
    rw [← accepted_id x r.seq.toNat s.now, ← accepted_replies x r.seq.toNat s.now]
    exact cancelled_session (accepted_replies_lt more) (took_session served.session rfl)
  refine congrArg _ ((serve_eq_sendTo _ served).trans (Eq.trans ?_ (sendTo_of_session left r 5 l .ok [])))
  simp only [took_flights, accepted_id, found, waiting, cancelled, withdrawn]
  rfl

end

end Sys2Proof.Safety

open Sys2Proof Sys2Proof.Machine Sys2Proof.Safety

/-- Settles O12: ABORT's outcome for each state of the operation it names. -/
theorem abortRules : Obligations.AbortRules := by
  intro s r target x l served more
  have first : x.replies + 1 < seqMax := served.replies
  cases found : s.flights.find? (fun f => f.session == x.id && f.tag == target.toNat) with
  | none => exact ⟨_, abort_of_absent served found, replied_flights first, replied_keyQ first, rfl⟩
  | some f =>
    have tag : f.tag = target.toNat := by
      have picked := List.find?_some found
      rw [Bool.and_eq_true, beq_iff_eq, beq_iff_eq] at picked
      exact picked.2
    cases started : f.started with
    | true =>
      exact ⟨_, abort_of_started served found started,
        fun _ => ⟨replied_flights first, replied_keyQ first, rfl⟩, fun waiting => absurd (started.symm.trans waiting) (by decide)⟩
    | false =>
      rw [← tag]
      exact ⟨_, abort_of_waiting served found started more, fun going => absurd (started.symm.trans going) (by decide),
        fun _ => ⟨aborted_flights more, aborted_keyQ more, aborted_sent more⟩⟩

end
